-- ==== Sys2Proof/Word.lean ====
section
/-! DEFINITION. The word types of the block and their plainest arithmetic. -/
namespace Sys2Proof

/-- One byte, as every data path of the block carries it (R16, R24). -/
abbrev Byte := BitVec 8

/-- A control-core register or a completion counter (R290, R251). -/
abbrev Word64 := BitVec 64

/-- A 32-bit word: a semaphore, an accumulator element (R246, R217). -/
abbrev Word32 := BitVec 32

/-- A flow-unit word: one lane's 128 bits in one cycle (R60, R84). -/
abbrev Word128 := BitVec 128

end Sys2Proof
end

