-- ==== Sys2Proof/Machine/Bits.lean ====
section
/-! DEFINITION. Bit fields, byte order and the sparse tables that the machine is built from. -/
namespace Sys2Proof.Bits
open Sys2Proof

/-- Bits `hi` down to `lo` of a number, as the spec writes [hi:lo] (R15). -/
def fld (v hi lo : Nat) : Nat := (v >>> lo) % 2 ^ (hi + 1 - lo)

/-- Bit `n` of a number, written [n] (R15). -/
def bit (v n : Nat) : Bool := v.testBit n

/-- A Boolean as a bit. -/
def ofBool (b : Bool) : Nat := if b then 1 else 0

/-- A number with bit `n` set. -/
def setBit (v n : Nat) : Nat := v ||| (1 <<< n)

/-- A number with bit `n` cleared. -/
def clearBit (v n : Nat) : Nat := if v.testBit n then v - (1 <<< n) else v

/-- The number that a list of bytes spells, least significant byte first (R16). -/
def leNat : List Byte → Nat
  | [] => 0
  | b :: bs => b.toNat + 256 * leNat bs

/-- The number that a list of bytes spells, most significant byte first: the order of externally standardised
fields (R16). -/
def beNat (bs : List Byte) : Nat := leNat bs.reverse

/-- `n` bytes of a number, least significant byte first (R16). -/
def leBytes : Nat → Nat → List Byte
  | 0, _ => []
  | n + 1, v => BitVec.ofNat 8 v :: leBytes n (v / 256)

/-- `n` bytes of a number, most significant byte first. -/
def beBytes (n v : Nat) : List Byte := (leBytes n v).reverse

/-- `n` bytes, each zero. -/
def zeros (n : Nat) : List Byte := List.replicate n 0

/-- `n` bytes, each all ones. -/
def ones (n : Nat) : List Byte := List.replicate n 0xFF

/-- `len` bytes of a list from offset `off`. -/
def slice {α : Type} (off len : Nat) (bs : List α) : List α := (bs.drop off).take len

/-- A list of bytes brought to exactly `n` bytes, cut or filled with zeros. -/
def fit (n : Nat) (bs : List Byte) : List Byte := (bs ++ zeros n).take n

/-- The little-endian field of `len` bytes at offset `off`. -/
def le (off len : Nat) (bs : List Byte) : Nat := leNat (slice off len bs)

/-- The 64-bit words of a byte list, least significant byte first, the last filled with zeros. -/
def words64 : List Byte → List Nat
  | [] => []
  | b :: bs => words64Go [] (b :: bs) (bs.length + 1)
where
  /-- Words of 8 bytes, `fuel` bounding the bytes left. -/
  words64Go : List Nat → List Byte → Nat → List Nat
    | acc, _, 0 => acc.reverse
    | acc, [], _ => acc.reverse
    | acc, x :: xs, fuel + 1 => words64Go (leNat ((x :: xs).take 8) :: acc) ((x :: xs).drop 8) fuel

/-- A two's-complement number of `w` bits as an integer. -/
def signed (w v : Nat) : Int := if v % 2 ^ w < 2 ^ (w - 1) then Int.ofNat (v % 2 ^ w) else Int.ofNat (v % 2 ^ w) - 2 ^ w

/-- An integer as `w` bits of two's complement. -/
def unsign (w : Nat) (i : Int) : Nat := (i % (2 ^ w : Nat)).toNat

/-- The quotient rounded up. -/
def ceilDiv (a b : Nat) : Nat := (a + b - 1) / b

/-- ⌊log2⌋ of a positive number as a shift count, and 0 for 0. -/
def log2 (n : Nat) : Nat := Nat.log2 n

/-- The number of bits set among the low `n` bits. -/
def popCount : Nat → Nat → Nat
  | 0, _ => 0
  | n + 1, v => (if v.testBit n then 1 else 0) + popCount n v

/-- The numbers of the bits set among the low `n` bits, ascending. -/
def bitsOf (n v : Nat) : List Nat := (List.range n).filter v.testBit

/-- The mask with the listed bits set. -/
def maskOf (l : List Nat) : Nat := l.foldl setBit 0

/-! ### Sparse tables

A table of the block holds a default wherever it lists nothing. The listing is canonical: keys strictly rise, and no
listed value equals the default. -/

/-- A sparse table. -/
abbrev Table (α : Type) := List (Nat × α)

/-- The listed value of a key. -/
def Table.find? {α : Type} : Table α → Nat → Option α
  | [], _ => none
  | (k', v) :: t, k => if k = k' then some v else if k < k' then none else Table.find? t k

/-- The value of a key, the default where nothing is listed. -/
def Table.get {α : Type} (t : Table α) (d : α) (k : Nat) : α := (Table.find? t k).getD d

/-- The table without a key. -/
def Table.erase {α : Type} : Table α → Nat → Table α
  | [], _ => []
  | (k', v) :: t, k => if k = k' then t else if k < k' then (k', v) :: t else (k', v) :: Table.erase t k

/-- The table with a key listed at a value. -/
def Table.insert {α : Type} : Table α → Nat → α → Table α
  | [], k, v => [(k, v)]
  | (k', v') :: t, k, v =>
    if k = k' then (k, v) :: t else if k < k' then (k, v) :: (k', v') :: t else (k', v') :: Table.insert t k v

/-- The table with a key set to a value; setting the default removes the key. -/
def Table.put {α : Type} [DecidableEq α] (t : Table α) (d : α) (k : Nat) (v : α) : Table α :=
  if v = d then Table.erase t k else Table.insert t k v

/-- Keys strictly rise from above `lo`, and no value is the default. -/
def Table.wfFrom {α : Type} [DecidableEq α] (d : α) : Option Nat → Table α → Bool
  | _, [] => true
  | lo, (k, v) :: t => (match lo with | none => true | some l => decide (l < k)) && decide (v ≠ d) && Table.wfFrom d (some k) t

/-- The canonical form of a table. -/
def Table.wf {α : Type} [DecidableEq α] (d : α) (t : Table α) : Bool := Table.wfFrom d none t

/-! ### Sets of numbers, kept as rising lists -/

/-- A set with a member added. -/
def setIns (k : Nat) : List Nat → List Nat
  | [] => [k]
  | x :: xs => if k = x then x :: xs else if k < x then k :: x :: xs else x :: setIns k xs

/-- A set with a member removed. -/
def setDel (k : Nat) (l : List Nat) : List Nat := l.filter (· != k)

/-- A list with the element at index `n` replaced; unchanged beyond the end. -/
def setAt {α : Type} (l : List α) (n : Nat) (v : α) : List α := l.set n v

/-- The first element that a test accepts is replaced through `f`. -/
def updFirst {α : Type} (p : α → Bool) (f : α → α) : List α → List α
  | [] => []
  | x :: xs => if p x then f x :: xs else x :: updFirst p f xs

/-- The list without the first element that a test accepts. -/
def dropFirst {α : Type} (p : α → Bool) : List α → List α
  | [] => []
  | x :: xs => if p x then xs else x :: dropFirst p xs

end Sys2Proof.Bits
end

