-- ==== Sys2Proof/Machine/Dict.lean ====
section
/-! DEFINITION. The object dictionary's entries as data: index and subindex, kind of unit, type, access class,
privilege level, default and range, one row for each row of the spec's entry tables (R484 to R486, R508). -/
namespace Sys2Proof.Machine
open Sys2Proof Sys2Proof.Bits

/-- Which units an index exists for (R508): one index, or one index for each unit of a kind. -/
inductive Span where
  /-- One index. -/
  | one
  /-- One index for each of the 64 contexts. -/
  | ctx
  /-- One index for each built core. -/
  | core
  /-- One index for each built link. -/
  | link
  /-- One index for each built memory port. -/
  | port
  /-- One index for each of the 64 logical ports. -/
  | lport
  /-- Four capture windows for each context. -/
  | window
  /-- One index for each fault source of R430. -/
  | source
  /-- One index for each of the seven histograms of R511. -/
  | hist
  deriving DecidableEq, Repr

/-- Entry types (R485). `bytes n` states its length; `cmd` takes 0 to 8 bytes and
ignores them; `anyBytes` is a command typed BYTES whose row states no length and whose value means nothing. -/
inductive Ty where
  | u8 | u16 | u32 | u64 | i8 | i16 | i32 | i64 | bool | enum | bytes (n : Nat) | time64 | cmd | anyBytes
  deriving DecidableEq, Repr

/-- Access classes (R486). -/
inductive Access where
  | ro | rw | rwc | wo | cmd
  deriving DecidableEq, Repr

/-- Privilege and session levels, lowest first (R487). -/
inductive Level where
  | tenant | operator | service
  deriving DecidableEq, Repr

/-- The number of a level, as `ONT_LEVEL` codes it (R490). -/
def Level.toNat : Level → Nat
  | .tenant => 0 | .operator => 1 | .service => 2

/-- The check that an entry's own row states for a written value. -/
inductive Check where
  /-- No bound beyond the type. -/
  | any
  /-- From `lo` to `hi`. -/
  | range (lo hi : Nat)
  /-- 0, or from `lo` to `hi`. -/
  | zeroOr (lo hi : Nat)
  /-- A local offset: a multiple of `align` below 2^40 (R521). -/
  | off (align : Nat)
  /-- A context offset: a multiple of `align` below 2^48 (R521). -/
  | ctxOff (align : Nat)
  /-- A check of its own, made where the write is served. -/
  | special
  deriving DecidableEq, Repr

/-- One entry of the dictionary. -/
structure Entry where
  /-- The index of the first unit times 256, plus the subindex. -/
  key : Nat
  /-- The units the index exists for. -/
  span : Span
  /-- The type. -/
  ty : Ty
  /-- The access class. -/
  access : Access
  /-- The privilege level. -/
  priv : Level
  /-- The default; 0 where the default is computed (`State.regDefault`). -/
  dflt : Nat
  /-- The value check. -/
  chk : Check
  deriving DecidableEq, Repr

/-- The type code of R485. -/
def Ty.code : Ty → Nat
  | .u8 => 1 | .u16 => 2 | .u32 => 3 | .u64 => 4 | .i8 => 5 | .i16 => 6 | .i32 => 7 | .i64 => 8
  | .bool => 9 | .enum => 0xA | .bytes _ => 0xB | .time64 => 0xC | .cmd => 0xB | .anyBytes => 0xB

/-- The bytes of a value of a type (R485). -/
def Ty.size : Ty → Nat
  | .u8 => 1 | .u16 => 2 | .u32 => 4 | .u64 => 8 | .i8 => 1 | .i16 => 2 | .i32 => 4 | .i64 => 8
  | .bool => 1 | .enum => 1 | .bytes n => n | .time64 => 8 | .cmd => 0 | .anyBytes => 0

/-- Whether a written length fits the type: a CMD takes 0 to 8 bytes, and BYTES of no stated length 0 to 256 (R485). -/
def Ty.lenOk (t : Ty) (n : Nat) : Bool :=
  match t with
  | .cmd => decide (n ≤ 8)
  | .anyBytes => decide (n ≤ 256)
  | _ => n == t.size

/-! The key of each entry: its index (for the first unit) times 256 plus its subindex. The key of unit `n` is
256 × n more. -/
namespace Reg
/-- R30. -/
def GMP_LATE_BEATS : Nat := 0x211001
/-- R30. -/
def GMP_RETIRED : Nat := 0x211002
/-- R30. -/
def GMP_POISON_RSP : Nat := 0x211003
/-- R30. -/
def GMP_ADDR_ERR : Nat := 0x211004
/-- R99. -/
def LINK_PAUSE_TIMEOUT : Nat := 0x300001
/-- R99. -/
def LINK_ERR_WINDOW_LOG2 : Nat := 0x300002
/-- R99. -/
def LINK_ERR_THRESHOLD : Nat := 0x300003
/-- R99. -/
def LINK_FREEWHEEL : Nat := 0x300004
/-- R99. -/
def LINK_ACK_COUNT : Nat := 0x300005
/-- R99. -/
def LINK_ACK_TIMER : Nat := 0x300006
/-- R99. -/
def LINK_REPLAY_TIMEOUT : Nat := 0x300007
/-- R99. -/
def LINK_REPLAY_LIMIT : Nat := 0x300008
/-- R99. -/
def LINK_XOFF_LEVEL : Nat := 0x300009
/-- R99. -/
def LINK_XON_LEVEL : Nat := 0x30000A
/-- R99. -/
def LINK_CAPS_MASK : Nat := 0x30000B
/-- R99. -/
def LINK_DETECT_TIMEOUT : Nat := 0x30000C
/-- R99. -/
def LINK_LANE_ERR_THRESHOLD : Nat := 0x30000D
/-- R99. -/
def LINK_TRAIN_RETRIES : Nat := 0x30000E
/-- R100. -/
def LINK_STATE : Nat := 0x310001
/-- R100. -/
def LINK_VERSION : Nat := 0x310002
/-- R100. -/
def LINK_CAPS : Nat := 0x310003
/-- R100. -/
def LINK_LANE_MAP : Nat := 0x310004
/-- R100. -/
def LINK_BAD_UNITS : Nat := 0x310005
/-- R100. -/
def LINK_REPLAYS : Nat := 0x310006
/-- R100. -/
def LINK_PKT_DROPS : Nat := 0x310007
/-- R100. -/
def LINK_DOWN_EVENTS : Nat := 0x310008
/-- R100. -/
def LINK_FLUSHES : Nat := 0x310009
/-- R100. -/
def LINK_PARTNER : Nat := 0x31000A
/-- R100. -/
def LINK_ENABLE : Nat := 0x31000B
/-- R100. -/
def LINK_RETRAIN : Nat := 0x31000C
/-- R100. -/
def LINK_DUP_UNITS : Nat := 0x31000D
/-- R100. -/
def LINK_OVERFLOWS : Nat := 0x31000E
/-- R100. -/
def LINK_EPOCH : Nat := 0x31000F
/-- R100. -/
def LINK_DOWN_CAUSE : Nat := 0x310010
/-- R100. -/
def LINK_TRAIN_STAGE : Nat := 0x310011
/-- R139. -/
def ROUTE_OWN_CHIP : Nat := 0x400001
/-- R139. -/
def PKT_STALL_LIMIT : Nat := 0x400002
/-- R139. -/
def INJ_SOFT_LEVEL : Nat := 0x400003
/-- R139. -/
def INJ_HARD_LEVEL : Nat := 0x400004
/-- R139. -/
def TLM_RATE_LOG2 : Nat := 0x400005
/-- R139. -/
def TLM_RING_BASE : Nat := 0x400006
/-- R139. -/
def TLM_RING_RECORDS : Nat := 0x400007
/-- R139. -/
def TLM_PRODUCER : Nat := 0x400008
/-- R139. -/
def TLM_DROPPED : Nat := 0x400009
/-- R139. -/
def ROUTE_LOAD_BASE : Nat := 0x40000A
/-- R139. -/
def ROUTE_LOAD : Nat := 0x40000B
/-- R139. -/
def ROUTE_DRAIN_UPDATE : Nat := 0x40000C
/-- R139. -/
def ROUTE_DRAIN_TIMEOUT : Nat := 0x40000D
/-- R139. -/
def ROUTE_CMD_STATUS : Nat := 0x40000E
/-- R140. -/
def DROP_MALFORMED : Nat := 0x400101
/-- R140. -/
def DROP_JOB : Nat := 0x400102
/-- R140. -/
def DROP_NOT_FOR_ME : Nat := 0x400103
/-- R140. -/
def DROP_TORN_SHORT : Nat := 0x400104
/-- R140. -/
def DROP_TORN : Nat := 0x400105
/-- R140. -/
def DROP_CHECK : Nat := 0x400106
/-- R141. -/
def CTX_JOB_ID : Nat := 0x410001
/-- R141. -/
def CTX_RANK_BASE : Nat := 0x410002
/-- R141. -/
def CTX_RANK_COUNT : Nat := 0x410003
/-- R141. -/
def CTX_OWN_RANK : Nat := 0x410004
/-- R141. -/
def CTX_PORT_ADMIT : Nat := 0x410005
/-- R141. -/
def CTX_ORDERED : Nat := 0x410006
/-- R141. -/
def CTX_ROUTE_BIND : Nat := 0x410007
/-- R141. -/
def CTX_ROUTE_STATE : Nat := 0x410008
/-- R141. -/
def CTX_BIND_ERROR : Nat := 0x410009
/-- R143. -/
def LPORT_LINKS : Nat := 0x430001
/-- R143. -/
def LPORT_CAPS : Nat := 0x430002
/-- R143. -/
def LPORT_ACTIVE : Nat := 0x430003
/-- R175. -/
def RMT_REQ_TIMEOUT : Nat := 0x460001
/-- R175. -/
def RMT_RETRY_LIMIT : Nat := 0x460002
/-- R175. -/
def RMT_BUSY_LIMIT : Nat := 0x460003
/-- R175. -/
def RMT_BACKOFF_MAX : Nat := 0x460004
/-- R175. -/
def RMT_PARK_LIMIT : Nat := 0x460005
/-- R175. -/
def RMT_TAG_QUARANTINE : Nat := 0x460006
/-- R175. -/
def RMT_CACHE_HOLD : Nat := 0x460007
/-- R175. -/
def RMT_WIN_REQ_SIZE : Nat := 0x460008
/-- R175. -/
def RMT_BASE_RESERVE : Nat := 0x460009
/-- R175. -/
def RMT_WIN_LEASE : Nat := 0x46000A
/-- R175. -/
def RMT_CMPL_COALESCE : Nat := 0x46000B
/-- R175. -/
def RMT_RELEASE_DELAY : Nat := 0x46000C
/-- R175. -/
def RMT_DMA_TXN : Nat := 0x46000D
/-- R176. -/
def RMT_TRACKER_USED : Nat := 0x460101
/-- R176. -/
def RMT_TIMEOUT_REISSUES : Nat := 0x460102
/-- R176. -/
def RMT_NEG_REISSUES : Nat := 0x460103
/-- R176. -/
def RMT_STALE_RSP : Nat := 0x460104
/-- R176. -/
def RMT_CACHE_HITS : Nat := 0x460105
/-- R176. -/
def RMT_CACHE_USED : Nat := 0x460106
/-- R176. -/
def RMT_BUSY_SENT : Nat := 0x460107
/-- R176. -/
def RMT_PARKED : Nat := 0x460108
/-- R176. -/
def RMT_POOL_FREE : Nat := 0x460109
/-- R176. -/
def RMT_FAILED : Nat := 0x46010A
/-- R201. -/
def XLT_SERVICE_TIMEOUT : Nat := 0x501001
/-- R201. -/
def XLT_ACC_FLUSH : Nat := 0x501002
/-- R201. -/
def XLT_MISSES : Nat := 0x501101
/-- R201. -/
def XLT_FAULTS : Nat := 0x501102
/-- R201. -/
def XLT_INV_LATE : Nat := 0x501103
/-- R201. -/
def XLT_STALE_ANSWERS : Nat := 0x501104
/-- R202. -/
def XLT_PT_ROOT : Nat := 0x540001
/-- R202. -/
def XLT_ACC_BASE : Nat := 0x540002
/-- R202. -/
def XLT_ACC_COUNT : Nat := 0x540003
/-- R202. -/
def XLT_CTX_FAULTS : Nat := 0x540004
/-- R238. -/
def SPAD_CORRECTED : Nat := 0x502101
/-- R238. -/
def SPAD_UNCORRECTABLE : Nat := 0x502102
/-- R238. -/
def CTX_JOB_SEED : Nat := 0x550001
/-- R273. -/
def SPAD_UNWRITTEN_READS : Nat := 0x560001
/-- R273. -/
def SPAD_UNWRITTEN_FIRST : Nat := 0x560002
/-- R273. -/
def FAR_WRITEBACKS : Nat := 0x560003
/-- R273. -/
def FAR_DISCARDED : Nat := 0x560004
/-- R273. -/
def DIR_PRIORITY0 : Nat := 0x568001
/-- R273. -/
def DIR_PRIORITY1 : Nat := 0x568002
/-- R273. -/
def DIR_PRIORITY2 : Nat := 0x568003
/-- R273. -/
def DIR_PRIORITY3 : Nat := 0x568004
/-- R273. -/
def DIR_PRIORITY4 : Nat := 0x568005
/-- R273. -/
def DIR_PRIORITY5 : Nat := 0x568006
/-- R273. -/
def DIR_PRIORITY6 : Nat := 0x568007
/-- R273. -/
def DIR_PRIORITY7 : Nat := 0x568008
/-- R273. -/
def MEM_FOREIGN_COUNTS : Nat := 0x568009
/-- R273. -/
def DIR_RECALLS : Nat := 0x56800A
/-- R273. -/
def MEM_ZERO_START : Nat := 0x570001
/-- R273. -/
def MEM_ZERO_PAGES_M1 : Nat := 0x570002
/-- R273. -/
def MEM_ZERO_GO : Nat := 0x570003
/-- R273. -/
def MEM_ZERO_STATE : Nat := 0x570004
/-- R273. -/
def MEM_ZERO_FAULT : Nat := 0x570005
/-- R293. -/
def IMG_PUSH_SRC : Nat := 0x528001
/-- R293. -/
def IMG_PUSH_LEN : Nat := 0x528002
/-- R293. -/
def IMG_PUSH_DEST : Nat := 0x528003
/-- R293. -/
def IMG_PUSH_GO : Nat := 0x528004
/-- R293. -/
def IMG_PUSH_STATE : Nat := 0x528005
/-- R293. -/
def IMG_PUSH_STATUS : Nat := 0x528006
/-- R296. -/
def CTX_STATE : Nat := 0x510001
/-- R296. -/
def CTX_OPEN : Nat := 0x510002
/-- R296. -/
def CTX_CLOSE : Nat := 0x510003
/-- R296. -/
def CTX_RESUME : Nat := 0x510004
/-- R296. -/
def CTX_CORES : Nat := 0x510005
/-- R296. -/
def CTX_SPAD : Nat := 0x510006
/-- R296. -/
def CTX_SEM_BASE : Nat := 0x510007
/-- R296. -/
def CTX_SEM_COUNT : Nat := 0x510008
/-- R296. -/
def CTX_CNT_BASE : Nat := 0x510009
/-- R296. -/
def CTX_CNT_COUNT : Nat := 0x51000A
/-- R296. -/
def CTX_TRACKER_GRANT : Nat := 0x51000B
/-- R296. -/
def CTX_TASK_SLOTS : Nat := 0x51000C
/-- R296. -/
def CTX_RING_BASE : Nat := 0x51000D
/-- R296. -/
def CTX_RING_SIZE_LOG2 : Nat := 0x51000E
/-- R296. -/
def CTX_RING_HEAD : Nat := 0x51000F
/-- R296. -/
def CTX_OPEN_ERROR : Nat := 0x510010
/-- R296. -/
def CTX_VECTOR : Nat := 0x510011
/-- R296. -/
def CTX_GENERATION : Nat := 0x510012
/-- R296. -/
def CTX_DOORBELL_ERRORS : Nat := 0x510013
/-- R297. -/
def CTX_IMAGE_STAGE : Nat := 0x520001
/-- R297. -/
def CTX_IMAGE_HOME_A : Nat := 0x520002
/-- R297. -/
def CTX_IMAGE_HOME_B : Nat := 0x520003
/-- R297. -/
def CTX_IMAGE_LOAD : Nat := 0x520004
/-- R297. -/
def CTX_IMAGE_STATE : Nat := 0x520005
/-- R297. -/
def CTX_IMAGE_ERROR : Nat := 0x520006
/-- R297. -/
def CTX_IMAGE_SERIAL : Nat := 0x520007
/-- R297. -/
def CTX_TRIG_DECL : Nat := 0x520008
/-- R297. -/
def CTX_IMAGE_INBAND : Nat := 0x520009
/-- R337. -/
def COLL_TIMEOUT : Nat := 0x580001
/-- R337. -/
def COLL_NOTICE_REPEAT : Nat := 0x580002
/-- R338. -/
def COLL_STARTED : Nat := 0x580101
/-- R338. -/
def COLL_ABORTS : Nat := 0x580102
/-- R338. -/
def COLL_STALE : Nat := 0x580103
/-- R338. -/
def COLL_EARLY_DROPPED : Nat := 0x580104
/-- R338. -/
def COLL_CHECK_FAILS : Nat := 0x580105
/-- R338. -/
def COLL_STORE_WAITS : Nat := 0x580106
/-- R339. -/
def COLL_LAST_CAUSE : Nat := 0x590001
/-- R339. -/
def COLL_LAST_RANK : Nat := 0x590002
/-- R339. -/
def COLL_LAST_GROUP : Nat := 0x590003
/-- R339. -/
def COLL_RUNNING : Nat := 0x590004
/-- R363. -/
def ATT_ENABLE : Nat := 0x5A0001
/-- R363. -/
def ATT_CORES : Nat := 0x5A0002
/-- R363. -/
def ATT_SPAD : Nat := 0x5A0003
/-- R363. -/
def ATT_QUEUE_BASE : Nat := 0x5A0004
/-- R363. -/
def ATT_SLOTS : Nat := 0x5A0005
/-- R363. -/
def ATT_PAIRING : Nat := 0x5A0006
/-- R363. -/
def ATT_BUSY_SLOTS : Nat := 0x5A0007
/-- R364. -/
def ATT_RESULT_TIMEOUT : Nat := 0x5A4001
/-- R364. -/
def ATT_ASSEMBLY_TIMEOUT : Nat := 0x5A4002
/-- R364. -/
def ATT_HOLD : Nat := 0x5A4003
/-- R364. -/
def ATT_SERVED : Nat := 0x5A4101
/-- R364. -/
def ATT_PAIRED : Nat := 0x5A4102
/-- R364. -/
def ATT_BUSY_SENT : Nat := 0x5A4103
/-- R364. -/
def ATT_EXPIRED : Nat := 0x5A4104
/-- R364. -/
def ATT_RESENDS : Nat := 0x5A4105
/-- R393. -/
def LDG_TAG_ENABLE : Nat := 0x900001
/-- R393. -/
def LDG_UNTAGGED : Nat := 0x900002
/-- R393. -/
def LDG_MISMATCH : Nat := 0x900003
/-- R394. -/
def LDG_ENABLE : Nat := 0x910001
/-- R394. -/
def LDG_BASE : Nat := 0x910002
/-- R394. -/
def LDG_SIZE_LOG2 : Nat := 0x910003
/-- R394. -/
def LDG_MODE : Nat := 0x910004
/-- R394. -/
def LDG_PRODUCER : Nat := 0x910005
/-- R394. -/
def LDG_CONSUMER : Nat := 0x910006
/-- R394. -/
def LDG_DROPPED : Nat := 0x910007
/-- R394. -/
def LDG_STATE : Nat := 0x910008
/-- R395. -/
def CAP_TENSOR_ID : Nat := 0x920001
/-- R395. -/
def CAP_STEP_FIRST : Nat := 0x920002
/-- R395. -/
def CAP_STEP_LAST : Nat := 0x920003
/-- R395. -/
def CAP_CHUNK_FIRST : Nat := 0x920004
/-- R395. -/
def CAP_CHUNK_COUNT : Nat := 0x920005
/-- R395. -/
def CAP_BASE : Nat := 0x920006
/-- R395. -/
def CAP_SIZE : Nat := 0x920007
/-- R395. -/
def CAP_ARM : Nat := 0x920008
/-- R395. -/
def CAP_USED : Nat := 0x920009
/-- R395. -/
def CAP_RECORDS : Nat := 0x92000A
/-- R395. -/
def CAP_MISSED : Nat := 0x92000B
/-- R423. -/
def HIER_RACK : Nat := 0x470001
/-- R423. -/
def HIER_SLOT : Nat := 0x470002
/-- R423. -/
def HIER_CADENCE_ROLE : Nat := 0x470003
/-- R423. -/
def HIER_CADENCE_PARENT : Nat := 0x470004
/-- R423. -/
def HIER_CADENCE_SET : Nat := 0x470005
/-- R423. -/
def HIER_CADENCE_PERIOD : Nat := 0x470006
/-- R423. -/
def HIER_CADENCE_VALID : Nat := 0x470007
/-- R423. -/
def HIER_CADENCE_NOW : Nat := 0x470008
/-- R423. -/
def HIER_CADENCE_OFFSET : Nat := 0x470009
/-- R423. -/
def HIER_CADENCE_RATE : Nat := 0x47000A
/-- R423. -/
def HIER_CADENCE_ALT : Nat := 0x47000B
/-- R423. -/
def HIER_BCAST_LEAD : Nat := 0x47000C
/-- R424. -/
def HIER_CADENCE_STEPS : Nat := 0x470101
/-- R424. -/
def HIER_PULSE_REJECTED : Nat := 0x470102
/-- R424. -/
def HIER_LATE_BCAST : Nat := 0x470103
/-- R424. -/
def HIER_SNAP_UNRECORDED : Nat := 0x470104
/-- R424. -/
def HIER_BCAST_REFUSED : Nat := 0x470105
/-- R425. -/
def JOB_ROLE : Nat := 0x480001
/-- R425. -/
def JOB_STEP : Nat := 0x480002
/-- R425. -/
def JOB_TREE_BASE : Nat := 0x480003
/-- R425. -/
def BAR_IN_SEM : Nat := 0x480004
/-- R425. -/
def BAR_STEP_SEM : Nat := 0x480005
/-- R425. -/
def BAR_IN_THR : Nat := 0x480006
/-- R425. -/
def BAR_OUT_SEM : Nat := 0x480007
/-- R425. -/
def BAR_COUNT : Nat := 0x480008
/-- R425. -/
def BAR_STATE : Nat := 0x480009
/-- R425. -/
def BAR_TIMEOUT : Nat := 0x48000A
/-- R425. -/
def JOB_MGR_EPOCH : Nat := 0x48000B
/-- R425. -/
def JOB_TAKEOVER_TIMEOUT : Nat := 0x48000C
/-- R425. -/
def JOB_SNAP_BASE : Nat := 0x48000D
/-- R425. -/
def JOB_SNAPSHOT : Nat := 0x48000E
/-- R425. -/
def JOB_RESET : Nat := 0x48000F
/-- R425. -/
def JOB_SNAP_SLOTS : Nat := 0x480010
/-- R425. -/
def JOB_MGR_CHIP : Nat := 0x480011
/-- R464. -/
def FLT_ESCALATION_TIMEOUT : Nat := 0x600001
/-- R464. -/
def HANG_WINDOW : Nat := 0x600002
/-- R464. -/
def HANG_RECUR : Nat := 0x600003
/-- R464. -/
def RST_CTX_LIMIT : Nat := 0x600004
/-- R464. -/
def RST_ENGINE_LIMIT : Nat := 0x600005
/-- R464. -/
def RST_PARTITION_LIMIT : Nat := 0x600006
/-- R464. -/
def FLT_LADDER_MAX : Nat := 0x600007
/-- R464. -/
def FLT_PCYC_AUTO : Nat := 0x600008
/-- R464. -/
def FLT_EVENT_MIN_CLASS : Nat := 0x600009
/-- R464. -/
def FLT_HCP_COPY : Nat := 0x60000A
/-- R464. -/
def FLT_KICK_LINK : Nat := 0x60000B
/-- R464. -/
def FLT_SUMMARY : Nat := 0x60000C
/-- R464. -/
def FLT_STICKY : Nat := 0x60000D
/-- R464. -/
def FLT_STICKY_CLEAR : Nat := 0x60000E
/-- R464. -/
def FLT_CLEAR_ALL : Nat := 0x60000F
/-- R464. -/
def FLT_BLOCK_RESET : Nat := 0x600010
/-- R464. -/
def FLT_KICKSTAND : Nat := 0x600011
/-- R464. -/
def FLT_KICK_EXIT : Nat := 0x600012
/-- R464. -/
def FLT_PCYC_REQUEST : Nat := 0x600013
/-- R464. -/
def DBG_BASE : Nat := 0x600014
/-- R464. -/
def DBG_SLOTS : Nat := 0x600015
/-- R464. -/
def DBG_NEXT : Nat := 0x600016
/-- R464. -/
def FLT_EVT_LOST : Nat := 0x600017
/-- R464. -/
def RST_SAMPLE_LIMIT : Nat := 0x600018
/-- R465. -/
def FLT_EVT_COUNT : Nat := 0x601001
/-- R465. -/
def FLT_EVT_HEAD : Nat := 0x601002
/-- R465. -/
def FLT_EVT_POP : Nat := 0x601003
/-- R466. -/
def SRC_CLASS : Nat := 0x610001
/-- R466. -/
def SRC_PROMOTE_N : Nat := 0x610002
/-- R466. -/
def SRC_PROMOTE_WINDOW : Nat := 0x610003
/-- R466. -/
def SRC_EVENTS : Nat := 0x610004
/-- R466. -/
def SRC_UNCLEARED : Nat := 0x610005
/-- R466. -/
def SRC_CLEAR : Nat := 0x610006
/-- R466. -/
def SRC_ACTION : Nat := 0x610007
/-- R467. -/
def RST_CTX : Nat := 0x620001
/-- R467. -/
def RST_CTX_CAUSE : Nat := 0x620002
/-- R467. -/
def RST_CTX_COUNT : Nat := 0x620003
/-- R467. -/
def RST_SUSPECT : Nat := 0x620004
/-- R467. -/
def CORE_EPOCH : Nat := 0x630001
/-- R467. -/
def CORE_PROBATION : Nat := 0x630002
/-- R467. -/
def CORE_ENG_RESETS : Nat := 0x630003
/-- R480. -/
def PWR_BUDGET : Nat := 0x800001
/-- R480. -/
def PWR_BUDGET_LIMIT : Nat := 0x800002
/-- R480. -/
def PWR_HYST : Nat := 0x800003
/-- R480. -/
def PWR_MODEL_SCALE : Nat := 0x800004
/-- R480. -/
def PWR_LANE_MW : Nat := 0x800005
/-- R480. -/
def PWR_WAKE_RATE : Nat := 0x800006
/-- R480. -/
def PWR_RAMP_MAX : Nat := 0x800007
/-- R480. -/
def PWR_SLEEP_DELAY : Nat := 0x800008
/-- R480. -/
def PWR_MM_GATE_DELAY : Nat := 0x800009
/-- R480. -/
def PWR_ALERT_BUDGET : Nat := 0x80000A
/-- R480. -/
def PWR_FORECAST_STEP : Nat := 0x80000B
/-- R480. -/
def PWR_VID : Nat := 0x80000C
/-- R481. -/
def PWR_ESTIMATE : Nat := 0x800101
/-- R481. -/
def PWR_THROTTLED : Nat := 0x800102
/-- R481. -/
def PWR_WAKE_QUEUED : Nat := 0x800103
/-- R481. -/
def PWR_WAKES : Nat := 0x800104
/-- R481. -/
def PWR_ALERT_ACTIVE : Nat := 0x800105
/-- R481. -/
def PWR_OVER_INTERVALS : Nat := 0x800106
/-- R482. -/
def PWR_CORE_CAP : Nat := 0x810001
/-- R482. -/
def PWR_CORE_LEVEL : Nat := 0x810002
/-- R482. -/
def PWR_CORE_STATE : Nat := 0x810003
/-- R502. -/
def ID_BLOCK_VERSION : Nat := 0x100001
/-- R502. -/
def ID_PART : Nat := 0x100002
/-- R502. -/
def ID_VER_WIRE : Nat := 0x100003
/-- R502. -/
def ID_VER_WIRE_ALT : Nat := 0x100004
/-- R502. -/
def ID_VER_TXN : Nat := 0x100005
/-- R502. -/
def ID_VER_COLL : Nat := 0x100006
/-- R502. -/
def ID_VER_ONTAN : Nat := 0x100007
/-- R502. -/
def ID_VER_IMAGE : Nat := 0x100008
/-- R502. -/
def ID_VER_LEDGER : Nat := 0x100009
/-- R503. -/
def BLK_STATE : Nat := 0x101001
/-- R503. -/
def BLK_READY : Nat := 0x101002
/-- R503. -/
def BLK_RUN : Nat := 0x101003
/-- R503. -/
def BLK_DRAIN : Nat := 0x101004
/-- R503. -/
def BLK_CONFIGURE : Nat := 0x101005
/-- R503. -/
def BLK_DRAIN_TIMEOUT : Nat := 0x101006
/-- R503. -/
def BLK_QUARANTINE_EXIT : Nat := 0x101007
/-- R504. -/
def ONT_EVENT_CARRIER : Nat := 0x102001
/-- R504. -/
def ONT_EVENT_REPEAT : Nat := 0x102002
/-- R504. -/
def ONT_RELAY : Nat := 0x102003
/-- R504. -/
def ONT_EVENT_DEST : Nat := 0x102004
/-- R504. -/
def ONT_RELAYED : Nat := 0x102005
/-- R504. -/
def ONT_BAD_FRAMES : Nat := 0x102006
/-- R504. -/
def MGP_FOREIGN_FRAMES : Nat := 0x102007
/-- R505. -/
def BUILD_CORES : Nat := 0x200001
/-- R505. -/
def BUILD_LINKS : Nat := 0x200002
/-- R505. -/
def BUILD_PORTS : Nat := 0x200003
/-- R505. -/
def BUILD_HCP_IRQ_MODE : Nat := 0x200004
/-- R505. -/
def BUILD_MII : Nat := 0x200005
/-- R505. -/
def BUILD_I3C : Nat := 0x200006
/-- R505. -/
def BUILD_1687_SCOPE : Nat := 0x200007
/-- R505. -/
def BUILD_MFR_ID : Nat := 0x200008
/-- R505. -/
def BUILD_I3C_MIPI_ID : Nat := 0x200009
/-- R506. -/
def GMP_PORT_ENABLE : Nat := 0x210001
/-- R506. -/
def GMP_STALL_TIMEOUT : Nat := 0x210002
/-- R506. -/
def GMP_RETIRE_LIMIT : Nat := 0x210003
/-- R506. -/
def CLK_FAULT_BLOCK : Nat := 0x210004
/-- R506. -/
def CLK_FAULT_LINKS : Nat := 0x210005
/-- R506. -/
def CLK_FAULT_PORTS : Nat := 0x210006
/-- R506. -/
def HCP_IRQ_MODE : Nat := 0x210007
/-- R506. -/
def MGP_I3C_SADDR : Nat := 0x210008
/-- R506. -/
def MGP_MAC : Nat := 0x210009
/-- R507. -/
def SEC_IMAGE_KEY0 : Nat := 0xA00001
/-- R507. -/
def SEC_IMAGE_KEY1 : Nat := 0xA00002
/-- R507. -/
def SEC_IMAGE_KEY2 : Nat := 0xA00003
/-- R507. -/
def SEC_IMAGE_KEY3 : Nat := 0xA00004
/-- R507. -/
def SEC_IMAGE_REVOKED : Nat := 0xA00005
/-- R507. -/
def SEC_REVOKE : Nat := 0xA00006
/-- R507. -/
def SEC_SERVICE_KEY0 : Nat := 0xA00007
/-- R507. -/
def SEC_SERVICE_KEY1 : Nat := 0xA00008
/-- R507. -/
def SEC_CHALLENGE : Nat := 0xA00009
/-- R507. -/
def SEC_UNLOCK : Nat := 0xA0000A
/-- R507. -/
def SEC_LOCK : Nat := 0xA0000B
/-- R507. -/
def SEC_SESSION : Nat := 0xA0000C
/-- R507. -/
def SEC_1687_UNLOCK : Nat := 0xA0000D
/-- R507. -/
def SEC_UNLOCK_FAILS : Nat := 0xA0000E
/-- R510. -/
def OBS_MM_BUSY : Nat := 0x701001
/-- R510. -/
def OBS_VEC_BUSY : Nat := 0x701002
/-- R510. -/
def OBS_CC_RETIRED : Nat := 0x701003
/-- R510. -/
def OBS_DMA_BUSY : Nat := 0x701004
/-- R510. -/
def OBS_RED_BUSY : Nat := 0x701005
/-- R510. -/
def OBS_LINK_BAD : Nat := 0x701006
/-- R510. -/
def OBS_LINK_REPLAYS : Nat := 0x701007
/-- R510. -/
def OBS_RMT_REISSUES : Nat := 0x701008
/-- R510. -/
def OBS_FAULT_EVENTS : Nat := 0x701009
/-- R510. -/
def CTX_MM_BUSY : Nat := 0x710001
/-- R510. -/
def CTX_VEC_BUSY : Nat := 0x710002
/-- R510. -/
def CTX_CC_RETIRED : Nat := 0x710003
/-- R510. -/
def CTX_DMA_BUSY : Nat := 0x710004
/-- R510. -/
def CTX_TASKS_ENDED : Nat := 0x710005
/-- R520. -/
def TRC_BASE : Nat := 0x700001
/-- R520. -/
def TRC_SIZE_LOG2 : Nat := 0x700002
/-- R520. -/
def TRC_ENABLE : Nat := 0x700003
/-- R520. -/
def TRC_CTX_MASK : Nat := 0x700004
/-- R520. -/
def TRC_PC_PERIOD_LOG2 : Nat := 0x700005
/-- R520. -/
def TRC_PRODUCER : Nat := 0x700006
/-- R520. -/
def TRC_LOST : Nat := 0x700007
/-- R520. -/
def OBS_HIST_PERIOD : Nat := 0x700008
/-- R520. -/
def OBS_CLEAR : Nat := 0x700009
/-- R520. -/
def DBG_VECTOR : Nat := 0x70000A
/-- R520. -/
def DBG_HALT : Nat := 0x720005
/-- R520. -/
def DBG_RESUME : Nat := 0x720006
/-- R520. -/
def DBG_STEP : Nat := 0x720007
/-- R520. -/
def DBG_STATE : Nat := 0x720008
/-- R520. -/
def DBG_PC : Nat := 0x720009
/-- R520. -/
def DBG_REGS : Nat := 0x72000A
/-- R517. -/
def DBG_BKPT0 : Nat := 0x720001
/-- R517. -/
def DBG_BKPT1 : Nat := 0x720002
/-- R517. -/
def DBG_BKPT2 : Nat := 0x720003
/-- R517. -/
def DBG_BKPT3 : Nat := 0x720004
/-- R511. -/
def OBS_HIST_BIN0 : Nat := 0x740001
/-- R511. -/
def OBS_HIST_BIN1 : Nat := 0x740002
/-- R511. -/
def OBS_HIST_BIN2 : Nat := 0x740003
/-- R511. -/
def OBS_HIST_BIN3 : Nat := 0x740004
/-- R511. -/
def OBS_HIST_BIN4 : Nat := 0x740005
/-- R511. -/
def OBS_HIST_BIN5 : Nat := 0x740006
/-- R511. -/
def OBS_HIST_BIN6 : Nat := 0x740007
/-- R511. -/
def OBS_HIST_BIN7 : Nat := 0x740008
/-- R511. -/
def OBS_HIST_BIN8 : Nat := 0x740009
/-- R511. -/
def OBS_HIST_BIN9 : Nat := 0x74000A
/-- R511. -/
def OBS_HIST_BIN10 : Nat := 0x74000B
/-- R511. -/
def OBS_HIST_BIN11 : Nat := 0x74000C
/-- R511. -/
def OBS_HIST_BIN12 : Nat := 0x74000D
/-- R511. -/
def OBS_HIST_BIN13 : Nat := 0x74000E
/-- R511. -/
def OBS_HIST_BIN14 : Nat := 0x74000F
/-- R511. -/
def OBS_HIST_BIN15 : Nat := 0x740010
end Reg

/-- Entries of the dictionary, part 0. -/
def entries0 : List Entry := [
  ⟨Reg.GMP_LATE_BEATS, .port, .u32, .ro, .operator, 0, .any⟩,
  ⟨Reg.GMP_RETIRED, .port, .u16, .ro, .operator, 0, .any⟩,
  ⟨Reg.GMP_POISON_RSP, .port, .u32, .ro, .operator, 0, .any⟩,
  ⟨Reg.GMP_ADDR_ERR, .port, .u32, .ro, .operator, 0, .any⟩,
  ⟨Reg.LINK_PAUSE_TIMEOUT, .one, .time64, .rw, .operator, 2000000, .range 100000 1000000000⟩,
  ⟨Reg.LINK_ERR_WINDOW_LOG2, .one, .u8, .rw, .operator, 24, .range 16 30⟩,
  ⟨Reg.LINK_ERR_THRESHOLD, .one, .u16, .rw, .operator, 256, .any⟩,
  ⟨Reg.LINK_FREEWHEEL, .one, .time64, .rw, .operator, 20000000, .range 0 1000000000⟩,
  ⟨Reg.LINK_ACK_COUNT, .one, .u8, .rw, .operator, 32, .range 1 64⟩,
  ⟨Reg.LINK_ACK_TIMER, .one, .time64, .rw, .operator, 150, .range 20 1000⟩,
  ⟨Reg.LINK_REPLAY_TIMEOUT, .one, .time64, .rw, .operator, 3000, .range 1000 100000⟩,
  ⟨Reg.LINK_REPLAY_LIMIT, .one, .u8, .rw, .operator, 8, .range 1 32⟩,
  ⟨Reg.LINK_XOFF_LEVEL, .one, .u32, .rw, .operator, 294912, .range 65536 327680⟩,
  ⟨Reg.LINK_XON_LEVEL, .one, .u32, .rw, .operator, 196608, .any⟩,
  ⟨Reg.LINK_CAPS_MASK, .one, .u16, .rw, .service, 31, .any⟩,
  ⟨Reg.LINK_DETECT_TIMEOUT, .one, .time64, .rw, .operator, 10000000, .range 1000000 1000000000⟩,
  ⟨Reg.LINK_LANE_ERR_THRESHOLD, .one, .u16, .rw, .operator, 64, .any⟩,
  ⟨Reg.LINK_TRAIN_RETRIES, .one, .u8, .rw, .operator, 16, .any⟩,
  ⟨Reg.LINK_STATE, .link, .enum, .ro, .tenant, 0, .any⟩,
  ⟨Reg.LINK_VERSION, .link, .u16, .ro, .tenant, 0, .any⟩,
  ⟨Reg.LINK_CAPS, .link, .u16, .ro, .tenant, 0, .any⟩,
  ⟨Reg.LINK_LANE_MAP, .link, .u16, .ro, .operator, 136, .any⟩,
  ⟨Reg.LINK_BAD_UNITS, .link, .u32, .ro, .operator, 0, .any⟩,
  ⟨Reg.LINK_REPLAYS, .link, .u32, .ro, .operator, 0, .any⟩,
  ⟨Reg.LINK_PKT_DROPS, .link, .u32, .ro, .operator, 0, .any⟩,
  ⟨Reg.LINK_DOWN_EVENTS, .link, .u32, .ro, .operator, 0, .any⟩,
  ⟨Reg.LINK_FLUSHES, .link, .u32, .ro, .operator, 0, .any⟩,
  ⟨Reg.LINK_PARTNER, .link, .u32, .ro, .operator, 0, .any⟩,
  ⟨Reg.LINK_ENABLE, .link, .bool, .rw, .operator, 1, .range 0 1⟩,
  ⟨Reg.LINK_RETRAIN, .link, .cmd, .cmd, .operator, 0, .any⟩,
  ⟨Reg.LINK_DUP_UNITS, .link, .u32, .ro, .operator, 0, .any⟩,
  ⟨Reg.LINK_OVERFLOWS, .link, .u32, .ro, .operator, 0, .any⟩,
  ⟨Reg.LINK_EPOCH, .link, .u16, .ro, .operator, 0, .any⟩,
  ⟨Reg.LINK_DOWN_CAUSE, .link, .enum, .ro, .operator, 0, .any⟩,
  ⟨Reg.LINK_TRAIN_STAGE, .link, .enum, .ro, .operator, 0, .any⟩,
  ⟨Reg.ROUTE_OWN_CHIP, .one, .u16, .rwc, .operator, 65535, .special⟩,
  ⟨Reg.PKT_STALL_LIMIT, .one, .time64, .rw, .operator, 200000, .range 10000 10000000⟩,
  ⟨Reg.INJ_SOFT_LEVEL, .one, .u16, .rw, .operator, 192, .special⟩,
  ⟨Reg.INJ_HARD_LEVEL, .one, .u16, .rw, .operator, 384, .special⟩,
  ⟨Reg.TLM_RATE_LOG2, .one, .u8, .rw, .operator, 0, .zeroOr 4 24⟩]

/-- Entries of the dictionary, part 1. -/
def entries1 : List Entry := [
  ⟨Reg.TLM_RING_BASE, .one, .u64, .rw, .operator, 0, .off 64⟩,
  ⟨Reg.TLM_RING_RECORDS, .one, .u32, .rw, .operator, 0, .any⟩,
  ⟨Reg.TLM_PRODUCER, .one, .u32, .ro, .operator, 0, .any⟩,
  ⟨Reg.TLM_DROPPED, .one, .u32, .ro, .operator, 0, .any⟩,
  ⟨Reg.ROUTE_LOAD_BASE, .one, .u64, .rw, .operator, 0, .off 4096⟩,
  ⟨Reg.ROUTE_LOAD, .one, .anyBytes, .cmd, .operator, 0, .any⟩,
  ⟨Reg.ROUTE_DRAIN_UPDATE, .one, .bytes 10, .cmd, .operator, 0, .any⟩,
  ⟨Reg.ROUTE_DRAIN_TIMEOUT, .one, .time64, .rw, .operator, 10000000, .range 100000 1000000000⟩,
  ⟨Reg.ROUTE_CMD_STATUS, .one, .enum, .ro, .operator, 0, .any⟩,
  ⟨Reg.DROP_MALFORMED, .one, .u32, .ro, .operator, 0, .any⟩,
  ⟨Reg.DROP_JOB, .one, .u32, .ro, .operator, 0, .any⟩,
  ⟨Reg.DROP_NOT_FOR_ME, .one, .u32, .ro, .operator, 0, .any⟩,
  ⟨Reg.DROP_TORN_SHORT, .one, .u32, .ro, .operator, 0, .any⟩,
  ⟨Reg.DROP_TORN, .one, .u32, .ro, .operator, 0, .any⟩,
  ⟨Reg.DROP_CHECK, .one, .u32, .ro, .operator, 0, .any⟩,
  ⟨Reg.CTX_JOB_ID, .ctx, .u16, .rw, .operator, 4095, .special⟩,
  ⟨Reg.CTX_RANK_BASE, .ctx, .u64, .rw, .operator, 0, .off 4096⟩,
  ⟨Reg.CTX_RANK_COUNT, .ctx, .u32, .rw, .operator, 0, .any⟩,
  ⟨Reg.CTX_OWN_RANK, .ctx, .u16, .rw, .operator, 0, .any⟩,
  ⟨Reg.CTX_PORT_ADMIT, .ctx, .u64, .rw, .operator, 0, .any⟩,
  ⟨Reg.CTX_ORDERED, .ctx, .bool, .rw, .tenant, 0, .range 0 1⟩,
  ⟨Reg.CTX_ROUTE_BIND, .ctx, .anyBytes, .cmd, .operator, 0, .any⟩,
  ⟨Reg.CTX_ROUTE_STATE, .ctx, .enum, .ro, .tenant, 0, .any⟩,
  ⟨Reg.CTX_BIND_ERROR, .ctx, .u32, .ro, .operator, 0, .any⟩,
  ⟨Reg.LPORT_LINKS, .lport, .u64, .rw, .operator, 0, .special⟩,
  ⟨Reg.LPORT_CAPS, .lport, .u16, .ro, .tenant, 0, .any⟩,
  ⟨Reg.LPORT_ACTIVE, .lport, .u64, .ro, .tenant, 0, .any⟩,
  ⟨Reg.RMT_REQ_TIMEOUT, .one, .time64, .rw, .operator, 50000, .range 5000 10000000⟩,
  ⟨Reg.RMT_RETRY_LIMIT, .one, .u8, .rw, .operator, 7, .range 0 31⟩,
  ⟨Reg.RMT_BUSY_LIMIT, .one, .u8, .rw, .operator, 64, .range 1 255⟩,
  ⟨Reg.RMT_BACKOFF_MAX, .one, .time64, .rw, .operator, 64000, .range 1000 1000000⟩,
  ⟨Reg.RMT_PARK_LIMIT, .one, .time64, .rw, .operator, 50000000, .range 1000000 1000000000⟩,
  ⟨Reg.RMT_TAG_QUARANTINE, .one, .time64, .rw, .operator, 100000000, .range 10000000 1000000000⟩,
  ⟨Reg.RMT_CACHE_HOLD, .one, .time64, .rw, .operator, 200000000, .special⟩,
  ⟨Reg.RMT_WIN_REQ_SIZE, .one, .u16, .rw, .operator, 64, .range 1 1024⟩,
  ⟨Reg.RMT_BASE_RESERVE, .one, .u32, .rw, .operator, 4096, .range 256 32768⟩,
  ⟨Reg.RMT_WIN_LEASE, .one, .time64, .rw, .operator, 1000000, .range 100000 100000000⟩,
  ⟨Reg.RMT_CMPL_COALESCE, .one, .time64, .rw, .operator, 500, .range 0 5000⟩,
  ⟨Reg.RMT_RELEASE_DELAY, .one, .time64, .rw, .operator, 2000, .range 500 50000⟩,
  ⟨Reg.RMT_DMA_TXN, .one, .u16, .rw, .tenant, 16, .range 1 256⟩]

/-- Entries of the dictionary, part 2. -/
def entries2 : List Entry := [
  ⟨Reg.RMT_TRACKER_USED, .one, .u32, .ro, .operator, 0, .any⟩,
  ⟨Reg.RMT_TIMEOUT_REISSUES, .one, .u32, .ro, .operator, 0, .any⟩,
  ⟨Reg.RMT_NEG_REISSUES, .one, .u32, .ro, .operator, 0, .any⟩,
  ⟨Reg.RMT_STALE_RSP, .one, .u32, .ro, .operator, 0, .any⟩,
  ⟨Reg.RMT_CACHE_HITS, .one, .u32, .ro, .operator, 0, .any⟩,
  ⟨Reg.RMT_CACHE_USED, .one, .u32, .ro, .operator, 0, .any⟩,
  ⟨Reg.RMT_BUSY_SENT, .one, .u32, .ro, .operator, 0, .any⟩,
  ⟨Reg.RMT_PARKED, .one, .u32, .ro, .operator, 0, .any⟩,
  ⟨Reg.RMT_POOL_FREE, .one, .u32, .ro, .operator, 65536, .any⟩,
  ⟨Reg.RMT_FAILED, .one, .u32, .ro, .operator, 0, .any⟩,
  ⟨Reg.XLT_SERVICE_TIMEOUT, .one, .time64, .rw, .operator, 40000000, .range 1000000 1000000000⟩,
  ⟨Reg.XLT_ACC_FLUSH, .one, .time64, .rw, .operator, 1000000, .range 10000 100000000⟩,
  ⟨Reg.XLT_MISSES, .one, .u32, .ro, .operator, 0, .any⟩,
  ⟨Reg.XLT_FAULTS, .one, .u32, .ro, .operator, 0, .any⟩,
  ⟨Reg.XLT_INV_LATE, .one, .u32, .ro, .operator, 0, .any⟩,
  ⟨Reg.XLT_STALE_ANSWERS, .one, .u32, .ro, .operator, 0, .any⟩,
  ⟨Reg.XLT_PT_ROOT, .ctx, .u64, .rw, .operator, 0, .off 4096⟩,
  ⟨Reg.XLT_ACC_BASE, .ctx, .u64, .rw, .operator, 0, .off 8⟩,
  ⟨Reg.XLT_ACC_COUNT, .ctx, .u32, .rw, .operator, 0, .range 0 1048576⟩,
  ⟨Reg.XLT_CTX_FAULTS, .ctx, .u32, .ro, .tenant, 0, .any⟩,
  ⟨Reg.SPAD_CORRECTED, .one, .u32, .ro, .operator, 0, .any⟩,
  ⟨Reg.SPAD_UNCORRECTABLE, .one, .u32, .ro, .operator, 0, .any⟩,
  ⟨Reg.CTX_JOB_SEED, .ctx, .u64, .rw, .tenant, 0, .any⟩,
  ⟨Reg.SPAD_UNWRITTEN_READS, .core, .u32, .ro, .tenant, 0, .any⟩,
  ⟨Reg.SPAD_UNWRITTEN_FIRST, .core, .u32, .rw, .tenant, 0, .range 0 0⟩,
  ⟨Reg.FAR_WRITEBACKS, .core, .u32, .ro, .operator, 0, .any⟩,
  ⟨Reg.FAR_DISCARDED, .core, .u32, .ro, .operator, 0, .any⟩,
  ⟨Reg.DIR_PRIORITY0, .one, .u8, .rwc, .operator, 0, .range 0 63⟩,
  ⟨Reg.DIR_PRIORITY1, .one, .u8, .rwc, .operator, 0, .range 0 63⟩,
  ⟨Reg.DIR_PRIORITY2, .one, .u8, .rwc, .operator, 0, .range 0 63⟩,
  ⟨Reg.DIR_PRIORITY3, .one, .u8, .rwc, .operator, 0, .range 0 63⟩,
  ⟨Reg.DIR_PRIORITY4, .one, .u8, .rwc, .operator, 0, .range 0 63⟩,
  ⟨Reg.DIR_PRIORITY5, .one, .u8, .rwc, .operator, 0, .range 0 63⟩,
  ⟨Reg.DIR_PRIORITY6, .one, .u8, .rwc, .operator, 0, .range 0 63⟩,
  ⟨Reg.DIR_PRIORITY7, .one, .u8, .rwc, .operator, 0, .range 0 63⟩,
  ⟨Reg.MEM_FOREIGN_COUNTS, .one, .u32, .ro, .operator, 0, .any⟩,
  ⟨Reg.DIR_RECALLS, .one, .u32, .ro, .operator, 0, .any⟩,
  ⟨Reg.MEM_ZERO_START, .ctx, .u64, .rw, .tenant, 0, .ctxOff 65536⟩,
  ⟨Reg.MEM_ZERO_PAGES_M1, .ctx, .u32, .rw, .tenant, 0, .any⟩,
  ⟨Reg.MEM_ZERO_GO, .ctx, .cmd, .cmd, .tenant, 0, .any⟩]

/-- Entries of the dictionary, part 3. -/
def entries3 : List Entry := [
  ⟨Reg.MEM_ZERO_STATE, .ctx, .enum, .ro, .tenant, 0, .any⟩,
  ⟨Reg.MEM_ZERO_FAULT, .ctx, .u64, .ro, .tenant, 0, .any⟩,
  ⟨Reg.IMG_PUSH_SRC, .one, .u64, .rw, .operator, 0, .off 4096⟩,
  ⟨Reg.IMG_PUSH_LEN, .one, .u32, .rw, .operator, 0, .range 256 33554688⟩,
  ⟨Reg.IMG_PUSH_DEST, .one, .u32, .rw, .operator, 0, .any⟩,
  ⟨Reg.IMG_PUSH_GO, .one, .cmd, .cmd, .operator, 0, .any⟩,
  ⟨Reg.IMG_PUSH_STATE, .one, .enum, .ro, .operator, 0, .any⟩,
  ⟨Reg.IMG_PUSH_STATUS, .one, .u8, .ro, .operator, 0, .any⟩,
  ⟨Reg.CTX_STATE, .ctx, .enum, .ro, .tenant, 0, .any⟩,
  ⟨Reg.CTX_OPEN, .ctx, .cmd, .cmd, .operator, 0, .any⟩,
  ⟨Reg.CTX_CLOSE, .ctx, .cmd, .cmd, .operator, 0, .any⟩,
  ⟨Reg.CTX_RESUME, .ctx, .cmd, .cmd, .operator, 0, .any⟩,
  ⟨Reg.CTX_CORES, .ctx, .u64, .rw, .operator, 0, .any⟩,
  ⟨Reg.CTX_SPAD, .ctx, .u16, .rw, .operator, 0, .any⟩,
  ⟨Reg.CTX_SEM_BASE, .ctx, .u32, .rw, .operator, 0, .any⟩,
  ⟨Reg.CTX_SEM_COUNT, .ctx, .u32, .rw, .operator, 0, .any⟩,
  ⟨Reg.CTX_CNT_BASE, .ctx, .u32, .rw, .operator, 0, .any⟩,
  ⟨Reg.CTX_CNT_COUNT, .ctx, .u32, .rw, .operator, 0, .any⟩,
  ⟨Reg.CTX_TRACKER_GRANT, .ctx, .u16, .rw, .operator, 0, .range 0 8192⟩,
  ⟨Reg.CTX_TASK_SLOTS, .ctx, .u16, .rw, .operator, 0, .range 1 4096⟩,
  ⟨Reg.CTX_RING_BASE, .ctx, .u64, .rw, .operator, 0, .off 4096⟩,
  ⟨Reg.CTX_RING_SIZE_LOG2, .ctx, .u8, .rw, .operator, 0, .range 4 16⟩,
  ⟨Reg.CTX_RING_HEAD, .ctx, .u32, .ro, .tenant, 0, .any⟩,
  ⟨Reg.CTX_OPEN_ERROR, .ctx, .u8, .ro, .operator, 0, .any⟩,
  ⟨Reg.CTX_VECTOR, .ctx, .u8, .rw, .operator, 0, .range 0 63⟩,
  ⟨Reg.CTX_GENERATION, .ctx, .u8, .ro, .tenant, 0, .any⟩,
  ⟨Reg.CTX_DOORBELL_ERRORS, .ctx, .u32, .ro, .operator, 0, .any⟩,
  ⟨Reg.CTX_IMAGE_STAGE, .ctx, .u64, .rw, .operator, 0, .off 4096⟩,
  ⟨Reg.CTX_IMAGE_HOME_A, .ctx, .u64, .rw, .operator, 0, .off 4096⟩,
  ⟨Reg.CTX_IMAGE_HOME_B, .ctx, .u64, .rw, .operator, 0, .off 4096⟩,
  ⟨Reg.CTX_IMAGE_LOAD, .ctx, .cmd, .cmd, .operator, 0, .any⟩,
  ⟨Reg.CTX_IMAGE_STATE, .ctx, .enum, .ro, .tenant, 0, .any⟩,
  ⟨Reg.CTX_IMAGE_ERROR, .ctx, .enum, .ro, .operator, 0, .any⟩,
  ⟨Reg.CTX_IMAGE_SERIAL, .ctx, .u32, .ro, .tenant, 0, .any⟩,
  ⟨Reg.CTX_TRIG_DECL, .ctx, .u16, .ro, .tenant, 0, .any⟩,
  ⟨Reg.CTX_IMAGE_INBAND, .ctx, .bool, .rw, .operator, 0, .range 0 1⟩,
  ⟨Reg.COLL_TIMEOUT, .one, .time64, .rw, .operator, 10000000, .range 100000 1000000000⟩,
  ⟨Reg.COLL_NOTICE_REPEAT, .one, .time64, .rw, .operator, 50000, .range 5000 1000000⟩,
  ⟨Reg.COLL_STARTED, .one, .u32, .ro, .operator, 0, .any⟩,
  ⟨Reg.COLL_ABORTS, .one, .u32, .ro, .operator, 0, .any⟩]

/-- Entries of the dictionary, part 4. -/
def entries4 : List Entry := [
  ⟨Reg.COLL_STALE, .one, .u32, .ro, .operator, 0, .any⟩,
  ⟨Reg.COLL_EARLY_DROPPED, .one, .u32, .ro, .operator, 0, .any⟩,
  ⟨Reg.COLL_CHECK_FAILS, .one, .u32, .ro, .operator, 0, .any⟩,
  ⟨Reg.COLL_STORE_WAITS, .one, .u32, .ro, .operator, 0, .any⟩,
  ⟨Reg.COLL_LAST_CAUSE, .ctx, .enum, .ro, .tenant, 0, .any⟩,
  ⟨Reg.COLL_LAST_RANK, .ctx, .u16, .ro, .tenant, 0, .any⟩,
  ⟨Reg.COLL_LAST_GROUP, .ctx, .u16, .ro, .tenant, 0, .any⟩,
  ⟨Reg.COLL_RUNNING, .ctx, .u8, .ro, .tenant, 0, .any⟩,
  ⟨Reg.ATT_ENABLE, .ctx, .bool, .rw, .operator, 0, .range 0 1⟩,
  ⟨Reg.ATT_CORES, .ctx, .u64, .rw, .operator, 0, .any⟩,
  ⟨Reg.ATT_SPAD, .ctx, .u16, .rw, .operator, 0, .any⟩,
  ⟨Reg.ATT_QUEUE_BASE, .ctx, .u64, .rw, .operator, 0, .off 4096⟩,
  ⟨Reg.ATT_SLOTS, .ctx, .u16, .rw, .operator, 0, .range 0 256⟩,
  ⟨Reg.ATT_PAIRING, .ctx, .bool, .rw, .operator, 1, .range 0 1⟩,
  ⟨Reg.ATT_BUSY_SLOTS, .ctx, .u16, .ro, .tenant, 0, .any⟩,
  ⟨Reg.ATT_RESULT_TIMEOUT, .one, .time64, .rw, .operator, 60000000, .range 1000000 1000000000⟩,
  ⟨Reg.ATT_ASSEMBLY_TIMEOUT, .one, .time64, .rw, .operator, 1000000, .range 100000 100000000⟩,
  ⟨Reg.ATT_HOLD, .one, .time64, .rw, .operator, 1000000, .range 100000 100000000⟩,
  ⟨Reg.ATT_SERVED, .one, .u32, .ro, .operator, 0, .any⟩,
  ⟨Reg.ATT_PAIRED, .one, .u32, .ro, .operator, 0, .any⟩,
  ⟨Reg.ATT_BUSY_SENT, .one, .u32, .ro, .operator, 0, .any⟩,
  ⟨Reg.ATT_EXPIRED, .one, .u32, .ro, .operator, 0, .any⟩,
  ⟨Reg.ATT_RESENDS, .one, .u32, .ro, .operator, 0, .any⟩,
  ⟨Reg.LDG_TAG_ENABLE, .one, .bool, .rw, .operator, 1, .range 0 1⟩,
  ⟨Reg.LDG_UNTAGGED, .one, .u32, .ro, .operator, 0, .any⟩,
  ⟨Reg.LDG_MISMATCH, .one, .u32, .ro, .operator, 0, .any⟩,
  ⟨Reg.LDG_ENABLE, .ctx, .bool, .rw, .operator, 0, .range 0 1⟩,
  ⟨Reg.LDG_BASE, .ctx, .u64, .rw, .operator, 0, .off 4096⟩,
  ⟨Reg.LDG_SIZE_LOG2, .ctx, .u8, .rw, .operator, 0, .range 12 32⟩,
  ⟨Reg.LDG_MODE, .ctx, .enum, .rw, .operator, 0, .range 0 1⟩,
  ⟨Reg.LDG_PRODUCER, .ctx, .u64, .ro, .tenant, 0, .any⟩,
  ⟨Reg.LDG_CONSUMER, .ctx, .u64, .rw, .tenant, 0, .any⟩,
  ⟨Reg.LDG_DROPPED, .ctx, .u32, .ro, .tenant, 0, .any⟩,
  ⟨Reg.LDG_STATE, .ctx, .enum, .ro, .tenant, 0, .any⟩,
  ⟨Reg.CAP_TENSOR_ID, .window, .u32, .rw, .operator, 0, .any⟩,
  ⟨Reg.CAP_STEP_FIRST, .window, .u32, .rw, .operator, 0, .any⟩,
  ⟨Reg.CAP_STEP_LAST, .window, .u32, .rw, .operator, 0, .any⟩,
  ⟨Reg.CAP_CHUNK_FIRST, .window, .u32, .rw, .operator, 0, .any⟩,
  ⟨Reg.CAP_CHUNK_COUNT, .window, .u32, .rw, .operator, 0, .any⟩,
  ⟨Reg.CAP_BASE, .window, .u64, .rw, .operator, 0, .off 4096⟩]

/-- Entries of the dictionary, part 5. -/
def entries5 : List Entry := [
  ⟨Reg.CAP_SIZE, .window, .u64, .rw, .operator, 0, .any⟩,
  ⟨Reg.CAP_ARM, .window, .bool, .rw, .operator, 0, .range 0 1⟩,
  ⟨Reg.CAP_USED, .window, .u64, .ro, .tenant, 0, .any⟩,
  ⟨Reg.CAP_RECORDS, .window, .u32, .ro, .tenant, 0, .any⟩,
  ⟨Reg.CAP_MISSED, .window, .u32, .ro, .tenant, 0, .any⟩,
  ⟨Reg.HIER_RACK, .one, .u16, .rwc, .operator, 65535, .any⟩,
  ⟨Reg.HIER_SLOT, .one, .u8, .rwc, .operator, 255, .any⟩,
  ⟨Reg.HIER_CADENCE_ROLE, .one, .enum, .rw, .operator, 0, .range 0 2⟩,
  ⟨Reg.HIER_CADENCE_PARENT, .one, .u16, .rw, .operator, 65535, .any⟩,
  ⟨Reg.HIER_CADENCE_SET, .one, .time64, .cmd, .operator, 0, .any⟩,
  ⟨Reg.HIER_CADENCE_PERIOD, .one, .time64, .rw, .operator, 100000, .range 10000 1000000⟩,
  ⟨Reg.HIER_CADENCE_VALID, .one, .bool, .ro, .tenant, 0, .range 0 1⟩,
  ⟨Reg.HIER_CADENCE_NOW, .one, .time64, .ro, .tenant, 18446744073709551615, .any⟩,
  ⟨Reg.HIER_CADENCE_OFFSET, .one, .i32, .ro, .operator, 0, .any⟩,
  ⟨Reg.HIER_CADENCE_RATE, .one, .i16, .ro, .operator, 0, .any⟩,
  ⟨Reg.HIER_CADENCE_ALT, .one, .u16, .rw, .operator, 65535, .any⟩,
  ⟨Reg.HIER_BCAST_LEAD, .one, .time64, .rw, .operator, 20000, .range 5000 10000000⟩,
  ⟨Reg.HIER_CADENCE_STEPS, .one, .u32, .ro, .operator, 0, .any⟩,
  ⟨Reg.HIER_PULSE_REJECTED, .one, .u32, .ro, .operator, 0, .any⟩,
  ⟨Reg.HIER_LATE_BCAST, .one, .u32, .ro, .operator, 0, .any⟩,
  ⟨Reg.HIER_SNAP_UNRECORDED, .one, .u32, .ro, .operator, 0, .any⟩,
  ⟨Reg.HIER_BCAST_REFUSED, .one, .u32, .ro, .operator, 0, .any⟩,
  ⟨Reg.JOB_ROLE, .ctx, .enum, .rw, .operator, 0, .range 0 2⟩,
  ⟨Reg.JOB_STEP, .ctx, .u32, .ro, .tenant, 0, .any⟩,
  ⟨Reg.JOB_TREE_BASE, .ctx, .u64, .rw, .operator, 0, .off 256⟩,
  ⟨Reg.BAR_IN_SEM, .ctx, .u32, .rw, .operator, 0, .any⟩,
  ⟨Reg.BAR_STEP_SEM, .ctx, .u32, .rw, .operator, 0, .any⟩,
  ⟨Reg.BAR_IN_THR, .ctx, .u32, .rw, .operator, 1, .range 1 0xFFFFFFFF⟩,
  ⟨Reg.BAR_OUT_SEM, .ctx, .u32, .rw, .operator, 0, .any⟩,
  ⟨Reg.BAR_COUNT, .ctx, .u32, .ro, .tenant, 0, .any⟩,
  ⟨Reg.BAR_STATE, .ctx, .enum, .ro, .tenant, 0, .any⟩,
  ⟨Reg.BAR_TIMEOUT, .ctx, .time64, .rw, .operator, 10000000, .range 100000 1000000000⟩,
  ⟨Reg.JOB_MGR_EPOCH, .ctx, .u8, .ro, .tenant, 0, .any⟩,
  ⟨Reg.JOB_TAKEOVER_TIMEOUT, .ctx, .time64, .rw, .operator, 25000000, .range 0 10000000000⟩,
  ⟨Reg.JOB_SNAP_BASE, .ctx, .u64, .rw, .operator, 0, .off 8192⟩,
  ⟨Reg.JOB_SNAPSHOT, .ctx, .time64, .cmd, .operator, 0, .any⟩,
  ⟨Reg.JOB_RESET, .ctx, .time64, .cmd, .operator, 0, .any⟩,
  ⟨Reg.JOB_SNAP_SLOTS, .ctx, .u16, .rw, .operator, 0, .any⟩,
  ⟨Reg.JOB_MGR_CHIP, .ctx, .u16, .ro, .tenant, 65535, .any⟩,
  ⟨Reg.FLT_ESCALATION_TIMEOUT, .one, .time64, .rw, .operator, 5000000, .range 100000 1000000000⟩]

/-- Entries of the dictionary, part 6. -/
def entries6 : List Entry := [
  ⟨Reg.HANG_WINDOW, .one, .time64, .rw, .operator, 50000000, .zeroOr 1000000 10000000000⟩,
  ⟨Reg.HANG_RECUR, .one, .time64, .rw, .operator, 100000000, .range 1000000 10000000000⟩,
  ⟨Reg.RST_CTX_LIMIT, .one, .time64, .rw, .operator, 1000000, .range 200000 100000000⟩,
  ⟨Reg.RST_ENGINE_LIMIT, .one, .time64, .rw, .operator, 1000000, .range 200000 100000000⟩,
  ⟨Reg.RST_PARTITION_LIMIT, .one, .time64, .rw, .operator, 2000000, .range 500000 100000000⟩,
  ⟨Reg.FLT_LADDER_MAX, .one, .enum, .rw, .service, 4, .range 1 5⟩,
  ⟨Reg.FLT_PCYC_AUTO, .one, .bool, .rw, .service, 1, .range 0 1⟩,
  ⟨Reg.FLT_EVENT_MIN_CLASS, .one, .enum, .rw, .operator, 1, .range 0 3⟩,
  ⟨Reg.FLT_HCP_COPY, .one, .bool, .rw, .operator, 0, .range 0 1⟩,
  ⟨Reg.FLT_KICK_LINK, .one, .u8, .rw, .service, 0, .special⟩,
  ⟨Reg.FLT_SUMMARY, .one, .u32, .ro, .tenant, 0, .any⟩,
  ⟨Reg.FLT_STICKY, .one, .bytes 64, .ro, .operator, 0, .any⟩,
  ⟨Reg.FLT_STICKY_CLEAR, .one, .cmd, .cmd, .service, 0, .any⟩,
  ⟨Reg.FLT_CLEAR_ALL, .one, .cmd, .cmd, .operator, 0, .any⟩,
  ⟨Reg.FLT_BLOCK_RESET, .one, .cmd, .cmd, .service, 0, .any⟩,
  ⟨Reg.FLT_KICKSTAND, .one, .cmd, .cmd, .service, 0, .any⟩,
  ⟨Reg.FLT_KICK_EXIT, .one, .cmd, .cmd, .service, 0, .any⟩,
  ⟨Reg.FLT_PCYC_REQUEST, .one, .cmd, .cmd, .service, 0, .any⟩,
  ⟨Reg.DBG_BASE, .one, .u64, .rw, .operator, 0, .off 4096⟩,
  ⟨Reg.DBG_SLOTS, .one, .u32, .rw, .operator, 0, .any⟩,
  ⟨Reg.DBG_NEXT, .one, .u32, .ro, .operator, 0, .any⟩,
  ⟨Reg.FLT_EVT_LOST, .one, .u32, .ro, .operator, 0, .any⟩,
  ⟨Reg.RST_SAMPLE_LIMIT, .one, .time64, .rw, .operator, 200000, .range 20000 10000000⟩,
  ⟨Reg.FLT_EVT_COUNT, .one, .u16, .ro, .operator, 0, .any⟩,
  ⟨Reg.FLT_EVT_HEAD, .one, .bytes 32, .ro, .operator, 0, .any⟩,
  ⟨Reg.FLT_EVT_POP, .one, .cmd, .cmd, .operator, 0, .any⟩,
  ⟨Reg.SRC_CLASS, .source, .enum, .ro, .operator, 0, .any⟩,
  ⟨Reg.SRC_PROMOTE_N, .source, .u16, .rw, .operator, 0, .any⟩,
  ⟨Reg.SRC_PROMOTE_WINDOW, .source, .time64, .rw, .operator, 1000000000, .range 1000000 3600000000000⟩,
  ⟨Reg.SRC_EVENTS, .source, .u32, .ro, .operator, 0, .any⟩,
  ⟨Reg.SRC_UNCLEARED, .source, .bool, .ro, .operator, 0, .range 0 1⟩,
  ⟨Reg.SRC_CLEAR, .source, .cmd, .cmd, .operator, 0, .any⟩,
  ⟨Reg.SRC_ACTION, .source, .enum, .rw, .operator, 0, .special⟩,
  ⟨Reg.RST_CTX, .ctx, .cmd, .cmd, .operator, 0, .any⟩,
  ⟨Reg.RST_CTX_CAUSE, .ctx, .enum, .ro, .tenant, 0, .any⟩,
  ⟨Reg.RST_CTX_COUNT, .ctx, .u32, .ro, .tenant, 0, .any⟩,
  ⟨Reg.RST_SUSPECT, .ctx, .enum, .ro, .operator, 0, .any⟩,
  ⟨Reg.CORE_EPOCH, .core, .u8, .ro, .operator, 0, .any⟩,
  ⟨Reg.CORE_PROBATION, .core, .bool, .ro, .operator, 0, .range 0 1⟩,
  ⟨Reg.CORE_ENG_RESETS, .core, .u32, .ro, .operator, 0, .any⟩]

/-- Entries of the dictionary, part 7. -/
def entries7 : List Entry := [
  ⟨Reg.PWR_BUDGET, .one, .u16, .rw, .operator, 850, .special⟩,
  ⟨Reg.PWR_BUDGET_LIMIT, .one, .u16, .rwc, .service, 850, .range 100 850⟩,
  ⟨Reg.PWR_HYST, .one, .u16, .rw, .operator, 20, .range 1 100⟩,
  ⟨Reg.PWR_MODEL_SCALE, .one, .u8, .rw, .service, 100, .range 50 200⟩,
  ⟨Reg.PWR_LANE_MW, .one, .u16, .rw, .service, 900, .range 0 2000⟩,
  ⟨Reg.PWR_WAKE_RATE, .one, .u8, .rw, .operator, 4, .range 1 64⟩,
  ⟨Reg.PWR_RAMP_MAX, .one, .u8, .rw, .operator, 16, .range 1 64⟩,
  ⟨Reg.PWR_SLEEP_DELAY, .one, .time64, .rw, .operator, 100000, .zeroOr 10000 1000000000⟩,
  ⟨Reg.PWR_MM_GATE_DELAY, .one, .time64, .rw, .operator, 1000, .range 100 1000000⟩,
  ⟨Reg.PWR_ALERT_BUDGET, .one, .u16, .rw, .operator, 400, .special⟩,
  ⟨Reg.PWR_FORECAST_STEP, .one, .u16, .rw, .operator, 50, .range 10 850⟩,
  ⟨Reg.PWR_VID, .one, .u16, .cmd, .service, 0, .range 500 1000⟩,
  ⟨Reg.PWR_ESTIMATE, .one, .u16, .ro, .operator, 0, .any⟩,
  ⟨Reg.PWR_THROTTLED, .one, .u64, .ro, .operator, 0, .any⟩,
  ⟨Reg.PWR_WAKE_QUEUED, .one, .u8, .ro, .operator, 0, .any⟩,
  ⟨Reg.PWR_WAKES, .one, .u32, .ro, .operator, 0, .any⟩,
  ⟨Reg.PWR_ALERT_ACTIVE, .one, .bool, .ro, .operator, 0, .range 0 1⟩,
  ⟨Reg.PWR_OVER_INTERVALS, .one, .u32, .ro, .operator, 0, .any⟩,
  ⟨Reg.PWR_CORE_CAP, .core, .u8, .rw, .operator, 16, .range 1 16⟩,
  ⟨Reg.PWR_CORE_LEVEL, .core, .u8, .ro, .operator, 16, .any⟩,
  ⟨Reg.PWR_CORE_STATE, .core, .enum, .ro, .operator, 2, .any⟩,
  ⟨Reg.ID_BLOCK_VERSION, .one, .u32, .ro, .tenant, 84017152, .any⟩,
  ⟨Reg.ID_PART, .one, .u16, .ro, .tenant, 58629, .any⟩,
  ⟨Reg.ID_VER_WIRE, .one, .u16, .ro, .tenant, 1280, .any⟩,
  ⟨Reg.ID_VER_WIRE_ALT, .one, .u16, .ro, .tenant, 1027, .any⟩,
  ⟨Reg.ID_VER_TXN, .one, .u16, .ro, .tenant, 1280, .any⟩,
  ⟨Reg.ID_VER_COLL, .one, .u16, .ro, .tenant, 256, .any⟩,
  ⟨Reg.ID_VER_ONTAN, .one, .u16, .ro, .tenant, 513, .any⟩,
  ⟨Reg.ID_VER_IMAGE, .one, .u16, .ro, .tenant, 513, .any⟩,
  ⟨Reg.ID_VER_LEDGER, .one, .u16, .ro, .tenant, 256, .any⟩,
  ⟨Reg.BLK_STATE, .one, .enum, .ro, .tenant, 3, .any⟩,
  ⟨Reg.BLK_READY, .one, .cmd, .cmd, .operator, 0, .any⟩,
  ⟨Reg.BLK_RUN, .one, .cmd, .cmd, .operator, 0, .any⟩,
  ⟨Reg.BLK_DRAIN, .one, .cmd, .cmd, .operator, 0, .any⟩,
  ⟨Reg.BLK_CONFIGURE, .one, .cmd, .cmd, .operator, 0, .any⟩,
  ⟨Reg.BLK_DRAIN_TIMEOUT, .one, .time64, .rw, .operator, 1000000000, .range 1000000 100000000000⟩,
  ⟨Reg.BLK_QUARANTINE_EXIT, .one, .cmd, .cmd, .operator, 0, .any⟩,
  ⟨Reg.ONT_EVENT_CARRIER, .one, .enum, .rw, .operator, 0, .special⟩,
  ⟨Reg.ONT_EVENT_REPEAT, .one, .time64, .rw, .operator, 10000000, .range 1000000 10000000000⟩,
  ⟨Reg.ONT_RELAY, .one, .bool, .rw, .operator, 0, .range 0 1⟩]

/-- Entries of the dictionary, part 8. -/
def entries8 : List Entry := [
  ⟨Reg.ONT_EVENT_DEST, .one, .u64, .rw, .operator, 0, .any⟩,
  ⟨Reg.ONT_RELAYED, .one, .u32, .ro, .operator, 0, .any⟩,
  ⟨Reg.ONT_BAD_FRAMES, .one, .u32, .ro, .operator, 0, .any⟩,
  ⟨Reg.MGP_FOREIGN_FRAMES, .one, .u32, .ro, .operator, 0, .any⟩,
  ⟨Reg.BUILD_CORES, .one, .u8, .ro, .tenant, 0, .any⟩,
  ⟨Reg.BUILD_LINKS, .one, .u8, .ro, .tenant, 0, .any⟩,
  ⟨Reg.BUILD_PORTS, .one, .u8, .ro, .tenant, 0, .any⟩,
  ⟨Reg.BUILD_HCP_IRQ_MODE, .one, .enum, .ro, .operator, 0, .any⟩,
  ⟨Reg.BUILD_MII, .one, .bool, .ro, .operator, 0, .range 0 1⟩,
  ⟨Reg.BUILD_I3C, .one, .bool, .ro, .operator, 0, .range 0 1⟩,
  ⟨Reg.BUILD_1687_SCOPE, .one, .enum, .ro, .operator, 0, .any⟩,
  ⟨Reg.BUILD_MFR_ID, .one, .u16, .ro, .operator, 0, .any⟩,
  ⟨Reg.BUILD_I3C_MIPI_ID, .one, .u16, .ro, .operator, 0, .any⟩,
  ⟨Reg.GMP_PORT_ENABLE, .one, .u16, .rw, .operator, 0, .special⟩,
  ⟨Reg.GMP_STALL_TIMEOUT, .one, .time64, .rw, .operator, 100000, .range 10000 10000000⟩,
  ⟨Reg.GMP_RETIRE_LIMIT, .one, .u16, .rw, .operator, 64, .range 1 1024⟩,
  ⟨Reg.CLK_FAULT_BLOCK, .one, .u8, .ro, .operator, 0, .any⟩,
  ⟨Reg.CLK_FAULT_LINKS, .one, .u64, .ro, .operator, 0, .any⟩,
  ⟨Reg.CLK_FAULT_PORTS, .one, .u16, .ro, .operator, 0, .any⟩,
  ⟨Reg.HCP_IRQ_MODE, .one, .enum, .ro, .operator, 0, .any⟩,
  ⟨Reg.MGP_I3C_SADDR, .one, .u8, .ro, .operator, 0, .any⟩,
  ⟨Reg.MGP_MAC, .one, .u64, .rwc, .operator, 0, .special⟩,
  ⟨Reg.SEC_IMAGE_KEY0, .one, .bytes 48, .ro, .operator, 0, .any⟩,
  ⟨Reg.SEC_IMAGE_KEY1, .one, .bytes 48, .ro, .operator, 0, .any⟩,
  ⟨Reg.SEC_IMAGE_KEY2, .one, .bytes 48, .ro, .operator, 0, .any⟩,
  ⟨Reg.SEC_IMAGE_KEY3, .one, .bytes 48, .ro, .operator, 0, .any⟩,
  ⟨Reg.SEC_IMAGE_REVOKED, .one, .u8, .ro, .operator, 0, .any⟩,
  ⟨Reg.SEC_REVOKE, .one, .u8, .cmd, .service, 0, .any⟩,
  ⟨Reg.SEC_SERVICE_KEY0, .one, .bytes 48, .ro, .operator, 0, .any⟩,
  ⟨Reg.SEC_SERVICE_KEY1, .one, .bytes 48, .ro, .operator, 0, .any⟩,
  ⟨Reg.SEC_CHALLENGE, .one, .bytes 16, .ro, .operator, 0, .any⟩,
  ⟨Reg.SEC_UNLOCK, .one, .bytes 192, .cmd, .operator, 0, .any⟩,
  ⟨Reg.SEC_LOCK, .one, .cmd, .cmd, .tenant, 0, .any⟩,
  ⟨Reg.SEC_SESSION, .one, .enum, .ro, .tenant, 1, .any⟩,
  ⟨Reg.SEC_1687_UNLOCK, .one, .bool, .rw, .service, 0, .range 0 1⟩,
  ⟨Reg.SEC_UNLOCK_FAILS, .one, .u32, .ro, .operator, 0, .any⟩,
  ⟨Reg.OBS_MM_BUSY, .one, .u64, .ro, .operator, 0, .any⟩,
  ⟨Reg.OBS_VEC_BUSY, .one, .u64, .ro, .operator, 0, .any⟩,
  ⟨Reg.OBS_CC_RETIRED, .one, .u64, .ro, .operator, 0, .any⟩,
  ⟨Reg.OBS_DMA_BUSY, .one, .u64, .ro, .operator, 0, .any⟩]

/-- Entries of the dictionary, part 9. -/
def entries9 : List Entry := [
  ⟨Reg.OBS_RED_BUSY, .one, .u64, .ro, .operator, 0, .any⟩,
  ⟨Reg.OBS_LINK_BAD, .one, .u64, .ro, .operator, 0, .any⟩,
  ⟨Reg.OBS_LINK_REPLAYS, .one, .u64, .ro, .operator, 0, .any⟩,
  ⟨Reg.OBS_RMT_REISSUES, .one, .u64, .ro, .operator, 0, .any⟩,
  ⟨Reg.OBS_FAULT_EVENTS, .one, .u64, .ro, .operator, 0, .any⟩,
  ⟨Reg.CTX_MM_BUSY, .ctx, .u64, .ro, .tenant, 0, .any⟩,
  ⟨Reg.CTX_VEC_BUSY, .ctx, .u64, .ro, .tenant, 0, .any⟩,
  ⟨Reg.CTX_CC_RETIRED, .ctx, .u64, .ro, .tenant, 0, .any⟩,
  ⟨Reg.CTX_DMA_BUSY, .ctx, .u64, .ro, .tenant, 0, .any⟩,
  ⟨Reg.CTX_TASKS_ENDED, .ctx, .u32, .ro, .tenant, 0, .any⟩,
  ⟨Reg.TRC_BASE, .one, .u64, .rw, .operator, 0, .off 4096⟩,
  ⟨Reg.TRC_SIZE_LOG2, .one, .u8, .rw, .operator, 12, .range 12 34⟩,
  ⟨Reg.TRC_ENABLE, .one, .bool, .rw, .operator, 0, .range 0 1⟩,
  ⟨Reg.TRC_CTX_MASK, .one, .u64, .rw, .operator, 0, .any⟩,
  ⟨Reg.TRC_PC_PERIOD_LOG2, .one, .u8, .rw, .operator, 0, .zeroOr 10 24⟩,
  ⟨Reg.TRC_PRODUCER, .one, .u64, .ro, .operator, 0, .any⟩,
  ⟨Reg.TRC_LOST, .one, .u32, .ro, .operator, 0, .any⟩,
  ⟨Reg.OBS_HIST_PERIOD, .one, .time64, .rw, .operator, 1000, .range 100 1000000⟩,
  ⟨Reg.OBS_CLEAR, .one, .cmd, .cmd, .operator, 0, .any⟩,
  ⟨Reg.DBG_VECTOR, .one, .u8, .rw, .operator, 0, .range 0 63⟩,
  ⟨Reg.DBG_HALT, .core, .cmd, .cmd, .operator, 0, .any⟩,
  ⟨Reg.DBG_RESUME, .core, .cmd, .cmd, .operator, 0, .any⟩,
  ⟨Reg.DBG_STEP, .core, .cmd, .cmd, .operator, 0, .any⟩,
  ⟨Reg.DBG_STATE, .core, .enum, .ro, .operator, 0, .any⟩,
  ⟨Reg.DBG_PC, .core, .u32, .ro, .operator, 0, .any⟩,
  ⟨Reg.DBG_REGS, .core, .bytes 256, .ro, .operator, 0, .any⟩,
  ⟨Reg.DBG_BKPT0, .core, .u32, .rw, .operator, 0, .special⟩,
  ⟨Reg.DBG_BKPT1, .core, .u32, .rw, .operator, 0, .special⟩,
  ⟨Reg.DBG_BKPT2, .core, .u32, .rw, .operator, 0, .special⟩,
  ⟨Reg.DBG_BKPT3, .core, .u32, .rw, .operator, 0, .special⟩,
  ⟨Reg.OBS_HIST_BIN0, .hist, .u32, .ro, .operator, 0, .any⟩,
  ⟨Reg.OBS_HIST_BIN1, .hist, .u32, .ro, .operator, 0, .any⟩,
  ⟨Reg.OBS_HIST_BIN2, .hist, .u32, .ro, .operator, 0, .any⟩,
  ⟨Reg.OBS_HIST_BIN3, .hist, .u32, .ro, .operator, 0, .any⟩,
  ⟨Reg.OBS_HIST_BIN4, .hist, .u32, .ro, .operator, 0, .any⟩,
  ⟨Reg.OBS_HIST_BIN5, .hist, .u32, .ro, .operator, 0, .any⟩,
  ⟨Reg.OBS_HIST_BIN6, .hist, .u32, .ro, .operator, 0, .any⟩,
  ⟨Reg.OBS_HIST_BIN7, .hist, .u32, .ro, .operator, 0, .any⟩,
  ⟨Reg.OBS_HIST_BIN8, .hist, .u32, .ro, .operator, 0, .any⟩,
  ⟨Reg.OBS_HIST_BIN9, .hist, .u32, .ro, .operator, 0, .any⟩]

/-- Entries of the dictionary, part 10. -/
def entries10 : List Entry := [
  ⟨Reg.OBS_HIST_BIN10, .hist, .u32, .ro, .operator, 0, .any⟩,
  ⟨Reg.OBS_HIST_BIN11, .hist, .u32, .ro, .operator, 0, .any⟩,
  ⟨Reg.OBS_HIST_BIN12, .hist, .u32, .ro, .operator, 0, .any⟩,
  ⟨Reg.OBS_HIST_BIN13, .hist, .u32, .ro, .operator, 0, .any⟩,
  ⟨Reg.OBS_HIST_BIN14, .hist, .u32, .ro, .operator, 0, .any⟩,
  ⟨Reg.OBS_HIST_BIN15, .hist, .u32, .ro, .operator, 0, .any⟩]

/-- Every entry of the dictionary but the two tables of R142 and R144, which are entries by position. -/
def entries : List Entry :=
  entries0 ++ entries1 ++ entries2 ++ entries3 ++ entries4 ++ entries5 ++ entries6 ++ entries7 ++ entries8 ++ entries9 ++ entries10

end Sys2Proof.Machine
end

