-- ==== Sys2Proof/Machine/Sources.lean ====
section
/-! DEFINITION. The fault sources of R430 and R483: code, default class and the kind of unit each names. -/
namespace Sys2Proof.Machine

/-- The four classes of a fault source, lowest first (R427). -/
inductive FaultClass where
  | notice | correctable | severe | grave
  deriving DecidableEq, Repr

/-- The code of a class (R427). -/
def FaultClass.code : FaultClass → Nat
  | .notice => 0 | .correctable => 1 | .severe => 2 | .grave => 3

/-- The class of a code; a code above 3 is read as Grave. -/
def FaultClass.ofCode : Nat → FaultClass
  | 0 => .notice | 1 => .correctable | 2 => .severe | _ => .grave

/-- The kind of unit that the Unit column of R430 gives a source. -/
inductive SourceUnit where
  | none | core | link | port | partition | clock | context
  /-- A core or a partition: HANG_ENGINE and RESET_ENGINE. -/
  | engine
  /-- The unit of the rung withheld: LADDER_STOPPED. -/
  | rung
  deriving DecidableEq, Repr

/-- The fault sources, in ascending order of code (R430, R483). -/
inductive Source where
  /-- 0x01 LINK_DOWN, raised under R93. -/
  | linkDown
  /-- 0x02 LINK_FLUSH, raised under R95. -/
  | linkFlush
  /-- 0x03 LINK_TRAIN_FAIL, raised under R88. -/
  | linkTrainFail
  /-- 0x04 LINK_VERSION, raised under R89. -/
  | linkVersion
  /-- 0x05 LANE_SPARED, raised under R96. -/
  | laneSpared
  /-- 0x06 SPARE_LOST, raised under R97. -/
  | spareLost
  /-- 0x07 LANE_EXHAUSTED, raised under R97. -/
  | laneExhausted
  /-- 0x10 GMP_STALL, raised under R27. -/
  | gmpStall
  /-- 0x11 GMP_DISABLED, raised under R28, R29. -/
  | gmpDisabled
  /-- 0x12 GMP_ADDRESS, raised under R30. -/
  | gmpAddress
  /-- 0x13 HCP_STALL, raised under R41. -/
  | hcpStall
  /-- 0x14 PMI_NOACK, raised under R48. -/
  | pmiNoack
  /-- 0x15 PMI_PGOOD_LOST, raised under R48. -/
  | pmiPgoodLost
  /-- 0x16 CLK_ABSENT, raised under R51. -/
  | clkAbsent
  /-- 0x17 CLK_RANGE, raised under R53. -/
  | clkRange
  /-- 0x20 RMT_RETRIES, raised under R177. -/
  | rmtRetries
  /-- 0x21 RMT_CACHE_FULL, raised under R177. -/
  | rmtCacheFull
  /-- 0x22 RMT_CACHE_EXPIRED, raised under R177. -/
  | rmtCacheExpired
  /-- 0x23 XLT_WALK_POISON, raised under R186. -/
  | xltWalkPoison
  /-- 0x24 XLT_SERVICE_LATE, raised under R190. -/
  | xltServiceLate
  /-- 0x25 XLT_REFUSED, raised under R188. -/
  | xltRefused
  /-- 0x28 SPAD_CORRECTED, raised under R207. -/
  | spadCorrected
  /-- 0x29 SPAD_UNCORRECTABLE, raised under R207. -/
  | spadUncorrectable
  /-- 0x2A SPAD_UNWRITTEN_READ, raised under R268. -/
  | spadUnwrittenRead
  /-- 0x2B SEM_SATURATED, raised under R246. -/
  | semSaturated
  /-- 0x2C COUNTER_FOREIGN, raised under R253. -/
  | counterForeign
  /-- 0x2D FAR_DIRTY_LOST, raised under R266. -/
  | farDirtyLost
  /-- 0x2E FAR_WRITEBACK_FAIL, raised under R261. -/
  | farWritebackFail
  /-- 0x30 TASK_ERROR, raised under R288. -/
  | taskError
  /-- 0x31 IMAGE_REJECTED, raised under R292. -/
  | imageRejected
  /-- 0x32 DOORBELL_ERROR, raised under R280, R40. -/
  | doorbellError
  /-- 0x34 COLL_ABORT, raised under R330. -/
  | collAbort
  /-- 0x35 COLL_CHECK, raised under R324. -/
  | collCheck
  /-- 0x36 ATT_ASSEMBLY_EXPIRED, raised under R352. -/
  | attAssemblyExpired
  /-- 0x37 ATT_RESULT_LATE, raised under R358. -/
  | attResultLate
  /-- 0x38 LEDGER_DROP, raised under R369. -/
  | ledgerDrop
  /-- 0x39 LEDGER_STEP_MISMATCH, raised under R381. -/
  | ledgerStepMismatch
  /-- 0x3A CAPTURE_FULL, raised under R385. -/
  | captureFull
  /-- 0x3C CADENCE_LOST, raised under R405. -/
  | cadenceLost
  /-- 0x3D BARRIER_FAILED, raised under R412. -/
  | barrierFailed
  /-- 0x3E BCAST_LATE, raised under R414. -/
  | bcastLate
  /-- 0x3F MANAGER_TAKEOVER, raised under R417. -/
  | managerTakeover
  /-- 0x40 MANAGER_DEMOTED, raised under R419. -/
  | managerDemoted
  /-- 0x48 HANG_CONTEXT, raised under R441. -/
  | hangContext
  /-- 0x49 HANG_ENGINE, raised under R441. -/
  | hangEngine
  /-- 0x4A RESET_CONTEXT, raised under R445. -/
  | resetContext
  /-- 0x4B RESET_ENGINE, raised under R447. -/
  | resetEngine
  /-- 0x4C RESET_PARTITION, raised under R448. -/
  | resetPartition
  /-- 0x4D RESET_BLOCK, raised under R449. -/
  | resetBlock
  /-- 0x4E LADDER_STOPPED, raised under R444. -/
  | ladderStopped
  /-- 0x4F SUSPECT_GUILTY, raised under R455. -/
  | suspectGuilty
  /-- 0x50 PWR_OVER_BUDGET, raised under R483. -/
  | pwrOverBudget
  /-- 0x51 PWR_VR_ALERT, raised under R483. -/
  | pwrVrAlert
  /-- 0x52 WAKE_DELAYED, raised under R483. -/
  | wakeDelayed
  /-- 0x60 EPOCH_REFUSED, raised under R457. -/
  | epochRefused
  /-- 0x61 SAMPLE_LOST, raised under R452. -/
  | sampleLost
  /-- 0x62 KICKSTAND_ENTERED, raised under R459. -/
  | kickstandEntered
  /-- 0x63 PCYC_REQUESTED, raised under R437, R450. -/
  | pcycRequested
  /-- 0x64 TABLE_UNCORRECTABLE, raised under Uncorrectable error in that table. -/
  | tableUncorrectable
  deriving DecidableEq, Repr

/-- The code of a source. -/
def Source.code : Source → Nat
  | .linkDown => 0x01
  | .linkFlush => 0x02
  | .linkTrainFail => 0x03
  | .linkVersion => 0x04
  | .laneSpared => 0x05
  | .spareLost => 0x06
  | .laneExhausted => 0x07
  | .gmpStall => 0x10
  | .gmpDisabled => 0x11
  | .gmpAddress => 0x12
  | .hcpStall => 0x13
  | .pmiNoack => 0x14
  | .pmiPgoodLost => 0x15
  | .clkAbsent => 0x16
  | .clkRange => 0x17
  | .rmtRetries => 0x20
  | .rmtCacheFull => 0x21
  | .rmtCacheExpired => 0x22
  | .xltWalkPoison => 0x23
  | .xltServiceLate => 0x24
  | .xltRefused => 0x25
  | .spadCorrected => 0x28
  | .spadUncorrectable => 0x29
  | .spadUnwrittenRead => 0x2A
  | .semSaturated => 0x2B
  | .counterForeign => 0x2C
  | .farDirtyLost => 0x2D
  | .farWritebackFail => 0x2E
  | .taskError => 0x30
  | .imageRejected => 0x31
  | .doorbellError => 0x32
  | .collAbort => 0x34
  | .collCheck => 0x35
  | .attAssemblyExpired => 0x36
  | .attResultLate => 0x37
  | .ledgerDrop => 0x38
  | .ledgerStepMismatch => 0x39
  | .captureFull => 0x3A
  | .cadenceLost => 0x3C
  | .barrierFailed => 0x3D
  | .bcastLate => 0x3E
  | .managerTakeover => 0x3F
  | .managerDemoted => 0x40
  | .hangContext => 0x48
  | .hangEngine => 0x49
  | .resetContext => 0x4A
  | .resetEngine => 0x4B
  | .resetPartition => 0x4C
  | .resetBlock => 0x4D
  | .ladderStopped => 0x4E
  | .suspectGuilty => 0x4F
  | .pwrOverBudget => 0x50
  | .pwrVrAlert => 0x51
  | .wakeDelayed => 0x52
  | .epochRefused => 0x60
  | .sampleLost => 0x61
  | .kickstandEntered => 0x62
  | .pcycRequested => 0x63
  | .tableUncorrectable => 0x64

/-- The default class of a source. -/
def Source.defaultClass : Source → FaultClass
  | .linkDown => .correctable
  | .linkFlush => .severe
  | .linkTrainFail => .correctable
  | .linkVersion => .correctable
  | .laneSpared => .notice
  | .spareLost => .notice
  | .laneExhausted => .severe
  | .gmpStall => .severe
  | .gmpDisabled => .severe
  | .gmpAddress => .severe
  | .hcpStall => .correctable
  | .pmiNoack => .correctable
  | .pmiPgoodLost => .severe
  | .clkAbsent => .severe
  | .clkRange => .severe
  | .rmtRetries => .notice
  | .rmtCacheFull => .notice
  | .rmtCacheExpired => .correctable
  | .xltWalkPoison => .severe
  | .xltServiceLate => .correctable
  | .xltRefused => .notice
  | .spadCorrected => .correctable
  | .spadUncorrectable => .severe
  | .spadUnwrittenRead => .notice
  | .semSaturated => .notice
  | .counterForeign => .notice
  | .farDirtyLost => .correctable
  | .farWritebackFail => .severe
  | .taskError => .notice
  | .imageRejected => .notice
  | .doorbellError => .notice
  | .collAbort => .notice
  | .collCheck => .correctable
  | .attAssemblyExpired => .notice
  | .attResultLate => .notice
  | .ledgerDrop => .notice
  | .ledgerStepMismatch => .notice
  | .captureFull => .notice
  | .cadenceLost => .correctable
  | .barrierFailed => .correctable
  | .bcastLate => .notice
  | .managerTakeover => .correctable
  | .managerDemoted => .notice
  | .hangContext => .severe
  | .hangEngine => .severe
  | .resetContext => .notice
  | .resetEngine => .correctable
  | .resetPartition => .severe
  | .resetBlock => .severe
  | .ladderStopped => .severe
  | .suspectGuilty => .correctable
  | .pwrOverBudget => .notice
  | .pwrVrAlert => .correctable
  | .wakeDelayed => .notice
  | .epochRefused => .notice
  | .sampleLost => .notice
  | .kickstandEntered => .severe
  | .pcycRequested => .grave
  | .tableUncorrectable => .grave

/-- The kind of unit that a source names. -/
def Source.unitKind : Source → SourceUnit
  | .linkDown => .link
  | .linkFlush => .link
  | .linkTrainFail => .link
  | .linkVersion => .link
  | .laneSpared => .link
  | .spareLost => .link
  | .laneExhausted => .link
  | .gmpStall => .port
  | .gmpDisabled => .port
  | .gmpAddress => .port
  | .hcpStall => .none
  | .pmiNoack => .none
  | .pmiPgoodLost => .none
  | .clkAbsent => .clock
  | .clkRange => .clock
  | .rmtRetries => .core
  | .rmtCacheFull => .none
  | .rmtCacheExpired => .none
  | .xltWalkPoison => .context
  | .xltServiceLate => .context
  | .xltRefused => .context
  | .spadCorrected => .core
  | .spadUncorrectable => .core
  | .spadUnwrittenRead => .core
  | .semSaturated => .context
  | .counterForeign => .none
  | .farDirtyLost => .core
  | .farWritebackFail => .core
  | .taskError => .context
  | .imageRejected => .context
  | .doorbellError => .context
  | .collAbort => .context
  | .collCheck => .context
  | .attAssemblyExpired => .context
  | .attResultLate => .context
  | .ledgerDrop => .context
  | .ledgerStepMismatch => .context
  | .captureFull => .context
  | .cadenceLost => .none
  | .barrierFailed => .context
  | .bcastLate => .context
  | .managerTakeover => .context
  | .managerDemoted => .context
  | .hangContext => .context
  | .hangEngine => .engine
  | .resetContext => .context
  | .resetEngine => .engine
  | .resetPartition => .partition
  | .resetBlock => .none
  | .ladderStopped => .rung
  | .suspectGuilty => .context
  | .pwrOverBudget => .none
  | .pwrVrAlert => .none
  | .wakeDelayed => .core
  | .epochRefused => .core
  | .sampleLost => .core
  | .kickstandEntered => .none
  | .pcycRequested => .none
  | .tableUncorrectable => .partition

/-- Every source, in ascending order of code. -/
def Source.all : List Source :=
  [.linkDown, .linkFlush, .linkTrainFail, .linkVersion, .laneSpared, .spareLost, .laneExhausted, .gmpStall, .gmpDisabled, .gmpAddress, .hcpStall, .pmiNoack, .pmiPgoodLost, .clkAbsent, .clkRange, .rmtRetries, .rmtCacheFull, .rmtCacheExpired, .xltWalkPoison, .xltServiceLate, .xltRefused, .spadCorrected, .spadUncorrectable, .spadUnwrittenRead, .semSaturated, .counterForeign, .farDirtyLost, .farWritebackFail, .taskError, .imageRejected, .doorbellError, .collAbort, .collCheck, .attAssemblyExpired, .attResultLate, .ledgerDrop, .ledgerStepMismatch, .captureFull, .cadenceLost, .barrierFailed, .bcastLate, .managerTakeover, .managerDemoted, .hangContext, .hangEngine, .resetContext, .resetEngine, .resetPartition, .resetBlock, .ladderStopped, .suspectGuilty, .pwrOverBudget, .pwrVrAlert, .wakeDelayed, .epochRefused, .sampleLost, .kickstandEntered, .pcycRequested, .tableUncorrectable]

/-- The source of a code; R430 lists no other code. -/
def Source.ofCode? (c : Nat) : Option Source := Source.all.find? (fun x => x.code == c)

end Sys2Proof.Machine
end

