-- ==== Sys2Proof/Machine/BlockTypes.lean ====
section
/-! DEFINITION. Plain data of the block's boundary, memories, translation and fault logic: what the state holds of
the ports (ch. 1), the memory spaces (ch. 7), translation (ch. 5) and faults (ch. 13). -/
namespace Sys2Proof.Machine
open Sys2Proof Sys2Proof.Bits

/-- Which interrupt forms HCP provides (R22). -/
inductive IrqMode where
  | wires | messages | both
  deriving DecidableEq, Repr

/-- The parameters Rhasor fixes for a build (R3, R22), what the integrator fuses (R507), and the attached memory. -/
structure Build where
  /-- Cores: 16, 32, 48 or 64. -/
  cores : Nat
  /-- Links: 16 to 64 in steps of 8. -/
  links : Nat
  /-- Memory ports: 4, 8, 12 or 16. -/
  ports : Nat
  /-- `HCP_IRQ_MODE`. -/
  irqMode : IrqMode
  /-- `MGP_MII_PRESENT`. -/
  mii : Bool
  /-- `MGP_I3C_PRESENT`. -/
  i3c : Bool
  /-- `TAP_1687_SCOPE` is FULL. -/
  fullScope : Bool
  /-- IDCODE bits [11:0]. -/
  mfrId : Nat
  /-- `MGP_I3C_MIPI_ID`. -/
  mipiId : Nat
  /-- The fused image key hashes, slots 0 to 3; 0 where unfused (R507). -/
  imageKeys : List Nat
  /-- The fused service key hashes; 0 where unfused (R507). -/
  serviceKeys : List Nat
  /-- Bytes of local memory attached behind the ports; an access beyond is answered ADDRESS (R24). -/
  memBytes : Nat
  deriving DecidableEq, Repr

/-- The block states of R499. -/
inductive BlkState where
  | off | reset | kickstand | configure | ready | run | drain | quarantine
  deriving DecidableEq, Repr

/-- The code of a block state (R499). -/
def BlkState.code : BlkState → Nat
  | .off => 0 | .reset => 1 | .kickstand => 2 | .configure => 3 | .ready => 4 | .run => 5 | .drain => 6 | .quarantine => 7

/-- The clocks that a fault can name (R53, R429). -/
inductive ClockId where
  | cclk | fclk | lclk (link : Nat) | mclk (port : Nat) | hclk | tclk
  deriving DecidableEq, Repr

/-- The engines of R429. -/
inductive Engine where
  | matrix | vector | control | dma | reduction
  deriving DecidableEq, Repr

/-- The code of an engine in a record (R429). -/
def Engine.code : Engine → Nat
  | .matrix => 0 | .vector => 1 | .control => 2 | .dma => 3 | .reduction => 4

/-- The unit that an event names (R429). -/
inductive UnitName where
  | none
  | core (n : Nat)
  | link (n : Nat)
  | port (n : Nat)
  | partition (n : Nat)
  | clock (c : ClockId)
  | context (c : Nat)
  /-- An engine of a core. -/
  | engine (core : Nat) (e : Engine)
  /-- The reduction unit of a partition. -/
  | reduction (part : Nat)
  deriving DecidableEq, Repr

/-- The stages between a reset input and Configure (R50, R51). -/
inductive ResetStage where
  /-- Out of Reset. -/
  | none
  /-- A reset input is low. -/
  | held
  /-- The stretcher runs. -/
  | stretching
  /-- The clock detectors run. -/
  | detecting
  deriving DecidableEq, Repr

/-- The board pads' levels: driven low, driven high, or high impedance (R57). -/
inductive Level3 where
  | low | high | z
  deriving DecidableEq, Repr

/-- What the reset and clock logic holds (R49 to R53). -/
structure ResetState where
  /-- The stage of leaving Reset. -/
  stage : ResetStage
  /-- POR_N is low. -/
  porLow : Bool
  /-- BLK_RST_N is low. -/
  blkLow : Bool
  /-- A block reset of rung 4 has begun and Configure is not reached (R449). -/
  rung4 : Bool
  /-- CCLK is detected. -/
  cclk : Bool
  /-- FCLK is detected. -/
  fclk : Bool
  /-- HCLK is detected. -/
  hclk : Bool
  /-- Bit *n*: LCLK of link L*n* is detected. -/
  lclk : Nat
  /-- Bit *n*: MCLK of port M*n* is detected. -/
  mclk : Nat
  /-- The strap MGP_I3C_SADDR[6:0] as sampled at the rise of POR_N. -/
  saddr : Nat
  /-- The level at the strap pins. -/
  saddrPins : Nat
  deriving DecidableEq, Repr

/-- Request operations of a memory port (R24). -/
inductive GmpOp where
  | read | write | writeZeros
  deriving DecidableEq, Repr

/-- Response statuses of a memory port; 0b11 is treated as POISON (R24). -/
inductive GmpStatus where
  | ok | poison | address
  deriving DecidableEq, Repr

/-- One 128-byte write beat (R24). -/
structure GmpBeat where
  data : List Byte
  /-- Byte enables. -/
  strb : Nat
  poison : Bool
  deriving DecidableEq, Repr

/-- A request of a memory port, from its presentation to its end (R24 to R28). -/
structure GmpReq where
  tag : Nat
  op : GmpOp
  /-- The port address of the first beat, a multiple of 128. -/
  addr : Nat
  /-- Beats, 1 to 32. -/
  beats : Nat
  fence : Bool
  /-- The controller has taken the request. -/
  accepted : Bool
  /-- Write beats, in order. -/
  data : List GmpBeat
  /-- Write beats already transferred. -/
  sent : Nat
  /-- Read beats received: index, data, poisoned. -/
  got : List (Nat × List Byte × Bool)
  /-- A response with status ADDRESS has been met. -/
  addrErr : Bool
  deriving DecidableEq, Repr

/-- What a request delivered when it ended: a read's beats with their poison marks, or a write's success. -/
structure GmpResult where
  tag : Nat
  op : GmpOp
  addr : Nat
  beats : List (List Byte × Bool)
  ok : Bool
  deriving DecidableEq, Repr

/-- One memory port (R24 to R30). -/
structure PortState where
  /-- Presented or outstanding requests, oldest first. -/
  outstanding : List GmpReq
  /-- Requests held in the block (R243) and not yet issued, oldest first. -/
  held : List GmpReq
  /-- Retired tags, rising. -/
  retired : List Nat
  /-- Tags retired by the stall timer since the port was reset: what `GMP_RETIRE_LIMIT` counts. -/
  stalled : Nat
  /-- The port is disabled (R28, R29). -/
  disabled : Bool
  /-- The result of the last request that ended. -/
  last : Option GmpResult
  deriving DecidableEq, Repr

/-- An idle, enabled port. -/
def PortState.idle : PortState :=
  { outstanding := [], held := [], retired := [], stalled := 0, disabled := false, last := none }

/-- One interrupt vector (R42). -/
structure Vector where
  addr : Nat
  data : Nat
  mask : Bool
  pending : Bool
  deriving DecidableEq, Repr

/-- A vector after reset: masked, not pending (R42). -/
def Vector.reset : Vector := { addr := 0, data := 0, mask := true, pending := false }

/-- What an initiator write of HCP carries (R36). -/
inductive HcpKind where
  | faultRecord | invRecord | message
  deriving DecidableEq, Repr

/-- A write of the initiator side of HCP (R36). -/
structure HcpWrite where
  kind : HcpKind
  addr : Nat
  data : List Byte
  deriving DecidableEq, Repr

/-- A ring of records in host memory and the records that wait for it (R191, R195). -/
structure HostRing where
  base : Nat
  sizeLog2 : Nat
  tail : Nat
  head : Nat
  vector : Nat
  /-- Records that wait in the block, oldest first: the fault identifier if it has one, and the 32 bytes. -/
  waiting : List (Option Nat × List Byte)
  deriving DecidableEq, Repr

/-- A ring after reset. -/
def HostRing.reset : HostRing := { base := 0, sizeLog2 := 0, tail := 0, head := 0, vector := 0, waiting := [] }

/-- An invalidation in progress (R196). -/
structure Inval where
  /-- The context; none for all contexts. -/
  ctx : Option Nat
  ticket : Nat
  /-- First context offset of the range. -/
  start : Nat
  /-- The range's end, at most 2^48. -/
  stop : Nat
  pagesM1 : Nat
  /-- The model time, in TCLK cycles, of its `INV_GO`. -/
  began : Nat
  deriving DecidableEq, Repr

/-- The host control port (R36 to R42, R191, R195). -/
structure HcpState where
  vectors : Table Vector
  /-- Initiator writes not yet transferred, oldest first. -/
  queue : List HcpWrite
  /-- The last initiator write that transferred. -/
  last : Option HcpWrite
  /-- HCP_STALL has been recorded in this not-ready interval (R41). -/
  stallSeen : Bool
  fq : HostRing
  iq : HostRing
  invStart : Nat
  invPagesM1 : Nat
  /-- Invalidations in progress, oldest first. -/
  invs : List Inval
  /-- HCP_T_RERR of the last target write. -/
  rerr : Bool
  /-- `RING_TAIL` of each context. -/
  tails : Table Nat
  deriving DecidableEq, Repr

/-- Request kinds of PMI in priority order (R479). -/
inductive PmiKind where
  | forecast | floor | vid
  deriving DecidableEq, Repr

/-- The power management interface (R48). -/
structure PmiState where
  /-- The request presented: kind and value. -/
  req : Option (PmiKind × Nat)
  /-- Requests waiting, at most one value for each kind. -/
  waiting : List (PmiKind × Nat)
  pgood : Bool
  /-- PMI_VR_ALERT_N is low. -/
  alert : Bool
  /-- The alert budget applies (R473). -/
  alertActive : Bool
  deriving DecidableEq, Repr

/-- The I3C target (R45, R496). -/
structure I3cState where
  /-- The dynamic address. -/
  dyn : Option Nat
  /-- The bus is in an HDR mode. -/
  hdr : Bool
  /-- SCL-too-fast events. -/
  fast : Nat
  deriving DecidableEq, Repr

/-- What a TAP instruction selects (R47). -/
inductive TapSel where
  | bypass | idcode | instrument (n : Nat)
  deriving DecidableEq, Repr

/-- The test port: the selection, and what the last scan shifted out. -/
structure TapState where
  sel : TapSel
  out : Nat
  /-- The values held in open instruments. -/
  instruments : Table Nat
  deriving DecidableEq, Repr

/-- An event record (R429). -/
structure EventRec where
  code : Nat
  cls : FaultClass
  /-- Bytes 2 and 3. -/
  unit : Nat
  /-- Events in the current promotion window. -/
  window : Nat
  /-- Byte 6. -/
  ctx : Nat
  promoted : Bool
  lost : Bool
  detail : Nat
  cadence : Nat
  seq : Nat
  deriving DecidableEq, Repr

/-- The rungs of R443 and the actions of R436 that start them. -/
inductive Rung where
  | context | engine | partition | block | kickstand | pcyc
  deriving DecidableEq, Repr

/-- The rank of an action (R438). -/
def Rung.rank : Rung → Nat
  | .context => 1 | .engine => 2 | .partition => 3 | .block => 4 | .kickstand => 5 | .pcyc => 6

/-- An escalation timer (R436). -/
structure EscTimer where
  src : Source
  unit : UnitName
  /-- The context that the event names, 0xFF for none. -/
  ctx : Nat
  /-- Model time of the event, and its event sequence number. -/
  time : Nat
  seq : Nat
  deriving DecidableEq, Repr

/-- A context reset in progress (R445). -/
structure CtxReset where
  ctx : Nat
  /-- The code of `RST_CTX_CAUSE`. -/
  cause : Nat
  /-- The core that a guilty suspect hung (R455). -/
  core : Nat
  deriving DecidableEq, Repr

/-- A unit whose reset of rung 2 or 3 is in progress (R447, R448). -/
structure UnitReset where
  unit : UnitName
  suspects : List Nat
  /-- Samples not yet written: core number or 0x80 + partition, and the 5,120 bytes (R451). -/
  samples : List (Nat × List Byte)
  deriving DecidableEq, Repr

/-- Probation after a reset of rung 2 or 3 (R453 to R455). -/
structure Probation where
  unit : UnitName
  /-- Suspects whose turn is to come, ascending. -/
  waiting : List Nat
  /-- The suspect on turn. -/
  turn : Option Nat
  /-- A task of it has ended successfully on the unit, or the unit has hung, in the turn. -/
  success : Bool
  hung : Bool
  deriving DecidableEq, Repr

/-- A rung completed on a unit, and when (R444). -/
structure RungDone where
  unit : UnitName
  rung : Rung
  /-- The model time in TCLK cycles. -/
  time : Nat
  deriving DecidableEq, Repr

/-- A task that ended on a unit, for R453: context, core, model time. -/
structure TaskTrace where
  ctx : Nat
  core : Nat
  /-- The task's kind (R282). -/
  kind : Nat
  time : Nat
  deriving DecidableEq, Repr

/-- What fault handling holds beside its dictionary entries (R428 to R463). -/
structure FaultState where
  /-- The event queue, oldest first. -/
  queue : List EventRec
  /-- The event sequence number of the next record. -/
  seq : Nat
  /-- Records were lost since the last one queued. -/
  lostPending : Bool
  /-- First Severe or Grave event. -/
  stickyFirst : Option EventRec
  /-- Latest Grave event. -/
  stickyGrave : Option EventRec
  /-- The Grave latch. -/
  grave : Bool
  /-- Bit [3] of `FLT_SUMMARY`. -/
  pcycReq : Bool
  /-- PCYC_REQ_N is driven low. -/
  pcycLow : Bool
  /-- The timer of R450 runs. -/
  pcycTimer : Bool
  /-- Events in each open promotion window, by source code; 0: no window open. -/
  windows : Table Nat
  /-- Escalation timers, oldest first. -/
  timers : List EscTimer
  /-- Actions that fell due in this command and are taken at its end (R436). -/
  due : List EscTimer
  ctxResets : List CtxReset
  unitResets : List UnitReset
  probation : Option Probation
  rungs : List RungDone
  traces : List TaskTrace
  /-- Model time of the last progress of each unit that holds work, by key. -/
  progress : Table Nat
  /-- Lines named by each core's faults since its last sample, most recent first. -/
  named : List (Nat × Nat)
  /-- Cores whose epoch the directory and tracker have not yet taken (R457), with the old epoch. -/
  unsynced : Table Nat
  /-- The kept link (R461). -/
  kept : Option Nat
  /-- `BLK_DRAIN_TIMEOUT` has expired in the present Drain (R500). -/
  drainLate : Bool
  /-- A clock caused the entry to Kickstand. -/
  kickClock : Bool
  deriving DecidableEq, Repr

/-- Fault types of R187. -/
inductive XltType where
  | notPresent | malformed | walkPoison | remoteDenied | writeDenied
  deriving DecidableEq, Repr

/-- The code of a fault type (R187). -/
def XltType.code : XltType → Nat
  | .notPresent => 1 | .malformed => 2 | .walkPoison => 3 | .remoteDenied => 4 | .writeDenied => 5

/-- Who makes an access to a context's local memory (R178, R192). -/
inductive Accessor where
  /-- An engine of a core. -/
  | engine (core : Nat) (e : Engine)
  /-- Element of a gather or scatter of a core's DMA engine (R170). -/
  | element (core elem : Nat)
  /-- The dispatcher: ring entries, graphs, completion records. -/
  | dispatcher
  /-- An arriving packet parked at the target: its source chip, tag and element. -/
  | remote (src tag gen seq elem : Nat)
  deriving DecidableEq, Repr

/-- A page a translation maps: what a cached leaf holds (R184, R194). -/
structure Leaf where
  /-- Partition whose cache holds it. -/
  part : Nat
  ctx : Nat
  /-- First context offset of the page. -/
  base : Nat
  /-- Bits of the page size: 16, 21 or 30. -/
  size : Nat
  /-- The entry. -/
  pte : Nat
  /-- Pending counts of lines read and written. -/
  reads : Nat
  writes : Nat
  deriving DecidableEq, Repr

/-- A translation fault that the host has not answered, or that holds its identifier (R188 to R190). -/
structure XltFault where
  /-- The identifier; none while it waits for one. -/
  id : Option Nat
  ctx : Nat
  /-- The faulting context offset. -/
  off : Nat
  ty : XltType
  write : Bool
  atomic : Bool
  level : Nat
  raw : Nat
  /-- The accesses that joined it, the first in front. -/
  who : List Accessor
  /-- Cadence value when it was raised. -/
  cadence : Nat
  /-- False once it is withdrawn or refused by timeout: only its identifier is held. -/
  live : Bool
  deriving DecidableEq, Repr

/-- Translation (R178 to R203). -/
structure XltState where
  leaves : List Leaf
  faults : List XltFault
  deriving DecidableEq, Repr

end Sys2Proof.Machine
end

