-- ==== Sys2Proof/Machine/OntanTypes.lean ====
section
/-! DEFINITION. Plain data of the Ontan carriers and of the cadence counter (ch. 15, ch. 12). -/
namespace Sys2Proof.Machine
open Sys2Proof Sys2Proof.Bits

/-- The three Ontan carriers, with the codes of R489 and R504. -/
inductive Carrier where
  | mii | i3c | inBand
  deriving DecidableEq, Repr

/-- The code of a carrier: 1 MII, 2 I3C, 3 in band (R489). -/
def Carrier.code : Carrier → Nat
  | .mii => 1 | .i3c => 2 | .inBand => 3

/-- The statuses of R492. -/
inductive Status where
  | ok | noSuchEntry | outOfRange | busy | privilege | access | type | version | relayFailed
  deriving DecidableEq, Repr

/-- The code of a status (R492). -/
def Status.code : Status → Nat
  | .ok => 0 | .noSuchEntry => 1 | .outOfRange => 2 | .busy => 3 | .privilege => 4 | .access => 5 | .type => 6
  | .version => 7 | .relayFailed => 8

/-- What each carrier holds (R487, R489, R493). -/
structure Session where
  level : Level
  /-- The challenge that a read of `SEC_CHALLENGE` left. -/
  challenge : Option (List Byte)
  /-- Consecutive failures. -/
  fails : Nat
  /-- `SEC_UNLOCK` is locked out. -/
  lockout : Bool
  /-- The last executed request and its answer. -/
  kept : Option (List Byte × List Byte)
  /-- EVENTs sent since BLK_RST_N, modulo 2^16. -/
  events : Nat
  deriving DecidableEq, Repr

/-- A session after reset: Operator (R487). -/
def Session.reset : Session :=
  { level := .operator, challenge := none, fails := 0, lockout := false, kept := none, events := 0 }

/-- A request relayed in band for a master on MII or I3C (R497). -/
structure Relay where
  carrier : Carrier
  /-- The MII address to answer to. -/
  addr : Nat
  target : Nat
  request : List Byte
  deriving DecidableEq, Repr

/-- Something a carrier sent: an answer or an EVENT, with its destination address or chip. -/
structure OntanOut where
  carrier : Carrier
  dest : Nat
  bytes : List Byte
  deriving DecidableEq, Repr

/-- The Ontan engine (R490 to R498). -/
structure OntState where
  mii : Session
  i3c : Session
  inBand : Session
  /-- The answer that the I3C master has not yet read. -/
  i3cAnswer : Option (List Byte)
  /-- The message last sent on a carrier. -/
  last : Option OntanOut
  relays : List Relay
  /-- The status answered to the last request, and the value of the last READ answered OK. -/
  status : Status
  value : List Byte
  deriving DecidableEq, Repr

/-- The Ontan engine after reset. -/
def OntState.reset : OntState :=
  { mii := .reset, i3c := .reset, inBand := .reset, i3cAnswer := none, last := none, relays := [], status := .ok, value := [] }

/-- The session of a carrier. -/
def OntState.session (o : OntState) : Carrier → Session
  | .mii => o.mii | .i3c => o.i3c | .inBand => o.inBand

/-- The engine with a carrier's session replaced. -/
def OntState.withSession (o : OntState) (c : Carrier) (x : Session) : OntState :=
  match c with
  | .mii => { o with mii := x } | .i3c => { o with i3c := x } | .inBand => { o with inBand := x }

/-- The cadence counter and its servo (R46, R402 to R407). -/
structure Cadence where
  /-- Nanoseconds, 64 bits. -/
  ns : Nat
  /-- The 16 fraction bits. -/
  frac : Nat
  valid : Bool
  /-- Where in the cycle of five increments the counter stands. -/
  phase : Nat
  /-- The adjustment *A* of R402. -/
  rate : Int
  /-- TCLK cycles for which TRF_CADENCE_OUT stays high. -/
  outHigh : Nat
  /-- Consecutive exchanges within the bound of R405. -/
  good : Nat
  /-- Missed exchanges in a row. -/
  missed : Nat
  /-- The follower uses its alternate parent. -/
  onAlt : Bool
  /-- The exchange number of the outstanding REQ, and its t1. -/
  exchange : Nat
  t1 : Option Nat
  /-- The follower runs free (R405). -/
  free : Bool
  /-- `HIER_CADENCE_SET` has been written in the root role (R407). -/
  set : Bool
  deriving DecidableEq, Repr

/-- The counter after reset: zero and not valid. -/
def Cadence.reset : Cadence :=
  { ns := 0, frac := 0, valid := false, phase := 0, rate := 0, outHigh := 0, good := 0, missed := 0, onAlt := false,
    exchange := 0, t1 := none, free := false, set := false }

end Sys2Proof.Machine
end

