-- ==== Sys2Proof/Machine/NetTypes.lean ====
section
/-! DEFINITION. Plain data of links, packets and the transaction layer (ch. 2, 3 and 4). -/
namespace Sys2Proof.Machine
open Sys2Proof Sys2Proof.Bits

/-! ### Links -/

/-- Why a link went down, in the order of their codes (R92). -/
inductive DownCause where
  | lane | framing | silence | errorRate | replayLimit | pause | partner | command
  deriving DecidableEq, Repr

/-- The code of a cause (R92). -/
def DownCause.code : DownCause → Nat
  | .lane => 1 | .framing => 2 | .silence => 3 | .errorRate => 4 | .replayLimit => 5 | .pause => 6 | .partner => 7
  | .command => 8

/-- Training stages (R86). -/
inductive TrainStage where
  | idle | detect | align | exchange
  deriving DecidableEq, Repr

/-- The code of a stage in `LINK_TRAIN_STAGE` (R100). -/
def TrainStage.code : TrainStage → Nat
  | .idle => 0 | .detect => 1 | .align => 2 | .exchange => 3

/-- Unit kinds (R64). -/
inductive UnitKind where
  | data | replayed | control | idle
  deriving DecidableEq, Repr

/-- A data unit's contents: what a sequence number names (R64, R65). -/
structure UnitData where
  /-- The first packet head's slot, 31 for none. -/
  firstHead : Nat
  /-- Valid slots, 1 to 31. -/
  fill : Nat
  /-- The valid slots, 64 bits each. -/
  slots : List Nat
  deriving DecidableEq, Repr

/-- Control records (R73). -/
inductive CtlRecord where
  | empty
  | ack (cum : Nat)
  | sack (start count : Nat)
  | nack (start count : Nat)
  | ident (chip link epoch lanes : Nat)
  | version (maxMajor maxMinor altMajor altMinor caps : Nat)
  | confirm (resume : Bool) (txNext epoch : Nat)
  /-- A reserved type, or a COUNT that R73 treats as one. -/
  | reserved
  deriving DecidableEq, Repr

/-- A flow unit as it is sent. -/
structure FlowUnit where
  kind : UnitKind
  xoff : Bool
  /-- Sequence of a data or replayed unit; 0 otherwise. -/
  seq : Nat
  data : UnitData
  /-- Records of a control unit. -/
  records : List CtlRecord
  deriving DecidableEq, Repr

/-- A unit in the replay buffer (R77 to R79). -/
structure ReplayEntry where
  seq : Nat
  data : UnitData
  /-- Replays made. -/
  replays : Nat
  /-- Position of its first slot among all slots queued for the link. -/
  pos : Nat
  /-- Waiting to be replayed at a boundary. -/
  due : Bool
  deriving DecidableEq, Repr

/-- A slot of a queue: 64 bits, and what is known of it. -/
structure Flit where
  bits : Nat
  /-- A packet's head begins in it: known of every slot sent, and of the first head that a received unit marks. -/
  head : Bool
  /-- Received before the first head that its unit marks, or in a unit that marks none: no head begins in it (R65). -/
  cont : Bool
  deriving DecidableEq, Repr

/-- What a position has shown in the present training attempt (R84, R86). -/
structure Position where
  ready : Bool
  /-- Consecutive good words with consecutive counts. -/
  good : Nat
  /-- TX_COUNT of the last word. -/
  count : Nat
  locked : Bool
  /-- The partner's position, from LANE_POS. -/
  partner : Nat
  /-- READY words seen. -/
  readyWords : Nat
  deriving DecidableEq, Repr

/-- A position that has shown nothing. -/
def Position.blank : Position := { ready := false, good := 0, count := 0, locked := false, partner := 0, readyWords := 0 }

/-- The identity and agreement of an Active period (R94). -/
structure Partner where
  chip : Nat
  link : Nat
  epoch : Nat
  version : Nat
  caps : Nat
  single : Bool
  deriving DecidableEq, Repr

/-- The settings that a link read when it last trained (R99). -/
structure LinkSettings where
  pauseTimeout : Nat
  windowLog2 : Nat
  errThreshold : Nat
  freewheel : Nat
  ackCount : Nat
  replayLimit : Nat
  xoffLevel : Nat
  xonLevel : Nat
  capsMask : Nat
  laneThreshold : Nat
  retries : Nat
  deriving DecidableEq, Repr

/-- Opcodes of R107. -/
inductive Opcode where
  | loadReq | loadRsp | store | copy | atomicReq | atomicRsp | gatherReq | scatter | completion | negCompletion
  | windowReq | windowGrant | tallyExp | tallyChunk | gatherChunk | collAbort | attendReq | attendPart | ontan
  | imageLoad | barrier | cadence | snapshot | resetBcast
  deriving DecidableEq, Repr

/-- The code of an opcode (R107). -/
def Opcode.code : Opcode → Nat
  | .loadReq => 0x01 | .loadRsp => 0x02 | .store => 0x03 | .copy => 0x04 | .atomicReq => 0x05 | .atomicRsp => 0x06
  | .gatherReq => 0x07 | .scatter => 0x08 | .completion => 0x09 | .negCompletion => 0x0A | .windowReq => 0x0B
  | .windowGrant => 0x0C | .tallyExp => 0x20 | .tallyChunk => 0x21 | .gatherChunk => 0x22 | .collAbort => 0x23
  | .attendReq => 0x30 | .attendPart => 0x31 | .ontan => 0x40 | .imageLoad => 0x41 | .barrier => 0x50
  | .cadence => 0x51 | .snapshot => 0x52 | .resetBcast => 0x53

/-- Every opcode. -/
def Opcode.all : List Opcode :=
  [.loadReq, .loadRsp, .store, .copy, .atomicReq, .atomicRsp, .gatherReq, .scatter, .completion, .negCompletion,
   .windowReq, .windowGrant, .tallyExp, .tallyChunk, .gatherChunk, .collAbort, .attendReq, .attendPart, .ontan,
   .imageLoad, .barrier, .cadence, .snapshot, .resetBcast]

/-- A packet: the header fields of R104 and R105 and its payload of `PAY_LEN` bytes. -/
structure Packet where
  /-- Data class; control otherwise. -/
  data : Bool
  mcast : Bool
  ordered : Bool
  ltag : Bool
  op : Opcode
  job : Nat
  dest : Nat
  src : Nat
  tag : Nat
  gen : Nat
  seq : Nat
  destOffset : Nat
  counter : Nat
  countEn : Bool
  countUnit : Bool
  opArg : Nat
  payload : List Byte
  deriving DecidableEq, Repr

/-- The packet that a link's receiver is assembling (R109, R128). -/
structure Assembly where
  /-- Flits received of it, in order. -/
  flits : List Nat
  /-- Flits still due; none before the first has arrived. -/
  due : Nat
  /-- Checks 1 to 4 have passed. -/
  admitted : Bool
  /-- Checks 1 to 4 have dropped and counted it. -/
  dropped : Bool
  deriving DecidableEq, Repr

/-- One link (R60 to R101). -/
structure LinkState where
  active : Bool
  single : Bool
  stage : TrainStage
  /-- LIP_PHY_RST_N. -/
  phyRstN : Bool
  heldDown : Bool
  /-- The freewheel interval runs. -/
  freewheel : Bool
  /-- A training attempt is due (R85) or waits its 1 ms (R88). -/
  trainDue : Bool
  /-- Consecutive failed attempts. -/
  attempts : Nat
  /-- Active since the link epoch last changed (R95). -/
  wasActive : Bool
  /-- The stored identity of the last Active period. -/
  stored : Option Partner
  set : LinkSettings
  version : Nat
  caps : Nat
  /-- Failed positions, bits 0 to 4 (R96, R97). -/
  failed : Nat
  /-- Chosen positions, ascending: logical lanes in order (R87). -/
  chosen : List Nat
  positions : List Position
  /-- This side sets SINGLE in its training words (R98). -/
  offerSingle : Bool
  /-- The partner's IDENT, VERSION and CONFIRM of this attempt. -/
  gotIdent : Option (Nat × Nat × Nat × Nat)
  gotVersion : Option (Nat × Nat × Nat × Nat × Nat)
  sentConfirm : Option Bool
  /-- IDENT and VERSION, or CONFIRM, records due to be sent. -/
  identDue : Bool
  confirmDue : Bool
  /-- Sequence number of the next new data unit. -/
  txNext : Nat
  replay : List ReplayEntry
  /-- Slots queued for new data units. -/
  txQueue : List Flit
  /-- Position of the first queued slot among all slots queued for the link. -/
  txPos : Nat
  /-- Packets with a slot queued or not yet freed: position of the head, slots, packet. -/
  txPkts : List (Nat × Nat × Packet)
  /-- The partner's XOFF is in effect. -/
  xoffIn : Bool
  /-- ACK and SACK records are due. -/
  ackDue : Bool
  /-- NACK runs due: start and count. -/
  nackDue : List (Nat × Nat)
  /-- NEXT (R68). -/
  next : Nat
  /-- Missing sequence numbers, oldest first. -/
  missing : List Nat
  /-- Held units: sequence and contents. -/
  held : List (Nat × UnitData)
  /-- This side sets XOFF (R80). -/
  xoffOut : Bool
  badRun : Nat
  /-- Units received, and bad units, in the current error window (R83). -/
  winUnits : Nat
  laneErrs : List Nat
  /-- Data or replayed units received since the last ACK. -/
  sinceAck : Nat
  ackTimer : Bool
  /-- Delivered slots not yet taken by the packet layer: bits and head mark. -/
  rxFlits : List Flit
  /-- The packet in progress. -/
  asm : Option Assembly
  /-- Flits are discarded up to the next marked head (R130). -/
  skip : Bool
  /-- Packet heads seen in each direction since Active (R132). -/
  rxHeads : Nat
  txHeads : Nat
  /-- The unit sent at the last boundary. -/
  lastSent : Option FlowUnit
  deriving DecidableEq, Repr

/-! ### Packets -/

/-- A packet given to the derailleur and not yet on a link (R118, R131). -/
structure Waiting where
  pkt : Packet
  /-- The context whose pointer it uses; none for management packets. -/
  ctx : Option Nat
  /-- The logical port of the previous attempt, excluded when another candidate exists (R121). -/
  exclude : Option Nat
  deriving DecidableEq, Repr

/-- The pin of a source and destination pair (R123). -/
structure Pin where
  src : Nat
  dest : Nat
  port : Nat
  link : Nat
  deriving DecidableEq, Repr

/-- The packet layer (R103 to R144). -/
structure PktState where
  /-- Packets that wait for the derailleur, in issue order. -/
  wait : List Waiting
  /-- Rotating pointers of contexts (R119); key 64 is the management job's. -/
  ptr : Table Nat
  /-- Rotating pointers of logical ports over member links (R120). -/
  portPtr : Table Nat
  pins : List Pin
  /-- References on chip numbers (R113). -/
  refs : Table Nat
  /-- Bound chips of each context, for release at close. -/
  bound : Table (List Nat)
  /-- A bind in progress: contexts. -/
  binding : List Nat
  /-- A route load in progress. -/
  loading : Bool
  /-- A drain update in progress: chip and new mask. -/
  drain : Option (Nat × Nat)
  /-- Packets held by the drain (R137). -/
  drainHeld : List Waiting
  /-- Packets that failed within the block, each with its reason of R110: those that a flush has discarded (R95) and those
  without a path (R118). -/
  lost : List (Packet × Nat)
  /-- Member sets that take effect at each link's next boundary (R116), by logical port. -/
  members : Table Nat
  /-- `CTX_ORDERED` as it stood when a context last had no transaction outstanding (R125). -/
  ordered : Table Nat
  deriving DecidableEq, Repr

/-! ### The transaction layer -/

/-- Where a landing range or a local source lies (R149). -/
inductive LocalSpace where
  | spad | mem
  deriving DecidableEq, Repr

/-- What asked for a transaction. -/
inductive Owner where
  /-- A descriptor of a core's DMA engine, by its number. -/
  | dma (core desc : Nat)
  /-- A far line fill for a core's control core. -/
  | farFill (core : Nat)
  /-- A far write-back, by its number. -/
  | farWb (core id : Nat)
  /-- An attend descriptor of a core (R345). -/
  | attend (core desc : Nat)
  /-- The image push (R293). -/
  | imagePush
  deriving DecidableEq, Repr

/-- States of a `SEQ` (R165). -/
inductive SeqPhase where
  /-- Not sent yet. -/
  | unsent
  | waiting
  /-- Backing off after a NEG. -/
  | backoff
  /-- Its timer is stopped by PARKED. -/
  | parked
  | done
  | failed (code : Nat)
  deriving DecidableEq, Repr

/-- One request packet of a transaction (R165). -/
structure SeqState where
  phase : SeqPhase
  /-- The request packet. -/
  pkt : Packet
  /-- Attempts outstanding. -/
  outstanding : Nat
  /-- Attempts made that count toward `RMT_RETRY_LIMIT`. -/
  attempts : Nat
  /-- TORN, CHECK and BUSY NEGs met. -/
  negs : Nat
  /-- BUSY reissues made. -/
  busies : Nat
  /-- The logical port of the last attempt. -/
  port : Option Nat
  /-- It may leave only within a granted slot (R164). -/
  needGrant : Bool
  /-- Its last attempt used a granted slot. -/
  viaGrant : Bool
  /-- The reissue counts as an attempt toward the limit. -/
  pendingCount : Bool
  deriving DecidableEq, Repr

/-- One response piece of a LOAD_REQ or a GATHER_REQ: where it lands (R153). -/
structure Piece where
  seq : Nat
  addr : Nat
  len : Nat
  /-- Landing in local memory: the pinned local offsets and lengths (R160). -/
  parts : List (Nat × Nat)
  deriving DecidableEq, Repr

/-- What a transaction asks for, which decides how its responses land. -/
inductive TxnKind where
  | load | push | atomic | gather | scatter | attend | image | far
  deriving DecidableEq, Repr

/-- A tracker entry (R159 to R168). -/
structure Txn where
  tag : Nat
  ctx : Nat
  gen : Nat
  dest : Nat
  kind : TxnKind
  owner : Owner
  /-- Its place among the transactions of its descriptor. -/
  ord : Nat
  space : LocalSpace
  /-- Landing pieces not yet landed: old-value slot, response pieces or elements. -/
  pieces : List Piece
  seqs : List (Nat × SeqState)
  /-- The second packet of a 64-bit CAS, which travels with `SEQ` 0 (R155). -/
  cas : Option Packet
  /-- Landed data was poisoned. -/
  poisoned : Bool
  /-- A `SEQ` was reissued or failed: the entry is quarantined when it ends. -/
  tainted : Bool
  quarantined : Bool
  /-- Every item of its plan has been prepared. -/
  complete : Bool
  deriving DecidableEq, Repr

/-- One request packet still to be prepared: its local range is read into the payload, or reserved for what returns. -/
structure PlanItem where
  seq : Nat
  addr : Nat
  len : Nat
  reads : Bool
  pkt : Packet
  deriving DecidableEq, Repr

/-- A transaction not yet wholly issued (R147, R159, R170). -/
structure TxnPlan where
  ctx : Nat
  /-- Partition of the issuing engine. -/
  part : Nat
  dest : Nat
  kind : TxnKind
  owner : Owner
  ord : Nat
  space : LocalSpace
  /-- The tracker entry, once obtained. -/
  tag : Option Nat
  items : List PlanItem
  cas : Option Packet
  deriving DecidableEq, Repr

/-- A remote descriptor in progress (R149, R151). -/
structure Desc where
  id : Nat
  core : Nat
  ctx : Nat
  /-- RMT_OP, or 0x08 for an attend descriptor. -/
  op : Nat
  peer : Nat
  statusEn : Bool
  statusAddr : Nat
  localCountEn : Bool
  localCounter : Nat
  /-- Transactions not yet ended. -/
  left : Nat
  donePkts : Nat
  /-- First failing index and its code. -/
  fail : Option (Nat × Nat)
  poisoned : Bool
  /-- Attend: pieces that have landed, bytes expected, output address and its space. -/
  att : Option (List Nat × Nat × Nat × LocalSpace)
  /-- The result timer runs (R358). -/
  attTimer : Bool
  /-- The TAG of the attend transaction. -/
  attTag : Nat
  deriving DecidableEq, Repr

/-- The window toward a destination chip (R164). -/
structure Window where
  /-- Granted slots unused. -/
  granted : Nat
  /-- A WINDOW_REQ is outstanding. -/
  asked : Bool
  /-- Request packets that wait: tag and SEQ. -/
  queue : List (Nat × Nat)
  /-- Release tags to send to this chip: tag and generation, with the job. -/
  releases : List (Nat × Nat × Nat)
  deriving DecidableEq, Repr

/-- A window that has sent nothing. -/
def Window.idle : Window := { granted := 0, asked := false, queue := [], releases := [] }

/-- What a finished completion-cache entry answers (R167). -/
inductive CacheResult where
  /-- Still executing. -/
  | busy
  | completion
  | old (v : Nat)
  | neg (code : Nat)
  deriving DecidableEq, Repr

/-- A completion-cache entry (R167). -/
structure CacheEntry where
  src : Nat
  tag : Nat
  gen : Nat
  seq : Nat
  job : Nat
  result : CacheResult
  deriving DecidableEq, Repr

/-- A completion mask being gathered (R157). -/
structure CmplMask where
  src : Nat
  tag : Nat
  gen : Nat
  job : Nat
  ctx : Nat
  seqs : List Nat
  deriving DecidableEq, Repr

/-- A packet, or one element of a gather or scatter, parked at the target (R171, R188). -/
structure Parked where
  pkt : Packet
  ctx : Nat
  /-- The partition in whose cache it is translated (R184). -/
  part : Nat
  /-- The element, 0xFF for a whole packet. -/
  elem : Nat
  /-- The second packet of a 64-bit CAS (R155). -/
  cmp : Option Packet
  deriving DecidableEq, Repr

/-- The transaction layer (R159 to R171). -/
structure RmtState where
  txns : List Txn
  plans : List TxnPlan
  descs : List Desc
  /-- Number of the next descriptor. -/
  nextDesc : Nat
  windows : Table Window
  /-- Slots granted to each source chip and not yet used. -/
  granted : Table Nat
  /-- Source chips whose WINDOW_REQ is pending: chip, job and slots asked. -/
  pendingReqs : List (Nat × Nat × Nat)
  cache : List CacheEntry
  /-- Lone parts of 64-bit CAS (R155). -/
  casParts : List Packet
  masks : List CmplMask
  parked : List Parked
  deriving DecidableEq, Repr

end Sys2Proof.Machine
end

