-- ==== Sys2Proof/Machine/CoreTypes.lean ====
section
/-! DEFINITION. Plain data of the cores: engines, control core, far line caches and the directory (ch. 6, 7, 11, 16),
power (ch. 14) and tracing (ch. 16). -/
namespace Sys2Proof.Machine
open Sys2Proof Sys2Proof.Bits

/-- Why the control core's present instruction has not retired (R515). -/
inductive Stall where
  | none
  /-- A translation fault is outstanding (R188). -/
  | fault
  /-- WAIT: semaphore and threshold (R246). -/
  | waitSem (sem thr : Nat)
  /-- WAITC: counter and threshold (R251). -/
  | waitCnt (cnt thr : Nat)
  /-- A release waits for write-backs (R247). -/
  | release
  /-- FAR_FLUSH, FAR_DROP or FENCE waits for its write-backs (R244). -/
  | maint
  /-- The command queue is full (R205). -/
  | queueFull
  /-- A far fill or ownership (R259, R260). -/
  | far
  /-- The end of the task waits for the release of R247 on the core's engines. -/
  | ended
  deriving DecidableEq, Repr

/-- The stall state of a program-counter sample, codes 0 to 5 (R515); a halt is judged apart. -/
def Stall.code : Stall → Nat
  | .none => 0 | .fault => 2 | .waitSem .. => 3 | .waitCnt .. => 4 | .release => 5 | .maint => 5 | .queueFull => 6 | .far => 7
  | .ended => 5

/-- The task that a core runs. -/
structure Running where
  ctx : Nat
  /-- The task's number in the model. -/
  task : Nat
  /-- Local offset of the image home; 0 for a task without an image. -/
  home : Nat
  codeLen : Nat
  /-- Trigger slots that the image declares (R291). -/
  decl : Nat
  /-- STEP and `JOB_SEED` as read when the task began (R235). -/
  step : Nat
  seed : Nat
  /-- The footprint: first byte and length (R278). -/
  spadBase : Nat
  spadLen : Nat
  /-- The code of the END that this instance executed. -/
  ended : Option Nat
  /-- DMA or COLLECTIVE task: the context offset of its descriptor, while it is still to be read (R282). -/
  arg : Option Nat
  /-- Matrix busy cycles of the core when the task started (R514). -/
  mmStart : Nat
  deriving DecidableEq, Repr

/-- A check-value unit (R387). -/
structure CvUnit where
  alg : Nat
  reg : Nat
  counter : Nat
  alive : Bool
  deriving DecidableEq, Repr

/-- A check-value unit at the start of a task: CRC-32C with its initial register (R387). -/
def CvUnit.reset : CvUnit := { alg := 0, reg := 0xFFFFFFFF, counter := 0, alive := false }

/-- An accumulator bank (R204, R217 to R219). -/
structure Bank where
  /-- Elements by 256 × row + column; an unlisted element is zero. -/
  cells : Table Word32
  accSat : Bool
  poison : Bool
  /-- The contents are INT32 sums. -/
  int : Bool
  deriving DecidableEq, Repr

/-- A bank that holds zeros. -/
def Bank.zero : Bank := { cells := [], accSat := false, poison := false, int := false }

/-- A matrix descriptor whose products are in its bank (R217). -/
structure MmRun where
  bank : Nat
  emit : Bool
  doneSem : Option Nat
  deriving DecidableEq, Repr

/-- A pass whose rows have streamed; what it writes at its end (R227, R228). -/
structure VpRun where
  /-- Where the reduction goes, and its bytes with their poison marks. -/
  red : Option (Nat × List (Byte × Bool))
  summary : Option (Nat × List Byte)
  /-- The tile bank it releases. -/
  bank : Option Nat
  doneSem : Option Nat
  deriving DecidableEq, Repr

/-- A local copy whose bytes have moved (R257). -/
structure CopyRun where
  doneSem : Option Nat
  /-- The counter it advances, and by how much. -/
  counter : Option (Nat × Nat)
  /-- The end code of a copy that failed. -/
  error : Option Nat
  deriving DecidableEq, Repr

/-- Whether a control core runs or is halted (R517, R518). -/
inductive Halt where
  | running | draining | halted
  deriving DecidableEq, Repr

/-- One core (R204). -/
structure CoreState where
  /-- X1 to X31; an unlisted register is zero. -/
  regs : Table Word64
  /-- Byte offset in the code. -/
  pc : Nat
  /-- Far windows FW0 to FW15: ranks (R242). -/
  windows : Table Nat
  /-- Mask registers M1 to M7, 256 bits each (R226). -/
  masks : Table Nat
  cvs : List CvUnit
  stall : Stall
  run : Option Running
  /-- Command queues of the matrix, vector and DMA engines, the head first (R205). -/
  mq : List (List Byte)
  vq : List (List Byte)
  dq : List (List Byte)
  mm : Option MmRun
  vp : Option VpRun
  copies : List CopyRun
  bank0 : Bank
  bank1 : Bank
  /-- Finished tiles: bank numbers, oldest first (R219). -/
  tiles : List Nat
  /-- The matrix array is gated (R477). -/
  gated : Bool
  /-- Matrix busy cycles of the core. -/
  mmBusy : Nat
  halt : Halt
  /-- One instruction is to execute, and then the core halts (R518). -/
  step : Bool
  /-- The instruction at the halt point does not hit again (R518). -/
  pass : Bool
  deriving DecidableEq, Repr

/-- A core after reset: nothing runs, and the array is gated (R474, R477). -/
def CoreState.reset : CoreState :=
  { regs := [], pc := 0, windows := [], masks := [], cvs := List.replicate 8 .reset, stall := .none, run := none,
    mq := [], vq := [], dq := [], mm := none, vp := none, copies := [], bank0 := .zero, bank1 := .zero, tiles := [],
    gated := true, mmBusy := 0, halt := .running, step := false, pass := false }

/-! ### Far lines -/

/-- The name of a far line (R258). -/
structure LineName where
  job : Nat
  chip : Nat
  /-- Bits [47:6] of the offset. -/
  line : Nat
  deriving DecidableEq, Repr

/-- A line in a far line cache (R258). -/
structure FarLine where
  core : Nat
  name : LineName
  owned : Bool
  data : List Byte
  /-- Mask of dirty bytes. -/
  dirty : Nat
  poison : Bool
  /-- Granted, and the access that asked for it is not yet performed (R265). -/
  fresh : Bool
  deriving DecidableEq, Repr

/-- A request that waits at a directory bank (R263, R264). -/
structure DirReq where
  core : Nat
  ctx : Nat
  name : LineName
  own : Bool
  deriving DecidableEq, Repr

/-- A fill granted and not yet returned (R259). -/
structure FarFill where
  core : Nat
  ctx : Nat
  name : LineName
  own : Bool
  /-- The bytes that returned, and whether they are poisoned. -/
  data : Option (List Byte × Bool)
  /-- The status with which it ended. -/
  failed : Option Nat
  deriving DecidableEq, Repr

/-- A write-back whose STORE is not complete: the bank's buffer holds the line (R261, R264). -/
structure FarWb where
  id : Nat
  core : Nat
  ctx : Nat
  name : LineName
  data : List Byte
  poison : Bool
  /-- First byte and length of the run of dirty bytes that the STORE carries. -/
  first : Nat
  len : Nat
  /-- The status with which its STORE ended. -/
  ended : Option Nat
  deriving DecidableEq, Repr

/-- The far line caches and the directory. -/
structure FarState where
  /-- Lines, least recently used first. -/
  lines : List FarLine
  reqs : List DirReq
  fills : List FarFill
  wbs : List FarWb
  deriving DecidableEq, Repr

/-! ### Power -/

/-- A release of a wake or of a ramp that waits for its FORECAST (R479). -/
inductive Release where
  | wake (core : Nat)
  | ramp (core : Nat)
  deriving DecidableEq, Repr

/-- The governor and wake rationing (R468 to R479). -/
structure PowerState where
  tokens : Nat
  /-- Wakes that wait for a token, in request order. -/
  wakes : List Nat
  /-- Cores that power up. -/
  waking : List Nat
  /-- Ramps in progress, and those that wait, in request order. -/
  ramping : List Nat
  ramps : List Nat
  /-- Consecutive intervals with *P* below *B* − `PWR_HYST`. -/
  under : Nat
  /-- Consecutive intervals with *P* above *B* while every Active core is at level 1. -/
  overCount : Nat
  /-- *P* of the last interval, in units of 1/1600 mW. -/
  est : Nat
  /-- The effective budget, the hysteresis and the caps other than 16 that the present interval uses (R472). -/
  budget : Nat
  hyst : Nat
  caps : Table Nat
  /-- The last FORECAST sent, in units of 0.25 W. -/
  forecast : Nat
  /-- The release that waits for PMI_REQ_ACK. -/
  held : Option Release
  /-- The release that a FORECAST has cleared. -/
  cleared : Option Release
  deriving DecidableEq, Repr

/-! ### Tracing -/

/-- The trace writer (R513). -/
structure TraceState where
  /-- Records that wait in the block buffer, oldest first. -/
  buffer : List (List Byte)
  /-- Records dropped since the previous one written. -/
  dropped : Nat
  deriving DecidableEq, Repr

end Sys2Proof.Machine
end

