-- ==== Sys2Proof/Machine/CtxTypes.lean ====
section
/-! DEFINITION. Plain data of contexts: submissions, tasks, triggers, images, collectives, attention, barriers and
broadcasts (ch. 8 to 12). -/
namespace Sys2Proof.Machine
open Sys2Proof Sys2Proof.Bits

/-! ### Task graphs -/

/-- An admitted task (R282, R284). -/
structure Task where
  /-- Number of the task in the model, in admission order. -/
  id : Nat
  /-- Ring index of its submission, and its index in the graph. -/
  sub : Nat
  index : Nat
  kind : Nat
  spadBase : Nat
  spadLen : Nat
  trackerMax : Nat
  entry : Nat
  cores : Nat
  arg : Nat
  /-- Enabled inputs: semaphore and threshold. -/
  ins : List (Nat × Nat)
  outs : List Nat
  taskId : Nat
  running : Bool
  /-- The first engine error: code, core, program counter. -/
  error : Option (Nat × Nat × Nat)
  /-- Decisions in which the task, the context's oldest ready one, was passed over (R286). -/
  passed : Nat
  deriving DecidableEq, Repr

/-- Why a submission fails: code byte 4 of R289, reason, task end code, task index, TASK_ID, core, program counter. -/
structure SubEnd where
  outcome : Nat
  reason : Nat
  code : Nat
  index : Nat
  taskId : Nat
  core : Nat
  pc : Nat
  deriving DecidableEq, Repr

/-- A submission read from the ring (R280, R283). -/
structure Submission where
  index : Nat
  /-- The task descriptors as the dispatcher read them, in index order. -/
  descs : List (List Byte)
  count : Nat
  vector : Bool
  result : Nat
  /-- Index of the next task to admit. -/
  next : Nat
  /-- Tasks ended. -/
  ended : Nat
  fail : Option SubEnd
  /-- Its completion record has been written. -/
  done : Bool
  deriving DecidableEq, Repr

/-- An armed trigger slot (R294). -/
structure Trig where
  watched : Nat
  counter : Bool
  sem : Nat
  thr : Nat
  deriving DecidableEq, Repr

/-- An image in a home (R291, R292). -/
structure Image where
  /-- It lies in home A. -/
  homeA : Bool
  codeLen : Nat
  decl : Nat
  serial : Nat
  deriving DecidableEq, Repr

/-! ### Collectives -/

/-- A tally or a 32-bit value (R308). -/
inductive Tally where
  | nan | pinf | ninf
  | fin (t : Int)
  deriving DecidableEq, Repr

/-- A block of a slice: agreed byte, poison, and up to 32 elements (R322). -/
structure Block where
  b : Nat
  poison : Bool
  elems : List Tally
  deriving DecidableEq, Repr

/-- What an owner has added of a slice (R314). -/
structure SliceSum where
  contrib : Nat
  check : Nat
  blocks : List Block
  deriving DecidableEq, Repr

/-- A chunk that its owner holds open (R314). -/
structure Chunk where
  k : Nat
  /-- FSUM: members whose exponent bytes are in. -/
  expContrib : Nat
  expBytes : List Byte
  /-- The exponent step is complete, or not needed. -/
  agreed : Bool
  /-- Slices by index. -/
  slices : Table SliceSum
  /-- Ledger: some slice untagged; some tag of another step; lowest tagged poison rank. -/
  untagged : Bool
  mismatch : Bool
  poisonRank : Nat
  deriving DecidableEq, Repr

/-- A collective of a member (R299 to R334). -/
structure Coll where
  ctx : Nat
  core : Nat
  /-- The COLLECTIVE task. -/
  task : Nat
  /-- The descriptor's 64 bytes. -/
  desc : List Byte
  group : Nat
  alive : Nat
  hash : Nat
  /-- Members and own rank. -/
  n : Nat
  rank : Nat
  step : Nat
  seed : Nat
  /-- Pinned input and output: local offsets and lengths (R305). -/
  inp : List (Nat × Nat)
  out : List (Nat × Nat)
  /-- Next own chunk to open; own chunks closed. -/
  next : Nat
  closed : Nat
  open_ : List Chunk
  /-- Chunks that wait for reduction-store space have been counted. -/
  waited : Bool
  /-- Chunks whose EXP_UP, and whose slices, this member has sent. -/
  expSent : List Nat
  sliceSent : List Nat
  /-- Ranks whose DONE has been received. -/
  dones : List Nat
  doneSent : Bool
  /-- ALL_GATHER: pieces landed, as 8 × chunk + piece; own chunks copied and sent. -/
  landed : List Nat
  ownSent : Bool
  /-- Chunk records written. -/
  records : Nat
  /-- The capture window that matches (R383). -/
  window : Option Nat
  /-- A step mismatch has been reported (R381). -/
  mismatch : Bool
  deriving DecidableEq, Repr

/-! ### Attention -/

/-- States of an attend slot (R351 to R357). -/
inductive SlotPhase where
  | assembling | queued | running | done
  deriving DecidableEq, Repr

/-- An attend slot in use (R351). -/
structure AttSlot where
  slot : Nat
  src : Nat
  tag : Nat
  gen : Nat
  job : Nat
  /-- The 64-byte attend header. -/
  header : List Byte
  /-- Pieces held, rising. -/
  pieces : List Nat
  phase : SlotPhase
  /-- Order in which slots became Queued. -/
  order : Nat
  /-- Some written piece was poisoned in memory. -/
  poison : Bool
  deriving DecidableEq, Repr

/-- A service in progress: the slots it serves, the older first (R353). -/
structure Service where
  core : Nat
  slots : List Nat
  deriving DecidableEq, Repr

/-! ### Hierarchy -/

/-- A tree entry (R399). -/
structure Tree where
  parent : Nat
  children : List Nat
  deriving DecidableEq, Repr

/-- A broadcast scheduled or forwarded (R413, R414). -/
structure Bcast where
  reset : Bool
  time : Nat
  seq : Nat
  late : Bool
  /-- The second copies are still to be sent (R413). -/
  again : Bool
  /-- The action has been taken. -/
  acted : Bool
  pkt : Packet
  deriving DecidableEq, Repr

/-! ### One context -/

/-- What a context holds beside its dictionary entries. -/
structure CtxState where
  subs : List Submission
  tasks : List Task
  /-- Ring index of the next entry to read. -/
  read : Nat
  trigs : Table Trig
  image : Option Image
  /-- The image under verification and the error that its check finds; 0 for none. -/
  loading : Option (Image × Nat)
  /-- The old image in use while state reads Exchanging. -/
  old : Option Image
  /-- The fill of R272: next offset and end. -/
  zero : Option (Nat × Nat)
  /-- Alive counters by group (R303). -/
  alives : Table Nat
  colls : List Coll
  slots : List AttSlot
  services : List Service
  trees : List Tree
  /-- The alternate tree is in use (R417). -/
  alt : Bool
  /-- The kind of the barrier arrived at: step barrier or plain. -/
  arrived : Option Bool
  /-- Model time of the arrival. -/
  arrivedAt : Nat
  /-- Children whose ARRIVE is in: chip and kind. -/
  arrivals : List (Nat × Bool)
  /-- ARRIVE has gone upward. -/
  sentUp : Bool
  bcasts : List Bcast
  /-- Sequence number of the next broadcast from this manager. -/
  nextBcast : Nat
  /-- Model time of the last KEEPALIVE. -/
  keepAt : Nat
  /-- Ledger: records allocated since the last step record; a record was dropped since the last one written. -/
  ledgerSince : Nat
  ledgerGap : Bool
  /-- Capture windows that have missed since arming. -/
  capMissed : List Nat
  deriving DecidableEq, Repr

/-- A context that holds nothing. -/
def CtxState.idle : CtxState :=
  { subs := [], tasks := [], read := 0, trigs := [], image := none, loading := none, old := none, zero := none,
    alives := [], colls := [], slots := [], services := [], trees := [], alt := false,
    arrived := none, arrivedAt := 0, arrivals := [], sentUp := false, bcasts := [], nextBcast := 0, keepAt := 0,
    ledgerSince := 0, ledgerGap := false, capMissed := [] }

/-- The dispatcher and what contexts share. -/
structure DispState where
  /-- The rotating context pointer (R286). -/
  ptr : Nat
  /-- Number of the next task. -/
  nextTask : Nat
  /-- Order of the next slot to become Queued. -/
  nextOrder : Nat
  /-- Early GRANTs: partition and packet (R318). -/
  early : List (Nat × Packet)
  /-- The image push of R293 runs. -/
  pushing : Bool
  deriving DecidableEq, Repr

end Sys2Proof.Machine
end

