-- ==== Sys2Proof/Machine/CommandTypes.lean ====
section
/-! DEFINITION. Operand types of the commands. -/
namespace Sys2Proof.Machine
open Sys2Proof Sys2Proof.Bits

/-- The reset inputs that release the block (R49, R50). -/
inductive ResetInput where
  | por | blk
  deriving DecidableEq, Repr

/-- What a JTAG scan does (R47): loads an instruction, or shifts a value of `width` bits through the selected
register. -/
inductive TapScan where
  | select (sel : TapSel)
  | shift (width value : Nat)
  deriving DecidableEq, Repr

/-- How a dictionary write reaches the block: its carrier, the level its request claims and the context it names
(R487, R488). -/
structure Via where
  carrier : Carrier
  level : Nat
  ctx : Nat
  deriving DecidableEq, Repr

/-- What an access does to a page (R181, R187). -/
inductive AccessKind where
  | read | write | atomic
  deriving DecidableEq, Repr

/-- How a suspect's turn ends (R454). -/
inductive TurnEnd where
  | cleared | untested | guilty
  deriving DecidableEq, Repr

end Sys2Proof.Machine
end

