-- ==== Sys2Proof/Syntax.lean ====
section
/-! DEFINITION. The commands of the block: one constructor for each row of the command table, with the operands the
rule of that row names. -/
namespace Sys2Proof
open Sys2Proof.Machine

/-- A command: a write or read of a register, an event on a port, the expiry of a timer of the block, or a step of
one of its engines. The comment of each constructor is the row's rule and summary. -/
inductive Instr where
  /-- R49: A low on POR_N that passes the 20 ns glitch filter resets everything, including the Grave latch, the sticky fault record and the straps. -/
  | porNAssert
  /-- R49: A low on BLK_RST_N that passes the glitch filter resets the block, but keeps the Grave latch, the sticky record and the debug region. -/
  | blkRstNAssert
  /-- R49: TRST_N resets the TAP controller and the IEEE 1687 network only. -/
  | trstNAssert
  /-- R50: The rise of POR_N or BLK_RST_N starts the 128-cycle reset stretcher in PCLK. -/
  | resetRelease (input : ResetInput)
  /-- R50: The stretcher ends after 128 PCLK cycles, and the clock detectors start. -/
  | resetStretcherEnd
  /-- R50: A clock is detected over 64 PCLK cycles, and its domain reset is released 8 of its own cycles later. -/
  | clockDetected (clock : ClockId)
  /-- R50: The internal tables of a detected domain finish clearing, and the block enters Configure, or Kickstand when the Grave latch is set. -/
  | tableClearComplete
  /-- R51: CCLK or FCLK is still undetected 1 ms after the stretcher ends, and the block enters Kickstand with fault CLK_ABSENT. -/
  | clkAbsentTimeout
  /-- R53: At the end of each 1,024-TCLK window, a clock measured out of range raises a Severe fault and acts on its domain. -/
  | clockMonitorWindow (clock : ClockId) (count : Nat)
  /-- R24: Once response space is held, the block presents a read, write or write-zeros request on a memory port, and it transfers when the controller is ready. -/
  | gmpRequestIssue (port : Nat) (tag : Nat) (op : GmpOp) (addr : Nat) (beats : Nat) (fence : Bool) (data : List GmpBeat) (ready : Bool)
  /-- R24: A write beat transfers on the write-data handshake, in request order. -/
  | gmpWriteDataBeat (port : Nat)
  /-- R25: A response beat arrives with a tag, a beat index and a status, and delivers data or completes a write. -/
  | gmpResponseBeat (port : Nat) (tag : Nat) (beat : Nat) (status : Nat) (data : List Byte)
  /-- R27: An outstanding tag's stall timer passes GMP_STALL_TIMEOUT: the request completes poisoned, GMP_STALL is raised and the tag is retired. -/
  | gmpStallTimeout (port : Nat) (tag : Nat)
  /-- R506: Writing 0 to a port's GMP_PORT_ENABLE bit disables the port. -/
  | gmpPortDisable (port : Nat)
  /-- R506: Writing 1 to a disabled port's bit resets the port and clears its retired tags once it is idle. -/
  | gmpPortEnable (port : Nat)
  /-- R40: A host write to a register-window word that has no behaviour of its own stores the value, or is answered with HCP_T_RERR when unmapped. -/
  | hcpRegisterWrite (offset : Nat) (value : Nat) (strobe : Nat)
  /-- R39: A write of RING_TAIL publishes new submission ring entries and wakes the dispatcher, or is counted as an error. -/
  | doorbellWrite (ctx : Nat) (tail : Nat)
  /-- R42: Writing 1 to IV_ACK clears IV_PENDING of a vector, unless an assertion occurs in the same cycle. -/
  | ivAck (vector : Nat) (asserted : Bool)
  /-- R42: Clearing IV_MASK on a pending vector writes its one message. -/
  | ivUnmask (vector : Nat)
  /-- R36: The block writes a fault record, an invalidation record or an interrupt message to host memory once HCP_I_READY allows it. -/
  | hcpInitiatorWrite
  /-- R41: The initiator side has stayed not ready for 1 ms, and one HCP_STALL is recorded. -/
  | hcpStallTimeout
  /-- R191: The host advances FQ_HEAD, which frees room for records that wait in the block. -/
  | fqHeadWrite (head : Nat)
  /-- R188: The host answers a fault identifier RETRY: cached entries are removed, the walk is repeated and the access replays. -/
  | fqResolveRetry (ident : Nat)
  /-- R188: The host answers a fault identifier REFUSE: the access fails, and XLT_REFUSED is raised. -/
  | fqResolveRefuse (ident : Nat)
  /-- R195: The host advances IQ_HEAD, which frees room for invalidation completion records. -/
  | iqHeadWrite (head : Nat)
  /-- R196: The host starts a range invalidation, which removes cached leaves and walk-cache entries and replays walks in progress. -/
  | invGo (ctx : Nat) (all : Bool) (ticket : Nat)
  /-- R196: Once every engine has acknowledged and every pinned transaction has ended, the block writes the completion record and advances IQ_TAIL. -/
  | invComplete
  /-- R495: An Ethernet frame arrives on the MII and is checked for EtherType, address and length before it is served. -/
  | ontanMiiFrame (frame : List Byte)
  /-- R496: The I3C master sends an Ontan message as one private write. -/
  | i3cPrivateWrite (message : List Byte)
  /-- R496: The master fetches an answer by private read, and the block NACKs until the answer is ready. -/
  | i3cPrivateRead
  /-- R496: The I3C target takes a dynamic address by SETDASA or ENTDAA, and reports its provisional ID. -/
  | i3cDynamicAddress (byStatic : Bool) (static : Nat) (addr : Nat)
  /-- R45: The bus enters an HDR mode, and the target ignores traffic until the HDR exit pattern. -/
  | i3cHdrEntry
  /-- R45: The HDR exit pattern returns the target to SDR operation. -/
  | i3cHdrExit
  /-- R45: SCL runs above 6.25 MHz, and the target stops responding and counts the event. -/
  | i3cSclTooFast
  /-- R407: A rising edge of TRF_CADENCE_IN lets a Root pulse steer A toward the nearest multiple of 1,048,576 ns, or is rejected. -/
  | trfCadenceInEdge
  /-- R479: The block presents a FORECAST, FLOOR or VID request on PMI, one at a time, in priority order. -/
  | pmiRequest
  /-- R48: PMI_REQ_ACK rises, the request ends, and any release held behind a FORECAST proceeds. -/
  | pmiReqAck
  /-- R48: No ACK has come 1 ms after PMI_REQ_VALID: the request is withdrawn and PMI_NOACK is recorded. -/
  | pmiNoackTimeout
  /-- R48: PMI_PGOOD falls while powered: PMI_PGOOD_LOST is raised, every core is throttled to level 1, and wakes are held. -/
  | pmiPgoodFall
  /-- R473: PMI_VR_ALERT_N falls: the alert budget applies from the next interval, and PWR_VR_ALERT is raised. -/
  | pmiVrAlertFall
  /-- R473: The alert input has stayed high for 100 µs, and the alert ends. -/
  | vrAlertEnd
  /-- R76: At each unit boundary, the transmitter sends a NACK or training control unit, a replay, an ACK control unit, a new data unit or an idle unit, in that priority. -/
  | transmitUnitBoundary (link : Nat)
  /-- R68: A unit headed as data is checked under seeds NEXT, NEXT+1 and NEXT-1, and is accepted, fills a gap, or is a bad unit. -/
  | dataUnitReceive (link : Nat) (raw : List Byte) (uncorr : List Nat)
  /-- R71: A replayed unit fills a gap, is discarded as a duplicate, or advances NEXT, according to its EXPLICIT_SEQ. -/
  | replayedUnitReceive (link : Nat) (raw : List Byte) (uncorr : List Nat)
  /-- R73: A control unit is received and each of its records is handled. -/
  | controlUnitReceive (link : Nat) (raw : List Byte) (uncorr : List Nat)
  /-- R66: An idle unit is checked, and its XOFF bit is taken. -/
  | idleUnitReceive (link : Nat) (raw : List Byte) (uncorr : List Nat)
  /-- R74: LINK_ACK_TIMER runs out after the first unacknowledged reception, and ACK and SACK records become due. -/
  | ackTimerExpire (link : Nat)
  /-- R78: An unfreed unit reaches LINK_REPLAY_TIMEOUT since its last transmission and is replayed, or the link goes down at the replay limit. -/
  | replayTimeout (link : Nat) (seq : Nat)
  /-- R70: No unit has arrived for 10 µs on an Active link, and it goes down with cause SILENCE. -/
  | silenceTimeout (link : Nat)
  /-- R82: XOFF has been in effect beyond LINK_PAUSE_TIMEOUT, and the link goes down with cause PAUSE. -/
  | pauseTimeout (link : Nat)
  /-- R96: A working lane's PHY_READY falls, or its uncorrectable count passes the threshold, and the link goes down with cause LANE. -/
  | laneFail (link : Nat) (position : Nat)
  /-- R85: The LINK_RETRAIN command starts training, and takes an Active link down with cause COMMAND. -/
  | linkRetrain (via : Via) (link : Nat)
  /-- R85: Setting LINK_ENABLE TRUE starts training. -/
  | linkEnableTrue (via : Via) (link : Nat)
  /-- R95: Setting LINK_ENABLE FALSE flushes at once and holds the link Down. -/
  | linkEnableFalse (via : Via) (link : Nat)
  /-- R86: A training attempt starts in Detect with LIP_PHY_RST_N low, and releases the reset after 1 µs. -/
  | trainingStart (link : Nat)
  /-- R86: Enough positions report PHY ready, Detect succeeds at D, and ALIGN words start. -/
  | detectSuccess (link : Nat) (ready : Nat)
  /-- R86: LINK_DETECT_TIMEOUT passes without Detect success, and the attempt fails. -/
  | detectTimeout (link : Nat)
  /-- R84: A training word arrives on a position, and counts toward lock, lane choice, deskew or READY exchange. -/
  | trainingWordReceive (link : Nat) (position : Nat) (word : Word128)
  /-- R86: D + 20 µs passes, and every position that has not locked counts as failed. -/
  | lockDeadline (link : Nat)
  /-- R86: The link is not Active by D + 100 µs, and the attempt fails. -/
  | trainingAttemptTimeout (link : Nat)
  /-- R86: Every 1 µs, IDENT, VERSION or CONFIRM is sent again until the partner's CONFIRM arrives. -/
  | trainingRecordRepeat (link : Nat)
  /-- R88: 1 ms after a failed attempt, a new attempt begins. -/
  | trainingRetryWait (link : Nat)
  /-- R95: The freewheel interval expires before the link is Active, and the side flushes. -/
  | freewheelExpire (link : Nat)
  /-- R119: A whole packet in the transmit buffer is given a port and link by the derailleur, or waits under the injection levels or for a freewheeling link. -/
  | packetInject (index : Nat)
  /-- R109: The last header flit of a packet arrives, and checks 1 to 4 drop or admit it. -/
  | packetHeaderArrive (link : Nat)
  /-- R109: The last flit of a packet arrives, check 5 is made, and the packet is handled by its opcode. -/
  | packetComplete (link : Nat)
  /-- R128: No flit of a packet has arrived for PKT_STALL_LIMIT, and the packet is torn. -/
  | pktStallTimeout (link : Nat)
  /-- R154: A target reads the requested range and answers with LOAD_RSP packets, or with BAD_REQ. -/
  | loadReqReceive (link : Nat) (pkt : Packet)
  /-- R153: A load response piece lands at its SEQ's local address, or is discarded as stale. -/
  | loadRspReceive (pkt : Packet)
  /-- R167: A STORE is admitted against a landing slot, matched against the completion cache, written, counted and completed. -/
  | storeReceive (link : Nat) (pkt : Packet)
  /-- R167: A COPY piece is admitted, written, counted and completed once. -/
  | copyReceive (link : Nat) (pkt : Packet)
  /-- R148: A target performs the atomic indivisibly, inserts a cache entry and answers with the old value. -/
  | atomicReqReceive (link : Nat) (pkt : Packet)
  /-- R148: The old value lands in the requester's slot, and the SEQ is done. -/
  | atomicRspReceive (pkt : Packet)
  /-- R171: A target serves each element as a LOAD_RSP, and parks any element that faults. -/
  | gatherReqReceive (link : Nat) (pkt : Packet)
  /-- R171: A target writes one scatter element, or parks it when it faults. -/
  | scatterReceive (link : Nat) (pkt : Packet)
  /-- R165: A completion mask marks the named SEQs done, and may end the transaction and the descriptor. -/
  | completionReceive (pkt : Packet)
  /-- R165: A negative completion reissues, stops the timer of, or fails the named SEQ according to its reason. -/
  | negCompletionReceive (pkt : Packet)
  /-- R164: A target takes the releases, and grants slots or keeps the request pending. -/
  | windowReqReceive (pkt : Packet)
  /-- R164: The source adds the granted slots to its window for that destination. -/
  | windowGrantReceive (pkt : Packet)
  /-- R164: Once slots free, the target sends one further WINDOW_GRANT for a pending request. -/
  | windowGrantDeferred (chip : Nat)
  /-- R145: A LOAD descriptor is issued as LOAD_REQ, after the checks at issue. -/
  | rmtLoad (core : Nat)
  /-- R145: A STORE descriptor is issued as one STORE packet. -/
  | rmtStore (core : Nat)
  /-- R147: A COPY_PUSH descriptor is split into transactions and COPY packets. -/
  | rmtCopyPush (core : Nat)
  /-- R147: A COPY_PULL descriptor is split into LOAD_REQ transactions. -/
  | rmtCopyPull (core : Nat)
  /-- R148: An ATOMIC descriptor is issued as one ATOMIC_REQ, or two for a 64-bit CAS. -/
  | rmtAtomic (core : Nat)
  /-- R170: A GATHER descriptor translates element ranges in order and issues one GATHER_REQ. -/
  | rmtGather (core : Nat)
  /-- R170: A SCATTER descriptor translates and issues one SCATTER packet per element. -/
  | rmtScatter (core : Nat)
  /-- R159: A waiting transaction obtains a tracker entry, reserves response space and its window, and sends its request packets. -/
  | transactionIssue (index : Nat)
  /-- R165: RMT_REQ_TIMEOUT passes for a SEQ with no response, and it is reissued on another port or fails with RETRIES. -/
  | rmtReqTimeout (tag : Nat) (seq : Nat)
  /-- R165: The backoff after TORN, CHECK or BUSY ends, and the SEQ is reissued. -/
  | rmtBackoffExpire (tag : Nat) (seq : Nat)
  /-- R165: A parked SEQ passes RMT_PARK_LIMIT and fails with PARK_LIMIT. -/
  | rmtParkLimit (tag : Nat) (seq : Nat)
  /-- R157: RMT_CMPL_COALESCE passes after the first packet of a transaction takes effect, and its COMPLETION mask is sent. -/
  | completionCoalesce (src : Nat) (tag : Nat) (gen : Nat)
  /-- R161: No request to the target has carried a pending release within RMT_RELEASE_DELAY, so it is sent in a WINDOW_REQ. -/
  | releaseDelay (chip : Nat)
  /-- R164: Granted slots unused for RMT_WIN_LEASE return to the pool. -/
  | windowLeaseExpire (chip : Nat)
  /-- R167: Cache entries reach RMT_CACHE_HOLD and are freed, raising RMT_CACHE_EXPIRED when no release had named them. -/
  | cacheHoldExpire (src : Nat) (tag : Nat) (gen : Nat)
  /-- R155: A lone 64-bit CAS part held for RMT_CACHE_HOLD is discarded without a reply. -/
  | casPartExpire (src : Nat) (tag : Nat) (gen : Nat)
  /-- R168: A quarantined tracker entry reaches RMT_TAG_QUARANTINE and is released and freed. -/
  | tagQuarantineExpire (tag : Nat)
  /-- R185: A translation miss walks the page-table levels with local memory reads once a walker is free. -/
  | pageWalk (part : Nat) (ctx : Nat) (offset : Nat) (access : AccessKind) (who : Accessor)
  /-- R191: A waiting fault record is written to the host ring once there is room, and FQ_TAIL advances. -/
  | faultRecordWrite
  /-- R190: A fault goes unanswered for XLT_SERVICE_TIMEOUT, is treated as refused, and raises XLT_SERVICE_LATE. -/
  | xltServiceTimeout (ctx : Nat) (offset : Nat) (kind : XltType)
  /-- R190: A held identifier is released after a further XLT_SERVICE_TIMEOUT. -/
  | faultIdHoldExpire (ident : Nat)
  /-- R194: Every XLT_ACC_FLUSH, pending access counts are added to the counter array by read-modify-write. -/
  | xltAccFlush
  /-- R200: Writing a context's root removes its cached entries and replays its walks, or is refused while a fault is unanswered. -/
  | xltPtRootWrite (via : Via) (ctx : Nat) (value : Nat)
  /-- R217: A MATMUL descriptor at the queue head is checked and runs its k blocks into an accumulator bank. -/
  | matmul (core : Nat)
  /-- R219: A MATMUL ends: the bank enters the finished-tile queue if EMIT is set, and DONE_SEM is released. -/
  | matmulEnd (core : Nat)
  /-- R221: A vector pass descriptor at the queue head is checked and streams its rows through the clause chain. -/
  | vectorPass (core : Nat)
  /-- R228: A pass ends: the reduction and summary are written, the tile bank is released, and DONE_SEM is released. -/
  | vectorPassEnd (core : Nat)
  /-- R257: A local copy descriptor is checked and copies between the scratchpad and local memory. -/
  | copyLocal (core : Nat)
  /-- R270: An UNWRITE descriptor clears the written and poison bits over its range. -/
  | unwrite (core : Nat)
  /-- R257: A local copy ends, and releases DONE_SEM and advances LOCAL_COUNTER on success. -/
  | localCopyEnd (core : Nat) (index : Nat)
  /-- R290: RD gets RA plus RB. -/
  | ccAdd (core : Nat) (rd : Fin 32) (ra : Fin 32) (rb : Fin 32)
  /-- R290: RD gets RA minus RB. -/
  | ccSub (core : Nat) (rd : Fin 32) (ra : Fin 32) (rb : Fin 32)
  /-- R290: RD gets RA AND RB. -/
  | ccAnd (core : Nat) (rd : Fin 32) (ra : Fin 32) (rb : Fin 32)
  /-- R290: RD gets RA OR RB. -/
  | ccOr (core : Nat) (rd : Fin 32) (ra : Fin 32) (rb : Fin 32)
  /-- R290: RD gets RA XOR RB. -/
  | ccXor (core : Nat) (rd : Fin 32) (ra : Fin 32) (rb : Fin 32)
  /-- R290: RD gets RA shifted left by RB. -/
  | ccShl (core : Nat) (rd : Fin 32) (ra : Fin 32) (rb : Fin 32)
  /-- R290: RD gets RA shifted right by RB, filling with zeros. -/
  | ccShr (core : Nat) (rd : Fin 32) (ra : Fin 32) (rb : Fin 32)
  /-- R290: RD gets RA shifted right by RB, filling with the sign. -/
  | ccSar (core : Nat) (rd : Fin 32) (ra : Fin 32) (rb : Fin 32)
  /-- R290: RD gets the low 64 bits of RA times RB. -/
  | ccMul (core : Nat) (rd : Fin 32) (ra : Fin 32) (rb : Fin 32)
  /-- R290: RD gets the high 64 bits of the unsigned product. -/
  | ccMulhu (core : Nat) (rd : Fin 32) (ra : Fin 32) (rb : Fin 32)
  /-- R290: RD gets the signed comparison RA < RB. -/
  | ccSlt (core : Nat) (rd : Fin 32) (ra : Fin 32) (rb : Fin 32)
  /-- R290: RD gets the unsigned comparison RA < RB. -/
  | ccSltu (core : Nat) (rd : Fin 32) (ra : Fin 32) (rb : Fin 32)
  /-- R290: RD gets RA plus the sign-extended immediate. -/
  | ccAddi (core : Nat) (rd : Fin 32) (ra : Fin 32) (imm : Fin 65536)
  /-- R290: RD gets RA AND the zero-extended immediate. -/
  | ccAndi (core : Nat) (rd : Fin 32) (ra : Fin 32) (imm : Fin 65536)
  /-- R290: RD gets RA OR the zero-extended immediate. -/
  | ccOri (core : Nat) (rd : Fin 32) (ra : Fin 32) (imm : Fin 65536)
  /-- R290: The immediate is inserted into half-word h of RD, and the other bits are kept. -/
  | ccHins (core : Nat) (rd : Fin 32) (half : Fin 4) (imm : Fin 65536)
  /-- R290: The immediate is written into half-word h of RD, and the other bits are cleared. -/
  | ccHnew (core : Nat) (rd : Fin 32) (half : Fin 4) (imm : Fin 65536)
  /-- R244: The control core loads 1, 2, 4 or 8 bytes from the scratchpad, local memory or far space. -/
  | ccLd (core : Nat) (size : Fin 4) (rd : Fin 32) (ra : Fin 32) (imm : Fin 65536)
  /-- R244: The control core stores 1, 2, 4 or 8 bytes in any space. -/
  | ccSt (core : Nat) (size : Fin 4) (rd : Fin 32) (ra : Fin 32) (imm : Fin 65536)
  /-- R244: The control core performs an atomic on 4 or 8 bytes in the atomic unit, in far space or in the scratchpad. -/
  | ccAmo (core : Nat) (code : Fin 16) (wide : Bool) (rd : Fin 32) (ra : Fin 32) (rb : Fin 32)
  /-- R246: A semaphore is increased by n, saturating, as a release. -/
  | ccSignal (core : Nat) (ra : Fin 32) (rb : Fin 32)
  /-- R246: A semaphore is written with v, as a release. -/
  | ccSet (core : Nat) (ra : Fin 32) (rb : Fin 32)
  /-- R246: The control core stalls until a semaphore is at least t. -/
  | ccWait (core : Nat) (ra : Fin 32) (rb : Fin 32)
  /-- R246: A stalled WAIT or WAITC is satisfied, acquires, and retires. -/
  | waitSatisfied (core : Nat)
  /-- R246: The value of a semaphore is returned. -/
  | ccRead (core : Nat) (rd : Fin 32) (ra : Fin 32)
  /-- R251: A completion counter is written. -/
  | ccCset (core : Nat) (ra : Fin 32) (rb : Fin 32)
  /-- R251: The value of a completion counter is returned, with no acquire. -/
  | ccCread (core : Nat) (rd : Fin 32) (ra : Fin 32)
  /-- R251: The core stalls until the counter minus t is not negative, and then acquires. -/
  | ccWaitc (core : Nat) (ra : Fin 32) (rb : Fin 32)
  /-- R244: Dirty bytes of overlapping far lines are written back, and the lines are kept. -/
  | ccFarFlush (core : Nat) (ra : Fin 32) (rb : Fin 32)
  /-- R244: Overlapping far lines are written back and then invalidated. -/
  | ccFarDrop (core : Nat) (ra : Fin 32) (rb : Fin 32)
  /-- R244: The core waits until every earlier write is performed. -/
  | ccFence (core : Nat)
  /-- R244: Every write-back of a FAR_FLUSH, FAR_DROP or FENCE has its COMPLETION, and the instruction retires. -/
  | farMaintenanceComplete (core : Nat)
  /-- R205: A descriptor is copied into the matrix queue as a release, stalling while the queue is full. -/
  | ccEnqMatrix (core : Nat) (ra : Fin 32)
  /-- R205: A descriptor is copied into the vector queue. -/
  | ccEnqVector (core : Nat) (ra : Fin 32)
  /-- R205: A descriptor is copied into the DMA queue. -/
  | ccEnqDma (core : Nat) (ra : Fin 32)
  /-- R290: Far window FWn is loaded with a rank from RA. -/
  | ccFarWindowSet (core : Nat) (window : Fin 16) (ra : Fin 32)
  /-- R226: Mask register Mn gets its first RA lanes set. -/
  | ccMaskSetCount (core : Nat) (mask : Fin 7) (ra : Fin 32)
  /-- R226: Mask register Mn is loaded from 32 bytes of scratchpad. -/
  | ccMaskSetSpad (core : Nat) (mask : Fin 7) (ra : Fin 32)
  /-- R294: A trigger slot is armed from a scratchpad record, and fires at once if its threshold is already reached. -/
  | ccTrigArm (core : Nat) (slot : Fin 16) (ra : Fin 32)
  /-- R294: A trigger slot is disarmed. -/
  | ccTrigDisarm (core : Nat) (slot : Fin 16)
  /-- R388: A check-value unit gets its algorithm and alive enable, and its register is reset. -/
  | ccCvInit (core : Nat) (unit : Fin 8) (rb : Fin 32)
  /-- R389: One byte is fed into a unit. -/
  | ccCvFeed1 (core : Nat) (unit : Fin 8) (rb : Fin 32)
  /-- R389: Two bytes are fed into a unit. -/
  | ccCvFeed2 (core : Nat) (unit : Fin 8) (rb : Fin 32)
  /-- R389: Four bytes are fed into a unit. -/
  | ccCvFeed4 (core : Nat) (unit : Fin 8) (rb : Fin 32)
  /-- R389: Eight bytes are fed into a unit. -/
  | ccCvFeed8 (core : Nat) (unit : Fin 8) (rb : Fin 32)
  /-- R388: RD gets the finalised register value. -/
  | ccCvFinal (core : Nat) (unit : Fin 8) (rd : Fin 32)
  /-- R388: RD gets the raw register. -/
  | ccCvGet (core : Nat) (unit : Fin 8) (rd : Fin 32)
  /-- R388: The register is loaded from X[RB]. -/
  | ccCvPut (core : Nat) (unit : Fin 8) (rb : Fin 32)
  /-- R388: RD gets the algorithm, the alive counter and the alive enable. -/
  | ccCvGeta (core : Nat) (unit : Fin 8) (rd : Fin 32)
  /-- R388: The algorithm, the alive counter and the enable are set from X[RB]. -/
  | ccCvPuta (core : Nat) (unit : Fin 8) (rb : Fin 32)
  /-- R390: The alive byte and the check are written at the end of a frame, and the register is reset. -/
  | ccCvAppend (core : Nat) (unit : Fin 8) (ra : Fin 32)
  /-- R391: A frame trailer is checked, and OK, BAD_CHECK, REPEAT or SKIP is returned. -/
  | ccCvCheck (core : Nat) (unit : Fin 8) (rd : Fin 32) (ra : Fin 32)
  /-- R392: A kind 3 ledger record is allocated from registers and a unit's value. -/
  | ccCvLedger (core : Nat) (unit : Fin 8) (ra : Fin 32) (rb : Fin 32)
  /-- R516: A type 2 trace record of kind BEGIN is allocated when the context is traced. -/
  | ccMarkBegin (core : Nat) (ra : Fin 32)
  /-- R516: A type 2 trace record of kind END is allocated. -/
  | ccMarkEnd (core : Nat) (ra : Fin 32)
  /-- R516: A type 2 trace record of kind POINT is allocated. -/
  | ccMarkPoint (core : Nat) (ra : Fin 32)
  /-- R290: Branch if RD equals RA. -/
  | ccBeq (core : Nat) (rd : Fin 32) (ra : Fin 32) (imm : Fin 65536)
  /-- R290: Branch if RD differs from RA. -/
  | ccBne (core : Nat) (rd : Fin 32) (ra : Fin 32) (imm : Fin 65536)
  /-- R290: Branch if RD < RA, signed. -/
  | ccBlt (core : Nat) (rd : Fin 32) (ra : Fin 32) (imm : Fin 65536)
  /-- R290: Branch if RD >= RA, signed. -/
  | ccBge (core : Nat) (rd : Fin 32) (ra : Fin 32) (imm : Fin 65536)
  /-- R290: Branch if RD < RA, unsigned. -/
  | ccBltu (core : Nat) (rd : Fin 32) (ra : Fin 32) (imm : Fin 65536)
  /-- R290: Branch if RD >= RA, unsigned. -/
  | ccBgeu (core : Nat) (rd : Fin 32) (ra : Fin 32) (imm : Fin 65536)
  /-- R290: Jump relative and link. -/
  | ccJal (core : Nat) (rd : Fin 32) (imm : Fin 65536)
  /-- R290: Jump to a register and link. -/
  | ccJr (core : Nat) (rd : Fin 32) (ra : Fin 32)
  /-- R287: The instance ends with an 8-bit code. -/
  | ccEnd (core : Nat) (imm : Fin 65536)
  /-- R259: A far line fill returns, and the line becomes Shared, or the load ends the task with FAR_FAILED. -/
  | farFillComplete (core : Nat)
  /-- R264: A directory bank orders a write-back, then grants a fill or ownership of one line per cycle by rotating priority. -/
  | directoryGrant (bank : Nat)
  /-- R261: A write-back STORE completes, or fails and raises FAR_WRITEBACK_FAIL. -/
  | farWritebackComplete (index : Nat)
  /-- R272: A context's local memory range is zero-filled with write-zero requests. -/
  | memZeroGo (via : Via) (ctx : Nat)
  /-- R272: The zero-fill ends Done, or Faulted at a translation fault. -/
  | memZeroComplete (ctx : Nat)
  /-- R275: A context's resources are checked, its windows zeroed and its generation advanced, and it becomes Open. -/
  | ctxOpen (via : Via) (ctx : Nat)
  /-- R279: A context with no admitted task is unbound, releases its resources and becomes Closed. -/
  | ctxClose (via : Via) (ctx : Nat)
  /-- R288: A Halted context returns to Open, and continues from the next ring entry. -/
  | ctxResume (via : Via) (ctx : Nat)
  /-- R277: An Open context's core set changes: added cores are usable at once, and removed cores are released when their task ends. -/
  | ctxCoresWrite (via : Via) (ctx : Nat) (mask : Nat)
  /-- R113: The bind command starts reading a context's rank table and tree entries. -/
  | ctxRouteBind (via : Via) (ctx : Nat)
  /-- R113: The bind ends Bound with chip references, or Refused with a code. -/
  | routeBindComplete (ctx : Nat)
  /-- R283: The dispatcher reads a ring entry and its graph, and checks every task before admitting any. -/
  | submissionRead (ctx : Nat)
  /-- R284: A task is admitted into a free task slot in ring and index order. -/
  | taskAdmit (ctx : Nat)
  /-- R286: Every 2 FCLK cycles the dispatcher starts the chosen ready task whose cores are free. -/
  | taskStart
  /-- R287: A task ends: on success its outputs are signalled, and on failure the context halts. -/
  | taskEnd (core : Nat)
  /-- R292: An image is copied from the stage into the inactive home and hashed. -/
  | ctxImageLoad (via : Via) (ctx : Nat)
  /-- R292: Verification ends: an invalid image is rejected, and a valid one reaches the exchange point. -/
  | imageVerifyComplete (ctx : Nat)
  /-- R293: The block sends an image in band as IMAGE_LOAD packets. -/
  | imgPushGo (via : Via)
  /-- R293: An IMAGE_LOAD packet is written at the stage and completed, or refused with BAD_REQ or BUSY. -/
  | imageLoadReceive (pkt : Packet)
  /-- R303: A COLLECTIVE task waits for earlier collectives on its group, checks its descriptor, takes ALIVE and pins its ranges. -/
  | collectiveStart (ctx : Nat) (task : Nat)
  /-- R314: An owner reserves reduction store, adds its own contribution and multicasts GRANT. -/
  | chunkOpen (ctx : Nat) (group : Nat) (chunk : Nat)
  /-- R315: A member sends EXP_UP, or slices, for a granted chunk, or keeps an early GRANT. -/
  | grantReceive (pkt : Packet)
  /-- R314: An owner combines exponent bytes, and multicasts EXP_DOWN once CONTRIB reaches N. -/
  | expUpReceive (pkt : Packet)
  /-- R315: A member converts the chunk with the agreed bytes and sends its tally slices. -/
  | expDownReceive (pkt : Packet)
  /-- R316: A member counts DONE, and ends the REDUCE_SCATTER when all are received. -/
  | doneReceive (pkt : Packet)
  /-- R314: An owner adds a slice; once CONTRIB reaches N it checks, rounds, writes the output and closes the chunk. -/
  | tallyChunkReceive (pkt : Packet)
  /-- R325: A gather piece lands in the pinned output. -/
  | gatherChunkReceive (pkt : Packet)
  /-- R330: A member aborts a running collective with the received cause. -/
  | collAbortReceive (pkt : Packet)
  /-- R317: Incomplete GRANTs, EXP_DOWNs and DONEs are repeated every COLL_NOTICE_REPEAT. -/
  | collNoticeRepeat (ctx : Nat) (group : Nat)
  /-- R328: A collective's progress timer passes COLL_TIMEOUT, and the member aborts with cause TIMEOUT. -/
  | collTimeout (ctx : Nat) (group : Nat)
  /-- R341: Attention service is enabled for a context after the checks. -/
  | attEnableTrue (via : Via) (ctx : Nat)
  /-- R341: Admission stops, and the settings unlock once every slot is free. -/
  | attEnableFalse (via : Via) (ctx : Nat)
  /-- R345: An attend descriptor is checked, and its query image is sent as ATTEND_REQ packets. -/
  | attend (core : Nat)
  /-- R351: A target takes, fills or matches an attend slot, completes it, or answers with BUSY or BAD_REQ. -/
  | attendReqReceive (link : Nat) (pkt : Packet)
  /-- R352: A slot still Assembling after ATT_ASSEMBLY_TIMEOUT is freed, and ATT_ASSEMBLY_EXPIRED is raised. -/
  | attAssemblyTimeout (ctx : Nat) (slot : Nat)
  /-- R353: The dispatcher starts a Queued slot on a serving core, paired with a second slot when allowed. -/
  | attendServiceStart (ctx : Nat) (core : Nat)
  /-- R357: The service writes the partial images, sends ATTEND_PART packets, and the slots become Done. -/
  | attendServiceEnd (ctx : Nat) (core : Nat)
  /-- R357: A Done slot is freed ATT_HOLD after its last packet. -/
  | attHoldExpire (ctx : Nat) (slot : Nat)
  /-- R358: A partial piece lands at OUT_ADDR, and the descriptor ends OK when all have landed. -/
  | attendPartReceive (pkt : Packet)
  /-- R358: No ATTEND_PART has come within ATT_RESULT_TIMEOUT, and the descriptor ends with RESULT_TIMEOUT. -/
  | attResultTimeout (core : Nat) (desc : Nat)
  /-- R367: A context's ledger ring is checked, reset and turned On. -/
  | ldgEnableTrue (via : Via) (ctx : Nat)
  /-- R370: Ledger allocation stops, and the ring enters Draining. -/
  | ldgEnableFalse (via : Via) (ctx : Nat)
  /-- R370: Every allocated record is performed, and the ring becomes Off. -/
  | ldgDrainComplete (ctx : Nat)
  /-- R369: Software advances the ledger consumer index in Stop mode. -/
  | ldgConsumerWrite (via : Via) (ctx : Nat) (value : Nat)
  /-- R382: A capture window is checked and armed, and its counts are zeroed. -/
  | capArmTrue (via : Via) (ctx : Nat) (window : Nat)
  /-- R403: A follower sends CADENCE REQ every HIER_CADENCE_PERIOD, and changes parent or runs free after 8 missed exchanges. -/
  | cadencePeriod
  /-- R403: A parent answers with CADENCE RSP carrying t3 and HOLD. -/
  | cadenceReqReceive (pkt : Packet)
  /-- R405: A follower computes delay and offset, and adjusts A or steps its counter. -/
  | cadenceRspReceive (pkt : Packet)
  /-- R407: A root counter is set, and becomes valid in Root free mode. -/
  | hierCadenceSet (via : Via) (value : Nat)
  /-- R411: A block records a child's ARRIVE, sends ARRIVE upward or completes at the root, or answers with RELEASE or ABORT. -/
  | arriveReceive (pkt : Packet)
  /-- R411: A block forwards RELEASE, advances the step and BAR_COUNT, and signals BAR_OUT_SEM. -/
  | releaseReceive (pkt : Packet)
  /-- R412: A member marks its barrier Failed and raises BARRIER_FAILED. -/
  | barrierAbortReceive (pkt : Packet)
  /-- R417: The standby restarts its takeover timer. -/
  | keepaliveReceive (pkt : Packet)
  /-- R417: A member switches to the alternate tree, records the new manager, and resends its ARRIVE. -/
  | takeoverReceive (pkt : Packet)
  /-- R412: A child repeats ARRIVE every COLL_NOTICE_REPEAT until RELEASE or ABORT. -/
  | arriveRepeat (ctx : Nat)
  /-- R412: The root's barrier is not complete within BAR_TIMEOUT, and it sends ABORT, or a member's wait passes twice that. -/
  | barTimeout (ctx : Nat)
  /-- R417: The manager sends KEEPALIVE to the standby every 1 ms. -/
  | keepalivePeriod (ctx : Nat)
  /-- R417: The standby takes over as manager after JOB_TAKEOVER_TIMEOUT without KEEPALIVE. -/
  | takeoverTimeout (ctx : Nat)
  /-- R413: The manager schedules a snapshot at time T and sends SNAPSHOT down its tree. -/
  | jobSnapshot (via : Via) (ctx : Nat) (time : Nat)
  /-- R413: The manager schedules a context reset at time T and sends RESET_BCAST. -/
  | jobReset (via : Via) (ctx : Nat) (time : Nat)
  /-- R414: A block forwards a snapshot broadcast and schedules it, or acts late. -/
  | snapshotReceive (pkt : Packet)
  /-- R414: A block forwards a reset broadcast and schedules it, or acts late. -/
  | resetBcastReceive (pkt : Packet)
  /-- R413: 5 µs after the first copy, a broadcast is forwarded to each child again. -/
  | bcastSecondCopy (ctx : Nat)
  /-- R415: At time T, the block writes the snapshot record or starts the context reset. -/
  | bcastActivate (ctx : Nat) (seq : Nat)
  /-- R431: A source's promotion window expires without effect. -/
  | promoteWindowExpire (src : Source)
  /-- R436: A Severe source's escalation timer expires, and its SRC_ACTION is taken on the named unit. -/
  | escalationTimeout (src : Source) (unit : UnitName)
  /-- R432: A source is cleared and returns to its default class. -/
  | srcClear (via : Via) (code : Nat)
  /-- R432: Every non-Grave source is cleared. -/
  | fltClearAll (via : Via)
  /-- R435: The first slot of the sticky record is cleared. -/
  | fltStickyClear (via : Via)
  /-- R465: The oldest event record is removed. -/
  | fltEvtPop (via : Via)
  /-- R441: Each millisecond, units with no progress for HANG_WINDOW raise HANG_ENGINE or HANG_CONTEXT. -/
  | hangExamine
  /-- R445: A context reset, rung 1, is started by command. -/
  | rstCtx (via : Via) (ctx : Nat)
  /-- R445: After the memory ports settle and state is cleared, the records are written, the context is Halted and RESET_CONTEXT is raised. -/
  | contextResetComplete (ctx : Nat)
  /-- R447: The reset engine becomes idle, RESET_ENGINE is raised, and probation starts. -/
  | engineResetIdle (unit : UnitName)
  /-- R448: The partition becomes idle, and RESET_PARTITION is raised. -/
  | partitionResetIdle (part : Nat)
  /-- R449: A block reset, rung 4, is started by command: cores are sampled, then BLK_RST_N acts. -/
  | fltBlockReset (via : Via)
  /-- R443: A block reset that has not reached Configure within 10 ms is replaced by rung 5. -/
  | blockResetConfigureLimit
  /-- R444: A context reset still incomplete at RST_CTX_LIMIT is replaced by rung 2. -/
  | rstCtxLimit (ctx : Nat)
  /-- R444: An engine reset still incomplete at RST_ENGINE_LIMIT is replaced by rung 3. -/
  | rstEngineLimit (unit : UnitName)
  /-- R444: A partition reset still incomplete at RST_PARTITION_LIMIT is replaced by rung 4. -/
  | rstPartitionLimit (part : Nat)
  /-- R452: A sample not complete within RST_SAMPLE_LIMIT is abandoned, and SAMPLE_LOST is raised. -/
  | rstSampleLimit (unit : UnitName)
  /-- R450: A power cycle is requested by command. -/
  | fltPcycRequest (via : Via)
  /-- R450: FLT_ESCALATION_TIMEOUT after the request, the block enters Kickstand and drives PCYC_REQ_N low if automatic. -/
  | pcycKickstand
  /-- R454: A suspect's turn ends Cleared, Untested after HANG_WINDOW, or Guilty, and the next turn begins. -/
  | probationTurnEnd (outcome : TurnEnd)
  /-- R457: After the directory scan, the tracker and directory take the core's new epoch, and its far accesses resume. -/
  | epochResyncComplete (core : Nat)
  /-- R459: Kickstand is entered by command. -/
  | fltKickstand (via : Via)
  /-- R463: The block leaves Kickstand through a block reset, unless the Grave latch or a clock fault remains. -/
  | fltKickExit (via : Via)
  /-- R471: Every 1 µs the governor estimates P and lowers or raises core issue levels against the budget. -/
  | governorInterval
  /-- R475: A core idle for PWR_SLEEP_DELAY writes back its far lines, clears its state and gates its power. -/
  | sleepDelayExpire (core : Nat)
  /-- R476: The wake bucket gains one token every 1/PWR_WAKE_RATE µs. -/
  | wakeTokenRefill
  /-- R476: A waiting wake takes a token and powers up its core. -/
  | wakeRelease (core : Nat)
  /-- R474: The 2 µs power-up ends, the core is Active, and its epoch advances. -/
  | wakeComplete (core : Nat)
  /-- R476: A wake waits longer than 100 µs, and WAKE_DELAYED is raised. -/
  | wakeDelayed (core : Nat) (waited : Nat)
  /-- R477: A matrix array with no work for PWR_MM_GATE_DELAY is gated. -/
  | mmGateDelay (core : Nat)
  /-- R477: A gated array that receives work starts its 8-step ramp when allowed by PWR_RAMP_MAX. -/
  | rampStart (core : Nat)
  /-- R477: The ramp completes after 256 ns, and the waiting MATMUL starts. -/
  | rampComplete (core : Nat)
  /-- R479: P has stayed well below the last FORECAST for 100 µs, and a FLOOR request is made. -/
  | floorTimer
  /-- R479: Writing PWR_VID sends a VID request. -/
  | pwrVid (via : Via) (value : Nat)
  /-- R492: An Ontan READ is checked in order and answered with the entry's value or a status. -/
  | ontanRead (carrier : Carrier) (level : Nat) (ctx : Nat) (index : Nat) (sub : Nat)
  /-- R492: An Ontan WRITE to an entry with no behaviour of its own is checked and stored. -/
  | ontanWrite (carrier : Carrier) (level : Nat) (ctx : Nat) (index : Nat) (sub : Nat) (vtype : Nat) (value : List Byte)
  /-- R497: An in-band ONTAN packet carrying a request or a relayed answer is received. -/
  | ontanPacketReceive (pkt : Packet)
  /-- R497: A relayed request unanswered for 1 ms is answered with RELAY_FAILED. -/
  | relayTimeout (target : Nat)
  /-- R498: While the event queue holds a record, the EVENT is repeated every ONT_EVENT_REPEAT. -/
  | ontEventRepeat
  /-- R489: A read returns 16 new challenge bytes and voids the carrier's earlier challenge. -/
  | secChallenge (carrier : Carrier)
  /-- R489: A signed response raises the carrier session to Service, or counts a failure toward lockout. -/
  | secUnlock (carrier : Carrier) (response : List Byte)
  /-- R489: The 1 s lockout after 8 failures ends. -/
  | unlockLockoutExpire (carrier : Carrier)
  /-- R507: The carrier session returns to Operator. -/
  | secLock (carrier : Carrier)
  /-- R507: An image key slot is revoked permanently. -/
  | secRevoke (via : Via) (slot : Nat)
  /-- R500: The block moves from Configure to Ready. -/
  | blkReady (via : Via)
  /-- R500: The block moves from Ready to Run. -/
  | blkRun (via : Via)
  /-- R500: The block moves from Run to Drain. -/
  | blkDrain (via : Via)
  /-- R500: No context holds admitted, collective or attend work, and Drain becomes Ready. -/
  | drainComplete
  /-- R500: Drain times out, and each context still holding work gets a rung 1 reset before Ready. -/
  | blkDrainTimeout
  /-- R500: The block returns to Configure from Ready or Quarantine. -/
  | blkConfigure (via : Via)
  /-- R500: The block leaves Quarantine for Ready. -/
  | blkQuarantineExit (via : Via)
  /-- R136: All route entries are loaded from local memory, all or nothing. -/
  | routeLoad (via : Via)
  /-- R137: New packets to a chip are held while its referenced route entry is drained. -/
  | routeDrainUpdate (via : Via) (chip : Nat) (mask : Nat)
  /-- R137: Nothing targets the chip any more; the entry is written and held packets are released. -/
  | routeDrainComplete
  /-- R137: The drain passes ROUTE_DRAIN_TIMEOUT; the old entry stays, and status reads Timeout. -/
  | routeDrainTimeout
  /-- R116: A logical port's member set changes, and takes effect at each link's next unit boundary. -/
  | lportLinksWrite (via : Via) (lport : Nat) (mask : Nat)
  /-- R510: The block-wide counters and the histogram bins are set to zero. -/
  | obsClear (via : Via)
  /-- R511: Every OBS_HIST_PERIOD, each sampled unit's occupancy bin is incremented. -/
  | histogramSample
  /-- R512: The trace region is checked and enabled, and its counts are reset. -/
  | trcEnableTrue (via : Via)
  /-- R513: Trace allocation stops. -/
  | trcEnableFalse (via : Via)
  /-- R513: The writer takes up to p records per 16 FCLK cycles from the buffer into the trace region. -/
  | traceWrite
  /-- R515: Every 2^k CCLK cycles, a traced core allocates a program-counter sample with its stall state. -/
  | pcSample (core : Nat)
  /-- R517: A control core halts before an armed breakpoint's instruction, and DBG_VECTOR is asserted. -/
  | breakpointHit (core : Nat)
  /-- R517: The running task halts at its next instruction boundary. -/
  | dbgHalt (via : Via) (core : Nat)
  /-- R517: The halted core's engine queues empty, and DBG_STATE reads Halted. -/
  | dbgDrainComplete (core : Nat)
  /-- R518: The halted core executes one instruction and halts again. -/
  | dbgStep (via : Via) (core : Nat)
  /-- R518: The halted core continues. -/
  | dbgResume (via : Via) (core : Nat)
  /-- R136: The route load started by ROUTE_LOAD finishes reading local memory and writes all entries or none, and ROUTE_CMD_STATUS changes from In progress to Done, Refused busy or Bad address. -/
  | routeLoadComplete
  /-- R46: TRF_CADENCE_OUT rises when bits [19:0] of a valid cadence counter wrap, and falls 64 TCLK cycles later. -/
  | cadenceOutPulse
  /-- R450: The supply of the block is removed: the block enters Off, its pads present high impedance, and the board pulls set FAULT_N, PCYC_REQ_N, ALERT_N and KICK_N. -/
  | powerRemoved
  /-- R47: The surroundings drive TCK, TMS and TDI through the IEEE 1149.1 TAP to select IDCODE, BYPASS or an IEEE 1687 instrument; a locked instrument returns zeros and changes nothing. -/
  | tapScan (scan : TapScan)
  deriving DecidableEq, Repr

end Sys2Proof
end

