-- ==== Sys2Proof/Config.lean ====
section
/-! DEFINITION. The free values of the model: what the spec leaves open, as constants without a body. Each is applied
to the state's count of values drawn, so that nothing ties one draw to the next. -/
namespace Sys2Proof.Config
open Sys2Proof

/-- A free number: which member of a set of equally permitted ones the block takes. -/
opaque freeNat : Nat → Nat

/-- A free byte: memory that a failed write leaves unspecified (R148, R252), challenge bytes (R489). -/
opaque freeByte : Nat → Byte

/-- A free 64-bit value: a register result that the spec does not state. -/
opaque freeWord : Nat → Word64

/-- The set of a far line cache, of 512, that a line falls in: job, chip and line number (R258 gives no index function). -/
opaque farSet : Nat → Nat → Nat → Nat

/-- The set of a directory bank, of 4,096, that a line falls in (R263 gives no index function). -/
opaque dirSet : Nat → Nat → Nat → Nat

end Sys2Proof.Config
end

