-- ==== Sys2Proof/Machine/Crc.lean ====
section
/-! DEFINITION. The check codes of the block: CRC-32C of flow units and packets, CRC-16 of training words and Ontan
messages, CRC-64 of the ledger, each over a list of bytes. -/
namespace Sys2Proof.Crc
open Sys2Proof Sys2Proof.Bits

/-- One bit of a reflected CRC register with polynomial `p`. -/
def stepReflected (p r : Nat) : Nat := if r.testBit 0 then (r >>> 1) ^^^ p else r >>> 1

/-- `n` bits of a reflected CRC register. -/
def runReflected (p : Nat) : Nat → Nat → Nat
  | 0, r => r
  | n + 1, r => runReflected p n (stepReflected p r)

/-- A reflected CRC register after a list of bytes. -/
def feedReflected (p r : Nat) (bs : List Byte) : Nat := bs.foldl (fun r b => runReflected p 8 (r ^^^ b.toNat)) r

/-- One bit of an unreflected CRC register of `w` bits with polynomial `p`. -/
def stepPlain (w p r : Nat) : Nat :=
  if r.testBit (w - 1) then ((r <<< 1) ^^^ p) % 2 ^ w else (r <<< 1) % 2 ^ w

/-- `n` bits of an unreflected CRC register. -/
def runPlain (w p : Nat) : Nat → Nat → Nat
  | 0, r => r
  | n + 1, r => runPlain w p n (stepPlain w p r)

/-- An unreflected CRC register of `w` bits after a list of bytes. -/
def feedPlain (w p r : Nat) (bs : List Byte) : Nat :=
  bs.foldl (fun r b => runPlain w p 8 (r ^^^ (b.toNat <<< (w - 8)))) r

/-- CRC-32C: reflected polynomial 0x82F6_3B78, initial all ones XOR a seed, final XOR all ones (R65, R106). -/
def crc32c (seed : Nat) (bs : List Byte) : Nat :=
  feedReflected 0x82F63B78 (0xFFFFFFFF ^^^ seed) bs ^^^ 0xFFFFFFFF

/-- CRC-32 of an Ethernet frame: reflected polynomial 0xEDB8_8320, initial and final all ones (PRESUMED, IEEE 802.3). -/
def crc32 (bs : List Byte) : Nat := feedReflected 0xEDB88320 0xFFFFFFFF bs ^^^ 0xFFFFFFFF

/-- CRC-16/CCITT as R84 gives it: polynomial 0x1021, initial 0xFFFF, most significant bit first. -/
def crc16 (bs : List Byte) : Nat := feedPlain 16 0x1021 0xFFFF bs

end Sys2Proof.Crc
end

