-- ==== Sys2Proof/Machine/State.lean ====
section
/-! DEFINITION. The state of the block as plain data, the reasons a step can stop, and the state after reset. -/
namespace Sys2Proof.Machine
open Sys2Proof Sys2Proof.Bits

/-- A link after reset: Down, with nothing agreed and nothing held (R95, R100). -/
def LinkState.reset : LinkState :=
  { active := false, single := false, stage := .idle, phyRstN := false, heldDown := false, freewheel := false,
    trainDue := false, attempts := 0, wasActive := false, stored := none,
    set := { pauseTimeout := 2000000, windowLog2 := 24, errThreshold := 256, freewheel := 20000000, ackCount := 32,
             replayLimit := 8, xoffLevel := 294912, xonLevel := 196608, capsMask := 0x1F, laneThreshold := 64,
             retries := 16 },
    version := 0, caps := 0, failed := 0, chosen := [0, 1, 2, 3],
    positions := [.blank, .blank, .blank, .blank, .blank], offerSingle := false, gotIdent := none, gotVersion := none,
    sentConfirm := none, identDue := false, confirmDue := false, txNext := 0, replay := [], txQueue := [], txPos := 0, txPkts := [],
    xoffIn := false, ackDue := false, nackDue := [], next := 0, missing := [], held := [], xoffOut := false, badRun := 0,
    winUnits := 0, laneErrs := [0, 0, 0, 0, 0], sinceAck := 0, ackTimer := false, rxFlits := [], asm := none,
    skip := false, rxHeads := 0, txHeads := 0, lastSent := none }

/-- The state of the block: everything the spec gives it, and the queue of commands that wait. -/
structure State where
  /-- The build, the fuses and the attached memory (R3, R22, R507). No command changes it. -/
  build : Build
  /-- The block state (R499). -/
  blk : BlkState
  /-- Reset inputs, straps and clock detectors (R49 to R51). -/
  rst : ResetState
  /-- TCLK cycles since the model started: the model's measure of elapsed time. -/
  tclk : Nat
  /-- How many free values have been drawn. -/
  free : Nat
  /-- Every dictionary entry that differs from its default, by key (R484). -/
  dict : Table Nat
  /-- Image key slots revoked (R507); nothing restores them. -/
  revoked : Nat
  /-- Memory ports (R24 to R30). -/
  ports : Table PortState
  /-- The host control port. -/
  hcp : HcpState
  /-- The power management interface. -/
  pmi : PmiState
  /-- The I3C target. -/
  i3c : I3cState
  /-- The test port. -/
  tap : TapState
  /-- The Ontan engine and its sessions. -/
  ont : OntState
  /-- The cadence counter. -/
  cad : Cadence
  /-- Fault handling. -/
  flt : FaultState
  /-- Translation caches and faults. -/
  xlt : XltState
  /-- Local memory by local offset; an unlisted byte reads 0. -/
  mem : List Host.Cell
  /-- 128-byte beats of local memory that hold poison, rising. -/
  memPoison : List Nat
  /-- Beats that the controllers answer POISON (1) or ADDRESS (2) whatever they hold. -/
  memAnswers : Table Nat
  /-- Scratchpad bytes, core × 2^21 + address; an unlisted byte holds all ones. -/
  spad : List Host.Cell
  /-- Scratchpad lines whose written bit is set, core × 2^15 + line, rising. -/
  spadWritten : List Nat
  /-- Scratchpad lines whose poison bit is set, rising. -/
  spadPoison : List Nat
  /-- Semaphores. -/
  sems : Table Word32
  /-- Completion counters. -/
  counters : Table Word64
  /-- Links. -/
  links : Table LinkState
  /-- The packet layer. -/
  pkt : PktState
  /-- The transaction layer. -/
  rmt : RmtState
  /-- Cores. -/
  cores : Table CoreState
  /-- Far line caches and the directory. -/
  far : FarState
  /-- Contexts. -/
  ctxs : Table CtxState
  /-- The dispatcher. -/
  disp : DispState
  /-- The governor and wake rationing. -/
  pwr : PowerState
  /-- The trace writer. -/
  trc : TraceState
  /-- Commands that wait, first in first out. -/
  pending : List Instr
  deriving DecidableEq, Repr

/-- Why the machine stops with a fault. -/
inductive Fault where
  /-- Raised by nothing in this model: every command has an effect in every state. -/
  | unreachable
  deriving DecidableEq, Repr

/-- Why a command has no meaning. -/
inductive Refusal where
  /-- The command's arm has no meaning yet; its mnemonic. Safe: nothing is claimed of it. -/
  | notModelled (mnemonic : String)
  deriving DecidableEq, Repr

/-- The build GX5-64/64/16 with every port parameter at its default (R8, R22). -/
def Build.nominal : Build :=
  { cores := 64, links := 64, ports := 16, irqMode := .messages, mii := true, i3c := true, fullScope := true, mfrId := 1,
    mipiId := 0, imageKeys := [0, 0, 0, 0], serviceKeys := [0, 0], memBytes := 2 ^ 40 }

/-- The state that BLK_RST_N leaves in everything it resets, for a build (R49, R484). -/
def State.cleared (b : Build) : State :=
  { build := b, blk := .configure,
    rst := { stage := .none, porLow := false, blkLow := false, rung4 := false, cclk := true, fclk := true, hclk := true,
             lclk := 2 ^ b.links - 1, mclk := 2 ^ b.ports - 1, saddr := 0, saddrPins := 0 },
    tclk := 0, free := 0, dict := [], revoked := 0, ports := [],
    hcp := { vectors := [], queue := [], last := none, stallSeen := false, fq := .reset, iq := .reset, invStart := 0,
             invPagesM1 := 0, invs := [], rerr := false, tails := [] },
    pmi := { req := none, waiting := [], pgood := true, alert := false, alertActive := false },
    i3c := { dyn := none, hdr := false, fast := 0 },
    tap := { sel := .idcode, out := 0, instruments := [] },
    ont := .reset, cad := .reset,
    flt := { queue := [], seq := 0, lostPending := false, stickyFirst := none, stickyGrave := none, grave := false,
             pcycReq := false, pcycLow := false, pcycTimer := false, windows := [], timers := [], due := [],
             ctxResets := [], unitResets := [], probation := none, rungs := [], traces := [], progress := [], named := [],
             unsynced := [], kept := none, drainLate := false, kickClock := false },
    xlt := { leaves := [], faults := [] },
    mem := [], memPoison := [], memAnswers := [], spad := [], spadWritten := [], spadPoison := [], sems := [],
    counters := [],
    links := (List.range b.links).map fun n => (n, { LinkState.reset with trainDue := true }),
    pkt := { wait := [], ptr := [], portPtr := [], pins := [], refs := [], bound := [], binding := [], loading := false,
             drain := none, drainHeld := [], lost := [], members := [], ordered := [] },
    rmt := { txns := [], plans := [], descs := [], nextDesc := 0, windows := [], granted := [],
             pendingReqs := [], cache := [], casParts := [], masks := [], parked := [] },
    cores := [], far := { lines := [], reqs := [], fills := [], wbs := [] }, ctxs := [],
    disp := { ptr := 0, nextTask := 0, nextOrder := 0, early := [], pushing := false },
    pwr := { tokens := 4, wakes := [], waking := [], ramping := [], ramps := [], under := 0, overCount := 0, est := 0,
             budget := 850, hyst := 20, caps := [], forecast := 0, held := none, cleared := none },
    trc := { buffer := [], dropped := 0 }, pending := [] }

/-- The block right after it leaves Reset for Configure (R50): the nominal build, every clock detected, every link
starting to train (R85). -/
def State.reset : State := State.cleared .nominal

end Sys2Proof.Machine
end

