-- ==== Sys2Proof/Machine/Ops.lean ====
section
/-! DEFINITION. Named operations over the state that every family of commands shares: dictionary entries, raising a
fault source, the host control port's queues, and local memory and scratchpad accesses. -/
namespace Sys2Proof.Machine
open Sys2Proof Sys2Proof.Bits

/-! ### Units of the build -/

/-- The partition of core C*n* (R4). -/
def State.partOfCore (s : State) (n : Nat) : Nat := n / (s.build.cores / 8)

/-- The partition of link L*n* (R4). -/
def State.partOfLink (s : State) (n : Nat) : Nat := n / (s.build.links / 8)

/-- The partition of memory port M*n* (R5). -/
def partOfPort (n : Nat) : Nat := n % 8

/-- The cores of a partition (R4). -/
def State.coresOfPart (s : State) (p : Nat) : List Nat :=
  (List.range (s.build.cores / 8)).map (· + p * (s.build.cores / 8))

/-- How many units a span covers (R508). -/
def State.spanCount (s : State) : Span → Nat
  | .one => 1 | .ctx => 64 | .core => s.build.cores | .link => s.build.links | .port => s.build.ports
  | .lport => 64 | .window => 256 | .source => 0x65 | .hist => 7

/-- Link L*n*. -/
def State.link (s : State) (n : Nat) : LinkState := Table.get s.links LinkState.reset n

/-- The state with link L*n* replaced. -/
def State.setLink (s : State) (n : Nat) (l : LinkState) : State :=
  { s with links := Table.put s.links LinkState.reset n l }

/-- Memory port M*n*. -/
def State.port (s : State) (n : Nat) : PortState := Table.get s.ports PortState.idle n

/-- The state with port M*n* replaced. -/
def State.setPort (s : State) (n : Nat) (p : PortState) : State :=
  { s with ports := Table.put s.ports PortState.idle n p }

/-! ### Parts of the state changed by a function -/

/-- The state with its `flt` part changed by a function. -/
def State.onFlt (s : State) (f : FaultState → FaultState) : State := { s with flt := f s.flt }

/-- The state with its `hcp` part changed by a function. -/
def State.onHcp (s : State) (f : HcpState → HcpState) : State := { s with hcp := f s.hcp }

/-- The state with its `pkt` part changed by a function. -/
def State.onPkt (s : State) (f : PktState → PktState) : State := { s with pkt := f s.pkt }

/-- The state with its `rmt` part changed by a function. -/
def State.onRmt (s : State) (f : RmtState → RmtState) : State := { s with rmt := f s.rmt }

/-- The state with its `xlt` part changed by a function. -/
def State.onXlt (s : State) (f : XltState → XltState) : State := { s with xlt := f s.xlt }

/-- The state with its `ont` part changed by a function. -/
def State.onOnt (s : State) (f : OntState → OntState) : State := { s with ont := f s.ont }

/-- The state with its `pmi` part changed by a function. -/
def State.onPmi (s : State) (f : PmiState → PmiState) : State := { s with pmi := f s.pmi }

/-- The state with its `i3c` part changed by a function. -/
def State.onI3c (s : State) (f : I3cState → I3cState) : State := { s with i3c := f s.i3c }

/-- The state with its `tap` part changed by a function. -/
def State.onTap (s : State) (f : TapState → TapState) : State := { s with tap := f s.tap }

/-- The state with its `cad` part changed by a function. -/
def State.onCad (s : State) (f : Cadence → Cadence) : State := { s with cad := f s.cad }

/-- The state with its `rst` part changed by a function. -/
def State.onRst (s : State) (f : ResetState → ResetState) : State := { s with rst := f s.rst }

/-- Link L*n* changed by a function. -/
def State.onLink (s : State) (n : Nat) (f : LinkState → LinkState) : State := s.setLink n (f (s.link n))

/-- Memory port M*n* changed by a function. -/
def State.onPort (s : State) (n : Nat) (f : PortState → PortState) : State := s.setPort n (f (s.port n))

/-! ### Time, and free values -/

/-- Nanoseconds of model time: a TCLK cycle is 6.4 ns (R46). -/
def State.ns (s : State) : Nat := s.tclk * 32 / 5

/-- The cadence counter as records carry it: all ones when it is not valid (R429). -/
def State.stamp (s : State) : Nat := if s.cad.valid then s.cad.ns else 2 ^ 64 - 1

/-- A free number, drawn. -/
def State.drawNat (s : State) : Nat × State := (Config.freeNat s.free, { s with free := s.free + 1 })

/-- `n` free bytes, drawn. -/
def State.drawBytes (s : State) : Nat → List Byte × State
  | 0 => ([], s)
  | n + 1 =>
    let r := State.drawBytes { s with free := s.free + 1 } n
    (Config.freeByte s.free :: r.1, r.2)

/-- A free 64-bit value, drawn. -/
def State.drawWord (s : State) : Word64 × State := (Config.freeWord s.free, { s with free := s.free + 1 })

/-- The member of a list that a free choice falls on. -/
def State.pick {α : Type} (s : State) (l : List α) : Option α × State :=
  (l[(s.drawNat.1) % l.length]?, s.drawNat.2)

/-! ### Dictionary entries -/

/-- The key of the entry of unit `n` (R19). -/
def unitKey (key n : Nat) : Nat := key + 256 * n

/-- The entry that a key names, and the unit, where the build has it (R7, R508). -/
def State.entry? (s : State) (key : Nat) : Option (Entry × Nat) :=
  let idx := key / 256
  let sub := key % 256
  if 0x4200 ≤ idx ∧ idx ≤ 0x421F then
    if 1 ≤ sub ∧ sub ≤ 128 then some (⟨key, .one, .u32, .rw, .operator, 0, .special⟩, 0) else none
  else if 0x4400 ≤ idx ∧ idx ≤ 0x45FF then
    if 1 ≤ sub ∧ sub ≤ 128 then some (⟨key, .one, .u64, .rw, .operator, 0, .special⟩, 0) else none
  else
    match entries.find? (fun e => e.key ≤ key && e.key % 256 == sub && (key - e.key) / 256 < s.spanCount e.span) with
    | none => none
    | some e =>
      let n := (key - e.key) / 256
      if e.span = .source ∧ (Source.ofCode? n).isNone then none else some (e, n)

/-- The default action of a source (R436). -/
def Source.defaultAction : Source → Nat
  | .hangContext => 6 | .hangEngine => 6 | _ => 0

/-- The default of `SRC_PROMOTE_N` by default class (R431). -/
def FaultClass.promoteN : FaultClass → Nat
  | .notice => 1024 | .correctable => 64 | .severe => 0 | .grave => 0

/-- The default of an entry (R484): a constant of its row, or what the build, the strap or the source gives. -/
def State.regDefault (s : State) (key : Nat) : Nat :=
  match s.entry? key with
  | none => 0
  | some (e, n) =>
    let src := Source.ofCode? n
    if e.key = Reg.SRC_CLASS then (src.map (fun x => x.defaultClass.code)).getD 0
    else if e.key = Reg.SRC_PROMOTE_N then (src.map (fun x => x.defaultClass.promoteN)).getD 0
    else if e.key = Reg.SRC_ACTION then (src.map Source.defaultAction).getD 0
    else if e.key = Reg.LPORT_LINKS then (if n < s.build.links then 2 ^ n else 0)
    else if e.key = Reg.BUILD_CORES then s.build.cores
    else if e.key = Reg.BUILD_LINKS then s.build.links
    else if e.key = Reg.BUILD_PORTS then s.build.ports
    else if e.key = Reg.BUILD_HCP_IRQ_MODE ∨ e.key = Reg.HCP_IRQ_MODE then
      (match s.build.irqMode with | .wires => 0 | .messages => 1 | .both => 2)
    else if e.key = Reg.BUILD_MII then ofBool s.build.mii
    else if e.key = Reg.BUILD_I3C then ofBool s.build.i3c
    else if e.key = Reg.BUILD_1687_SCOPE then ofBool (!s.build.fullScope)
    else if e.key = Reg.BUILD_MFR_ID then s.build.mfrId
    else if e.key = Reg.BUILD_I3C_MIPI_ID then s.build.mipiId
    else if e.key = Reg.GMP_PORT_ENABLE then 2 ^ s.build.ports - 1
    else if e.key = Reg.MGP_I3C_SADDR then s.rst.saddr
    else if e.key = Reg.MGP_MAC then 0x02E505000000 + s.rst.saddr
    else e.dflt

/-- The stored value of an entry. -/
def State.reg (s : State) (key : Nat) : Nat := (Table.find? s.dict key).getD (s.regDefault key)

/-- The stored value of an entry of unit `n`. -/
def State.regAt (s : State) (key n : Nat) : Nat := s.reg (unitKey key n)

/-- The state with an entry's stored value set. -/
def State.setReg (s : State) (key v : Nat) : State :=
  { s with dict := if v = s.regDefault key then Table.erase s.dict key else Table.insert s.dict key v }

/-- The state with an entry of unit `n` set. -/
def State.setRegAt (s : State) (key n v : Nat) : State := s.setReg (unitKey key n) v

/-- A counter of `w` bits that wraps, advanced. -/
def State.bumpBy (s : State) (key w k : Nat) : State := s.setReg key ((s.reg key + k) % 2 ^ w)

/-- A 32-bit counter that wraps, advanced by one. -/
def State.bump (s : State) (key : Nat) : State := s.bumpBy key 32 1

/-- A 32-bit counter of unit `n`, advanced by one. -/
def State.bumpAt (s : State) (key n : Nat) : State := s.bump (unitKey key n)

/-- A BOOL entry. -/
def State.flag (s : State) (key : Nat) : Bool := s.reg key != 0

/-- This block's chip number (R115). -/
def State.ownChip (s : State) : Nat := s.reg Reg.ROUTE_OWN_CHIP

/-! ### Packets handed to the derailleur -/

/-- Collective opcodes 0x20 to 0x23 (R125). -/
def Opcode.collective : Opcode → Bool
  | .tallyExp | .tallyChunk | .gatherChunk | .collAbort => true
  | _ => false

/-- Whether the unicast packets of a context are ordered: the setting as it stood when the context last had no
transaction outstanding (R125). -/
def State.ctxOrdered (s : State) (c : Nat) : Bool :=
  if s.rmt.txns.any (fun t => t.ctx == c) then Table.get s.pkt.ordered 0 c != 0 else s.regAt Reg.CTX_ORDERED c != 0

/-- `ORDERED` as the block sets it in a packet (R125). -/
def State.orders (s : State) (ctx : Option Nat) (p : Packet) : Bool :=
  p.ordered || (!p.mcast && !p.op.collective && (s.blk == .kickstand || ctx.any s.ctxOrdered))

/-- Whether an opcode is a request of a tracker entry (R159). -/
def Opcode.tracked : Opcode → Bool
  | .loadReq | .store | .copy | .atomicReq | .gatherReq | .scatter | .attendReq | .imageLoad => true
  | _ => false

/-- Whether a drain in progress holds a new packet: it is addressed to the drained chip and is no request of an entry
that the drain waits for (R137). -/
def State.drainHolds (s : State) (p : Packet) : Bool :=
  match s.pkt.drain with
  | none => false
  | some d => !p.mcast && p.dest == d.1 && !(p.op.tracked && s.rmt.txns.any fun t => t.dest == p.dest && t.tag == p.tag)

/-- A packet given to the derailleur at the back of the waiting list, with the logical port it should avoid
(R118, R121, R127). -/
def State.sendAvoiding (s : State) (ctx exclude : Option Nat) (p : Packet) : State :=
  let w : Waiting := { pkt := { p with ordered := s.orders ctx p }, ctx := ctx, exclude := exclude }
  if s.drainHolds p then s.onPkt fun k => { k with drainHeld := k.drainHeld ++ [w] }
  else s.onPkt fun k => { k with wait := k.wait ++ [w] }

/-- A packet given to the derailleur. -/
def State.sendPkt (s : State) (ctx : Option Nat) (p : Packet) : State := s.sendAvoiding ctx none p

/-- A control packet of this block with no payload and no flags. -/
def State.ctlPkt (s : State) (op : Opcode) (job dest : Nat) : Packet :=
  { data := false, mcast := false, ordered := false, ltag := false, op := op, job := job, dest := dest, src := s.ownChip,
    tag := 0, gen := 0, seq := 0, destOffset := 0, counter := 0, countEn := false, countUnit := false, opArg := 0,
    payload := [] }

/-- A data packet of this block with no payload and no flags. -/
def State.dataPkt (s : State) (op : Opcode) (job dest : Nat) : Packet := { s.ctlPkt op job dest with data := true }

/-- The context bound to a job (R113). -/
def State.ctxOfJob? (s : State) (job : Nat) : Option Nat :=
  (List.range 64).find? fun c => s.regAt Reg.CTX_ROUTE_STATE c == 1 && s.regAt Reg.CTX_JOB_ID c == job

/-- A NEG_COMPLETION that answers a packet (R110); none for a multicast packet or a NEG_COMPLETION (R111). -/
def State.sendNeg (s : State) (p : Packet) (seq reason : Nat) : State :=
  if p.mcast ∨ p.op = .negCompletion then s
  else s.sendPkt (s.ctxOfJob? p.job)
    { s.ctlPkt .negCompletion p.job p.src with
      tag := p.tag, gen := p.gen, seq := seq, ordered := p.ordered, payload := leBytes 8 reason }

/-! ### Ontan messages that the block starts -/

/-- An Ontan message: header, check and value (R490). -/
def ontanMessage (ver type level status seq target index sub vtype : Nat) (value : List Byte) : List Byte :=
  let h := [BitVec.ofNat 8 ver, BitVec.ofNat 8 type, BitVec.ofNat 8 level, BitVec.ofNat 8 status] ++ leBytes 2 seq ++
    leBytes 2 target ++ leBytes 2 index ++ [BitVec.ofNat 8 sub, BitVec.ofNat 8 vtype] ++ leBytes 2 value.length
  h ++ leBytes 2 (Crc.crc16 (h ++ value)) ++ value

/-- The 32 bytes of an event record (R429). -/
def EventRec.bytes (r : EventRec) : List Byte :=
  leBytes 1 r.code ++ leBytes 1 r.cls.code ++ leBytes 2 r.unit ++ leBytes 2 (min r.window 0xFFFF) ++ leBytes 1 r.ctx ++
    leBytes 1 (7 + 8 * ofBool r.promoted + 16 * ofBool r.lost) ++ leBytes 8 r.detail ++ leBytes 8 r.cadence ++
    leBytes 4 r.seq ++ zeros 4

/-- An in-band ONTAN packet that carries a message (R497). -/
def State.ontanPkt (s : State) (dest : Nat) (msg : List Byte) : Packet :=
  { s.ctlPkt .ontan 0 dest with data := decide (16 < msg.length), ordered := true, payload := msg }

/-- The EVENT of R498 for the oldest record, on the carrier that `ONT_EVENT_CARRIER` names. -/
def State.sendEvent (s : State) : State :=
  match s.flt.queue with
  | [] => s
  | r :: _ =>
    let count := s.flt.queue.length
    let carrier? : Option Carrier :=
      match s.reg Reg.ONT_EVENT_CARRIER with | 1 => some .mii | 2 => some .i3c | 3 => some .inBand | _ => none
    match carrier? with
    | none => s
    | some c =>
      let x := s.ont.session c
      let dest := s.reg Reg.ONT_EVENT_DEST
      let msg := ontanMessage 0x21 4 0 0 x.events s.ownChip 0x6010 0x02 0x0B (leBytes 2 count ++ r.bytes)
      let o := s.ont.withSession c { x with events := (x.events + 1) % 2 ^ 16 }
      match c with
      | .mii => { s with ont := { o with last := some { carrier := c, dest := fld dest 47 0, bytes := msg } } }
      | .i3c => { s with ont := { o with last := some { carrier := c, dest := 0, bytes := leBytes 1 (min count 255) } } }
      | .inBand =>
        let s := { s with ont := { o with last := some { carrier := c, dest := fld dest 15 0, bytes := msg } } }
        s.sendPkt none (s.ontanPkt (fld dest 15 0) msg)

/-! ### Interrupt vectors and host rings -/

/-- Vector *v*. -/
def State.vector (s : State) (v : Nat) : Vector := Table.get s.hcp.vectors Vector.reset v

/-- The state with vector *v* replaced. -/
def State.setVector (s : State) (v : Nat) (x : Vector) : State :=
  { s with hcp := { s.hcp with vectors := Table.put s.hcp.vectors Vector.reset v x } }

/-- The interrupt message of a vector, queued for the initiator side (R41, R36). -/
def State.queueMessage (s : State) (x : Vector) : State :=
  { s with hcp := { s.hcp with queue := s.hcp.queue ++
      [{ kind := .message, addr := x.addr, data := leBytes 4 x.data ++ zeros 28 }] } }

/-- An assertion of vector *v* (R42). -/
def State.assertVector (s : State) (v : Nat) : State :=
  let x := s.vector v
  if x.pending then s
  else if x.mask then s.setVector v { x with pending := true }
  else match s.build.irqMode with
    | .wires => s.setVector v { x with pending := true }
    | .messages => s.queueMessage x
    | .both => (s.queueMessage x).setVector v { x with pending := true }

/-- A record that waits for the fault ring (R191). -/
def State.queueFaultRecord (s : State) (id : Option Nat) (bs : List Byte) : State :=
  { s with hcp := { s.hcp with fq := { s.hcp.fq with waiting := s.hcp.fq.waiting ++ [(id, bs)] } } }

/-- Whether a ring has room: it has a size, and its tail is not a full ring ahead of its head (R191). -/
def HostRing.room (r : HostRing) : Bool := r.sizeLog2 != 0 && decide ((r.tail + 2 ^ 32 - r.head) % 2 ^ 32 < 2 ^ r.sizeLog2)

/-! ### Raising a fault source -/

/-- Bytes 2 and 3 of an event record (R429). -/
def UnitName.word : UnitName → Nat
  | .none => 0xF000
  | .core n => n % 256 + 0x100 + 0xF000
  | .link n => n % 256 + 0x200 + 0xF000
  | .port n => n % 256 + 0x300 + 0xF000
  | .partition n => n % 256 + 0x400 + 0xF000
  | .clock c =>
    match c with
    | .cclk => 0x500 | .fclk => 0x1500 | .lclk n => 0x2500 + n % 256 | .mclk n => 0x3500 + n % 256 | .hclk => 0x4500
    | .tclk => 0x5500
  | .context n => n % 256 + 0x600 + 0xF000
  | .engine n e => n % 256 + 0x100 + 0x1000 * e.code
  | .reduction p => p % 256 + 0x400 + 0x4000

/-- The present class of a source. -/
def State.srcClass (s : State) (x : Source) : FaultClass := FaultClass.ofCode (s.regAt Reg.SRC_CLASS x.code)

/-- A record put at the end of the event queue, with its copy to the host and the EVENT of a queue no longer empty
(R433, R434, R498). -/
def State.pushEvent (s : State) (q : List EventRec) (r : EventRec) : State :=
  let was := s.flt.queue.isEmpty
  let s1 := s.onFlt fun f => { f with queue := q ++ [r], lostPending := false }
  let s2 := if s.flag Reg.FLT_HCP_COPY then s1.queueFaultRecord none r.bytes else s1
  if was then s2.sendEvent else s2

/-- A record lost (R433). -/
def State.loseEvent (s : State) : State := (s.bump Reg.FLT_EVT_LOST).onFlt fun f => { f with lostPending := true }

/-- The record queued, or lost, as a full queue has it (R433). -/
def State.queueEvent (s : State) (r : EventRec) : State :=
  if s.flt.queue.length < 256 then s.pushEvent s.flt.queue { r with lost := s.flt.lostPending }
  else if r.cls.code < 2 then s.loseEvent
  else
    let rest := dropFirst (fun x : EventRec => decide (x.cls.code < 2)) s.flt.queue.reverse
    if rest.length < s.flt.queue.length then (s.bump Reg.FLT_EVT_LOST).pushEvent rest.reverse { r with lost := true }
    else s.loseEvent

/-- The events of a source counted, and its promotion window advanced (R428, R431): the class after promotion, whether
this event promoted, and the events in the window. -/
def State.promote (s : State) (x : Source) : FaultClass × Bool × Nat :=
  let n := Table.get s.flt.windows 0 x.code + 1
  let limit := s.regAt Reg.SRC_PROMOTE_N x.code
  let cls := s.srcClass x
  if limit ≠ 0 ∧ limit ≤ n ∧ cls ≠ .grave then (FaultClass.ofCode (cls.code + 1), true, n) else (cls, false, n)

/-- A Severe or Grave record noted: the source uncleared, the sticky record updated (R428, R435). -/
def State.noteSevere (s : State) (x : Source) (r : EventRec) : State :=
  (s.setRegAt Reg.SRC_UNCLEARED x.code 1).onFlt fun f =>
    { f with stickyFirst := f.stickyFirst.orElse (fun _ => some r),
             stickyGrave := if r.cls = .grave then some r else f.stickyGrave }

/-- The escalation timer of a source and unit started; past 128 timers, the action falls due at once (R436). -/
def State.startTimer (s : State) (t : EscTimer) : State :=
  if s.regAt Reg.SRC_ACTION t.src.code = 0 then s
  else if s.flt.timers.any (fun y => y.src == t.src && y.unit == t.unit) then s
  else if s.flt.timers.length < 128 then s.onFlt fun f => { f with timers := f.timers ++ [t] }
  else s.onFlt fun f => { f with due := f.due ++ [t] }

/-- The record of an event of a source at a class (R429). -/
def State.eventRec (s : State) (x : Source) (u : UnitName) (ctx detail : Nat) (p : FaultClass × Bool × Nat) : EventRec :=
  { code := x.code, cls := p.1, unit := u.word, window := min p.2.2 0xFFFF, ctx := ctx, promoted := p.2.1, lost := false,
    detail := detail % 2 ^ 64, cadence := s.stamp, seq := s.flt.seq }

/-- The counting part of an event: `SRC_EVENTS`, the class and the window of the source, and the sequence number. -/
def State.countEvent (s : State) (x : Source) (p : FaultClass × Bool × Nat) : State :=
  (((s.bumpAt Reg.SRC_EVENTS x.code).bumpBy Reg.OBS_FAULT_EVENTS 64 1).setRegAt Reg.SRC_CLASS x.code p.1.code).onFlt
    fun f => { f with windows := Table.put f.windows 0 x.code (if p.2.1 then 0 else p.2.2),
                      seq := (f.seq + 1) % 2 ^ 32 }

/-- The event record queued where its class allows it (R428). -/
def State.queueByClass (s : State) (r : EventRec) : State :=
  if s.reg Reg.FLT_EVENT_MIN_CLASS ≤ r.cls.code then s.queueEvent r else s

/-- One event of a source, without what a Grave class starts (R428, R431, R433 to R436). Answers the record's class. -/
def State.raiseOne (s : State) (x : Source) (u : UnitName) (ctx detail : Nat) : FaultClass × State :=
  let p := s.promote x
  let r := s.eventRec x u ctx detail p
  let s1 := (s.countEvent x p).queueByClass r
  if p.1.code < 2 then (p.1, s1) else (p.1, (s1.noteSevere x r).startTimer { src := x, unit := u, ctx := ctx, time := s.tclk, seq := r.seq })

/-- Time 0 of the power-cycle sequence (R450): the Grave latch, bit [3] of `FLT_SUMMARY`, and the timer. -/
def State.startPcyc (s : State) : State :=
  { s with flt := { s.flt with grave := true, pcycTimer := s.flt.pcycTimer || !s.flt.pcycReq, pcycReq := true } }

/-- A fault source is raised (R428). A source that becomes Grave starts the power-cycle sequence and raises
PCYC_REQUESTED with its own code (R437). -/
def State.raise (s : State) (x : Source) (u : UnitName) (ctx detail : Nat) : State :=
  let r := s.raiseOne x u ctx detail
  if r.1 = .grave then
    if x = .pcycRequested then r.2.startPcyc else (r.2.startPcyc.raiseOne .pcycRequested .none 0xFF x.code).2.startPcyc
  else r.2

/-- A source that names a context is raised for it. -/
def State.raiseCtx (s : State) (x : Source) (c detail : Nat) : State := s.raise x (.context c) c detail

/-! ### Local memory -/

/-- The memory port that serves a local offset (R23). -/
def State.portOf (s : State) (x : Nat) : Nat := (x >>> 12) % s.build.ports

/-- The port address of a local offset (R23). -/
def State.portAddr (s : State) (x : Nat) : Nat := (((x >>> 12) / s.build.ports) <<< 12) ||| x % 4096

/-- The local offset of a port address, the inverse of R23. -/
def State.localOf (s : State) (k a : Nat) : Nat := (((a >>> 12) * s.build.ports + k) <<< 12) ||| a % 4096

/-- The byte that memory holds at a local offset; 0 where nothing has been written. -/
def memByte (m : List Host.Cell) (x : Nat) : Byte := Table.get m 0 x

/-- The status with which the controller answers a beat (R24). -/
def State.beatStatus (s : State) (beat : Nat) : GmpStatus :=
  if s.build.memBytes ≤ 128 * beat then .address
  else match Table.get s.memAnswers 0 beat with | 1 => .poison | 2 => .address | _ => .ok

/-- The pieces of a range: one request never crosses a 4 KiB boundary (R24). -/
def pieces (off len : Nat) : List (Nat × Nat) := go off len (len / 4096 + 2)
where
  /-- Pieces of the rest of the range. -/
  go : Nat → Nat → Nat → List (Nat × Nat)
    | _, _, 0 => []
    | _, 0, _ => []
    | o, l, f + 1 => let n := min l (4096 - o % 4096); (o, n) :: go (o + n) (l - n) f

/-- The beats of a range. -/
def beatsOf (off len : Nat) : List Nat :=
  if len = 0 then [] else (List.range ((off + len - 1) / 128 - off / 128 + 1)).map (· + off / 128)

/-- A byte with its poison mark. -/
abbrev MByte := Byte × Bool

/-- Bytes without poison. -/
def clean (bs : List Byte) : List MByte := bs.map (fun b => (b, false))

/-- The bytes alone. -/
def plain (bs : List MByte) : List Byte := bs.map Prod.fst

/-- Whether any byte is poisoned. -/
def anyPoison (bs : List MByte) : Bool := bs.any Prod.snd

/-- A count of a port advanced by `k` (R30). -/
def State.portCount (s : State) (key k n : Nat) : State := if n = 0 then s else s.bumpBy (unitKey key k) 32 n

/-- One read request of at most 4 KiB (R29, R30). -/
def State.readPiece (s : State) (off len : Nat) : List MByte × State :=
  let k := s.portOf off
  if (s.port k).disabled then (List.replicate len (0xFF, true), s.raise .gmpDisabled (.port k) 0xFF off)
  else
    let beats := beatsOf off len
    let bad := beats.filter (fun b => s.beatStatus b = .address)
    let poisoned := beats.filter (fun b => s.beatStatus b = .poison || (s.beatStatus b = .ok && s.memPoison.contains b))
    let bytes := (List.range len).map fun i =>
      let x := off + i
      if bad.contains (x / 128) then ((0xFF : Byte), true) else (memByte s.mem x, poisoned.contains (x / 128))
    let s := s.portCount Reg.GMP_POISON_RSP k poisoned.length
    let s := s.portCount Reg.GMP_ADDR_ERR k bad.length
    (bytes, match bad with | [] => s | b :: _ => s.raise .gmpAddress (.port k) 0xFF (max off (128 * b)))

/-- A read of local memory by local offset: each byte with its poison mark. -/
def State.memRead (s : State) (off len : Nat) : List MByte × State :=
  (pieces off len).foldl (fun r p => let q := r.2.readPiece p.1 p.2; (r.1 ++ q.1, q.2)) ([], s)

/-- How a write of local memory ended (R252). -/
inductive WriteEnd where
  | ok | poison | address
  deriving DecidableEq, Repr

/-- The worse of two ends: ADDRESS before POISON before OK (R252). -/
def WriteEnd.worse : WriteEnd → WriteEnd → WriteEnd
  | .address, _ => .address
  | _, .address => .address
  | .poison, _ => .poison
  | .ok, b => b

/-- Bytes stored at a local offset. -/
def storeBytes (m : List Host.Cell) (off : Nat) : List Byte → List Host.Cell
  | [] => m
  | b :: bs => storeBytes (Table.put m 0 off b) (off + 1) bs

/-- The poison marks after a write: a beat with a poisoned byte is poisoned; a beat written whole with good bytes is
not; any other keeps its mark (R24). -/
def markBeats (poison : List Nat) (off : Nat) (bs : List MByte) : List Nat :=
  (beatsOf off bs.length).foldl (fun l b =>
    let lo := 128 * b - off
    let part := if off ≤ 128 * b then slice lo 128 bs else bs.take (128 * (b + 1) - off)
    if anyPoison part then setIns b l else if part.length = 128 then setDel b l else l) poison

/-- One write request of at most 4 KiB (R29, R30, R252). A failed write leaves free bytes. -/
def State.writePiece (s : State) (off : Nat) (bs : List MByte) : WriteEnd × State :=
  let k := s.portOf off
  if (s.port k).disabled then (.poison, s.raise .gmpDisabled (.port k) 0xFF off)
  else
    let beats := beatsOf off bs.length
    let bad := beats.filter (fun b => s.beatStatus b = .address)
    let pois := beats.filter (fun b => s.beatStatus b = .poison)
    if bad.isEmpty && pois.isEmpty then
      (.ok, { s with mem := storeBytes s.mem off (plain bs), memPoison := markBeats s.memPoison off bs })
    else
      let r := s.drawBytes bs.length
      let s := { r.2 with mem := storeBytes r.2.mem off r.1 }
      match bad with
      | [] => (.poison, s.portCount Reg.GMP_POISON_RSP k 1)
      | b :: _ => (.address, (s.portCount Reg.GMP_ADDR_ERR k 1).raise .gmpAddress (.port k) 0xFF (max off (128 * b)))

/-- A write of local memory by local offset. -/
def State.memWrite (s : State) (off : Nat) (bs : List MByte) : WriteEnd × State :=
  (pieces off bs.length).foldl
    (fun r p => let q := r.2.writePiece p.1 (slice (p.1 - off) p.2 bs); (r.1.worse q.1, q.2)) (.ok, s)

/-- Local memory over a range set to zero by write-zero requests (R272); a piece whose port is disabled or whose beats
are not answered OK keeps its bytes. -/
def State.memZero (s : State) (off len : Nat) : State :=
  (pieces off len).foldl (fun s p =>
    let k := s.portOf p.1
    let beats := beatsOf p.1 p.2
    if (s.port k).disabled then s.raise .gmpDisabled (.port k) 0xFF p.1
    else match beats.filter (fun b => s.beatStatus b = .address) with
      | b :: _ => (s.portCount Reg.GMP_ADDR_ERR k 1).raise .gmpAddress (.port k) 0xFF (128 * b)
      | [] =>
        if beats.any (fun b => s.beatStatus b = .poison) then s.portCount Reg.GMP_POISON_RSP k 1
        else { s with mem := s.mem.filter (fun c => decide (c.1 < p.1 ∨ p.1 + p.2 ≤ c.1))
                      memPoison := s.memPoison.filter (fun b => decide (128 * b < p.1 ∨ p.1 + p.2 ≤ 128 * b)) }) s

/-- A little-endian field of local memory with its poison mark. -/
def State.memLe (s : State) (off len : Nat) : (Nat × Bool) × State :=
  let r := s.memRead off len
  ((leNat (plain r.1), anyPoison r.1), r.2)

/-! ### Scratchpads -/

/-- The lines of a scratchpad range, as core × 2^15 + line. -/
def spadLines (core addr len : Nat) : List Nat :=
  if len = 0 then [] else (List.range ((addr + len - 1) / 64 - addr / 64 + 1)).map (· + addr / 64 + core * 2 ^ 15)

/-- Whether a range of a scratchpad lies within it (R240). -/
def spadFits (addr len : Nat) : Bool := decide (addr + len ≤ 2 ^ 21)

/-- The event of a read of a never-written line (R268). -/
def State.unwrittenRead (s : State) (core addr : Nat) : State :=
  let s1 := s.bumpAt Reg.SPAD_UNWRITTEN_READS core
  let s2 := if bit (s.regAt Reg.SPAD_UNWRITTEN_FIRST core) 31 then s1
    else (s1.setRegAt Reg.SPAD_UNWRITTEN_FIRST core (2 ^ 31 + addr % 2 ^ 21)).onFlt fun f =>
      { f with named := (core, addr / 64 * 64) :: f.named }
  s2.raise .spadUnwrittenRead (.core core) 0xFF addr

/-- A scratchpad read: all ones, marked, where a line's written bit is clear (R268); marked where its poison bit is set. -/
def State.spadRead (s : State) (core addr len : Nat) : List MByte × State :=
  let lines := spadLines core addr len
  let bytes := (List.range len).map fun i =>
    let l := core * 2 ^ 15 + (addr + i) / 64
    if s.spadWritten.contains l then (Table.get s.spad 0xFF (core * 2 ^ 21 + addr + i), s.spadPoison.contains l)
    else ((0xFF : Byte), true)
  let bad := lines.filter (fun l => !s.spadWritten.contains l)
  (bytes, bad.foldl (fun s l => s.unwrittenRead core (max addr ((l - core * 2 ^ 15) * 64))) s)

/-- Whether a range touches a written line whose poison bit is set (R271). -/
def State.spadPoisoned (s : State) (core addr len : Nat) : Bool :=
  (spadLines core addr len).any (fun l => s.spadWritten.contains l && s.spadPoison.contains l)

/-- Scratchpad bytes stored, `base` being the first cell's key. -/
def storeSpad (m : List Host.Cell) (base : Nat) : List Byte → List Host.Cell
  | [] => m
  | b :: bs => storeSpad (Table.put m 0xFF base b) (base + 1) bs

/-- A scratchpad write (R267, R269): an unwritten line is filled with all ones first. -/
def State.spadWrite (s : State) (core addr : Nat) (bs : List MByte) : State :=
  let lines := spadLines core addr bs.length
  let s := lines.foldl (fun s l =>
    let lo := (l - core * 2 ^ 15) * 64
    let part := if addr ≤ lo then slice (lo - addr) 64 bs else bs.take (lo + 64 - addr)
    { s with
      spad := if s.spadWritten.contains l then s.spad else storeSpad s.spad (core * 2 ^ 21 + lo) (ones 64),
      spadWritten := setIns l s.spadWritten,
      spadPoison := if anyPoison part then setIns l s.spadPoison
        else if part.length = 64 then setDel l s.spadPoison else s.spadPoison }) s
  { s with spad := storeSpad s.spad (core * 2 ^ 21 + addr) (plain bs) }

/-- Written and poison bits cleared over a range of a scratchpad (R270). -/
def State.spadUnwrite (s : State) (core addr len : Nat) : State :=
  let lines := spadLines core addr len
  { s with spadWritten := s.spadWritten.filter (fun l => !lines.contains l),
           spadPoison := s.spadPoison.filter (fun l => !lines.contains l) }

end Sys2Proof.Machine
end

