-- ==== Sys2Proof/Machine/Packet.lean ====
section
/-! DEFINITION. Packets on the wire: headers, flits, the payload check, and the checks an arriving packet meets
(R103 to R109). -/
namespace Sys2Proof.Machine
open Sys2Proof Sys2Proof.Bits

/-- Whether an opcode travels in control class; ONTAN travels in either (R107). -/
def Opcode.control : Opcode → Bool
  | .loadReq | .atomicReq | .atomicRsp | .completion | .negCompletion | .windowReq | .windowGrant | .collAbort
  | .barrier | .cadence | .snapshot | .resetBcast => true
  | _ => false

/-- The capability bit that an opcode needs (R107, R90). -/
def Opcode.capability : Opcode → Option Nat
  | .tallyExp | .tallyChunk => some 0
  | .attendReq | .attendPart => some 2
  | _ => none

/-- Whether an opcode uses the reserved response space (R107). -/
def Opcode.response : Opcode → Bool
  | .loadRsp | .atomicRsp | .completion | .negCompletion | .windowGrant | .attendPart => true
  | _ => false

/-- Whether a request packet holds a landing slot (R162). -/
def Opcode.windowed : Opcode → Bool
  | .loadReq | .store | .copy | .atomicReq | .gatherReq | .scatter | .attendReq => true
  | _ => false

/-- Opcodes that carry the management job (R108). -/
def Opcode.management : Opcode → Bool
  | .ontan | .imageLoad | .cadence => true
  | _ => false

/-- Opcodes that carry the job's own identifier, never 0x000 (R108). -/
def Opcode.jobLevel : Opcode → Bool
  | .barrier | .snapshot | .resetBcast => true
  | _ => false

/-- Opcodes that always have `ORDERED` set (R108). -/
def Opcode.alwaysOrdered : Opcode → Bool
  | .ontan | .imageLoad | .cadence | .snapshot | .resetBcast => true
  | _ => false

/-- The common header of a packet (R104). -/
def Packet.common (p : Packet) : Nat :=
  (if p.data then 2 else 1) + ofBool p.mcast * 2 ^ 2 + ofBool p.ordered * 2 ^ 3 + ofBool p.ltag * 2 ^ 4 + p.op.code * 2 ^ 8 +
    p.payload.length * 2 ^ 16 + p.job * 2 ^ 32 + p.dest * 2 ^ 48 + p.src * 2 ^ 64 + p.tag * 2 ^ 80 + p.gen * 2 ^ 96 +
    p.seq * 2 ^ 104

/-- The payload check (R106). -/
def payCheck (bs : List Byte) : Nat := if bs.isEmpty then 0 else Crc.crc32c 0 bs

/-- The second header of a data packet (R105), with bit 0 at bit 128 of the header. -/
def Packet.dataHeader (p : Packet) : Nat :=
  p.destOffset + p.counter * 2 ^ 48 + payCheck p.payload * 2 ^ 64 + ofBool p.countEn * 2 ^ 96 +
    ofBool p.countUnit * 2 ^ 97 + p.opArg * 2 ^ 112

/-- The bytes of a packet, its padding included (R65, R103). -/
def Packet.bytes (p : Packet) : List Byte :=
  leBytes 16 p.common ++ (if p.data then leBytes 16 p.dataHeader else []) ++ p.payload ++
    zeros ((8 - p.payload.length % 8) % 8)

/-- The flits of a packet, the first marked as its head (R103). -/
def Packet.flits (p : Packet) : List Flit :=
  match words64 p.bytes with
  | [] => []
  | w :: ws => { bits := w, head := true, cont := false } :: ws.map fun x => { bits := x, head := false, cont := false }

/-- Flits that a class and payload length declare (R103). -/
def flitCount (data : Bool) (len : Nat) : Nat := (if data then 4 else 2) + ceilDiv len 8

/-- The opcode of a code (R107). -/
def Opcode.ofCode? (c : Nat) : Option Opcode := Opcode.all.find? (fun o => o.code == c)

/-- What the first flits of a header say before any check: class field, payload length, and the flits declared; none
when the length cannot be trusted (R109). -/
def declared (w : Nat) : Option (Bool × Nat) :=
  let len := fld w 28 16
  match fld w 1 0 with
  | 1 => if len ≤ 16 then some (false, len) else none
  | 2 => if len ≤ 4096 then some (true, len) else none
  | _ => none

/-- A packet read from its flits, the payload cut to `PAY_LEN`; none for an unknown opcode or class. -/
def parsePacket (ws : List Nat) : Option Packet :=
  let bs := ws.flatMap (leBytes 8)
  let h := le 0 16 bs
  let d := le 16 16 bs
  match declared h, Opcode.ofCode? (fld h 15 8) with
  | some (data, len), some op =>
    some { data := data, mcast := bit h 2, ordered := bit h 3, ltag := bit h 4, op := op, job := fld h 43 32,
           dest := fld h 63 48, src := fld h 79 64, tag := fld h 95 80, gen := fld h 103 96, seq := fld h 123 104,
           destOffset := if data then fld d 47 0 else 0, counter := if data then fld d 63 48 else 0,
           countEn := data && bit d 96, countUnit := data && bit d 97, opArg := if data then fld d 127 112 else 0,
           payload := slice (if data then 32 else 16) len bs }
  | _, _ => none

/-- The stored payload check of a packet's flits. -/
def storedCheck (ws : List Nat) : Nat := le 24 4 (ws.flatMap (leBytes 8))

/-- Check 1 of R109: class, opcode, multicast group, and the rules of R108. -/
def Packet.wellFormed (p : Packet) : Bool :=
  (p.op == .ontan || p.data != p.op.control) && (!p.mcast || p.dest < 4096) &&
    (if p.op.management then p.job == 0 else p.job != 0 || !p.op.jobLevel) && (!p.op.alwaysOrdered || p.ordered)

/-- The capabilities that a packet needs (R107, `LTAG`), as a mask. -/
def Packet.needs (p : Packet) : Nat :=
  (match p.op.capability with | some b => 2 ^ b | none => 0) ||| (if p.ltag then 2 else 0)

/-- The logical port that a link belongs to, as its last boundary left it (R116). -/
def State.membersOf (s : State) (lp : Nat) : Nat := Table.get s.pkt.members (if lp < s.build.links then 2 ^ lp else 0) lp

/-- The logical port of a link. -/
def State.lportOf? (s : State) (n : Nat) : Option Nat := (List.range 64).find? fun p => (s.membersOf p).testBit n

/-- The multicast entry of a group (R142). -/
def State.mcastEntry (s : State) (g : Nat) : Nat := s.reg ((0x4200 + g / 128) * 256 + g % 128 + 1)

/-- The route entry of a chip (R144). -/
def State.routeEntry (s : State) (d : Nat) : Nat := s.reg ((0x4400 + d / 128) * 256 + d % 128 + 1)

/-- Checks 1 to 4 of R109 on an arriving packet: the dropped counter's key where one fails. -/
def State.checkHeader (s : State) (n : Nat) (p : Packet) : Option Nat :=
  if !p.wellFormed then some Reg.DROP_MALFORMED
  else if p.needs &&& (s.link n).caps ≠ p.needs then some Reg.DROP_MALFORMED
  else if p.job != 0 && (match s.ctxOfJob? p.job, s.lportOf? n with
      | some c, some lp => !(s.regAt Reg.CTX_PORT_ADMIT c).testBit lp
      | _, _ => true) then some Reg.DROP_JOB
  else if p.mcast then
    let e := s.mcastEntry p.dest
    if bit e 13 && bit e 12 && fld e 11 0 == p.job then none else some Reg.DROP_NOT_FOR_ME
  else if p.dest = s.ownChip then none else some Reg.DROP_NOT_FOR_ME

/-- A packet dropped on a link, counted under its reason and on the link (R109). -/
def State.dropPacket (s : State) (n key : Nat) : State := (s.bump key).bumpAt Reg.LINK_PKT_DROPS n

end Sys2Proof.Machine
end

