-- ==== Sys2Proof/Machine/Link.lean ====
section
/-! DEFINITION. The link layer: flow units, sequence, replay, flow control, training, and going down (R60 to R102). -/
namespace Sys2Proof.Machine
open Sys2Proof Sys2Proof.Bits

/-! ### What a link shows -/

/-- `LINK_STATE` (R100). -/
def LinkState.code (l : LinkState) : Nat :=
  if l.active then (if l.single then 7 else 4) else if l.heldDown then 6 else if l.freewheel then 5 else l.stage.code

/-- `LINK_LANE_MAP` (R101). -/
def LinkState.laneMap (l : LinkState) : Nat :=
  (l.failed % 16) * 2 ^ 11 + (l.failed / 16 % 2) * 2 ^ 15 +
    (match l.single, l.chosen with
     | true, a :: _ => a + 0x1F8
     | _, a :: b :: c :: _ => a + 8 * b + 64 * c
     | _, _ => 0x088)

/-- The settings of 0x3000, as a link reads them when it trains (R99); an XON level not below XOFF is taken as 64 KiB
below it. -/
def State.linkSettings (s : State) : LinkSettings :=
  let xoff := s.reg Reg.LINK_XOFF_LEVEL
  let xon := s.reg Reg.LINK_XON_LEVEL
  { pauseTimeout := s.reg Reg.LINK_PAUSE_TIMEOUT, windowLog2 := s.reg Reg.LINK_ERR_WINDOW_LOG2,
    errThreshold := s.reg Reg.LINK_ERR_THRESHOLD, freewheel := s.reg Reg.LINK_FREEWHEEL,
    ackCount := s.reg Reg.LINK_ACK_COUNT, replayLimit := s.reg Reg.LINK_REPLAY_LIMIT, xoffLevel := xoff,
    xonLevel := if xon < xoff then xon else xoff - 65536, capsMask := s.reg Reg.LINK_CAPS_MASK,
    laneThreshold := s.reg Reg.LINK_LANE_ERR_THRESHOLD, retries := s.reg Reg.LINK_TRAIN_RETRIES }

/-! ### Flow units -/

/-- The seed of a unit's check (R66). -/
def unitSeed : UnitKind → Nat → Nat
  | .data, n => n
  | .replayed, n => 0x1000 ||| n
  | .control, _ => 0x2000
  | .idle, _ => 0x3000

/-- The code of a unit kind (R64). -/
def UnitKind.code : UnitKind → Nat
  | .data => 0 | .replayed => 1 | .control => 2 | .idle => 3

/-- The eight bytes of a control record (R73). -/
def CtlRecord.bytes : CtlRecord → List Byte
  | .empty => zeros 8
  | .ack c => [0x01] ++ leBytes 2 c ++ zeros 5
  | .sack a n => [0x02] ++ leBytes 2 a ++ leBytes 2 n ++ zeros 3
  | .nack a n => [0x03] ++ leBytes 2 a ++ leBytes 2 n ++ zeros 3
  | .ident c l e p => [0x10] ++ leBytes 2 c ++ leBytes 1 l ++ leBytes 2 e ++ leBytes 1 p ++ zeros 1
  | .version a b c d caps => [0x11] ++ leBytes 1 a ++ leBytes 1 b ++ leBytes 1 c ++ leBytes 1 d ++ zeros 1 ++ leBytes 2 caps
  | .confirm r t e => [0x12] ++ [if r then 0x01 else 0x02] ++ leBytes 2 t ++ leBytes 2 e ++ zeros 2
  | .reserved => [0xFF] ++ zeros 7

/-- A control record read from its eight bytes (R73). -/
def CtlRecord.parse (b : List Byte) : CtlRecord :=
  let f (o n : Nat) : Nat := le o n b
  let count := f 3 2 % 2 ^ 16
  match f 0 1 with
  | 0x00 => .empty
  | 0x01 => .ack (f 1 2 % 4096)
  | 0x02 => if count = 0 ∨ 2047 < count then .reserved else .sack (f 1 2 % 4096) count
  | 0x03 => if count = 0 ∨ 2047 < count then .reserved else .nack (f 1 2 % 4096) count
  | 0x10 => .ident (f 1 2) (f 3 1) (f 4 2) (f 6 1 % 32)
  | 0x11 => .version (f 1 1) (f 2 1) (f 3 1) (f 4 1) (f 6 2)
  | 0x12 => match f 1 1 with
    | 1 => .confirm true (f 2 2 % 4096) (f 4 2)
    | 2 => .confirm false (f 2 2 % 4096) (f 4 2)
    | _ => .reserved
  | _ => .reserved

/-- The 252 bytes of a unit that its check covers (R63, R64). -/
def FlowUnit.body (u : FlowUnit) : List Byte :=
  let isData := u.kind == .data || u.kind == .replayed
  let fill := if isData then u.data.fill else if u.kind == .control then u.records.length else 0
  let head := if isData then u.data.firstHead else 31
  let seq := if u.kind == .replayed then u.seq else 0
  let h := u.kind.code * 2 ^ 30 + ofBool u.xoff * 2 ^ 29 + head * 2 ^ 24 + fill * 2 ^ 19 + seq * 2 ^ 7
  fit 252 (leBytes 4 h ++ (if isData then u.data.slots.flatMap (leBytes 8) else u.records.flatMap CtlRecord.bytes))

/-- The 256 bytes of a unit as it travels (R63, R66). -/
def FlowUnit.bytes (u : FlowUnit) : List Byte :=
  u.body ++ leBytes 4 (Crc.crc32c (unitSeed u.kind u.seq) u.body)

/-- The kind that a received unit's header reads. -/
def rawKind (raw : List Byte) : UnitKind :=
  match fld (le 0 4 raw) 31 30 with
  | 0 => .data | 1 => .replayed | 2 => .control | _ => .idle

/-- Whether a received unit passes its check under a seed. -/
def rawCheck (raw : List Byte) (seed : Nat) : Bool := Crc.crc32c seed (raw.take 252) == le 252 4 raw

/-- `FILL` of a received unit. -/
def rawFill (raw : List Byte) : Nat := fld (le 0 4 raw) 23 19

/-- The contents of a received data or replayed unit. -/
def rawData (raw : List Byte) : UnitData :=
  { firstHead := fld (le 0 4 raw) 28 24, fill := rawFill raw,
    slots := (List.range (rawFill raw)).map fun i => le (4 + 8 * i) 8 raw }

/-! ### Going down, and flushing -/

/-- Whether a packet still has a slot queued or held in the replay buffer. -/
def LinkState.carries (l : LinkState) (x : Nat × Nat × Packet) : Bool :=
  decide (l.txPos < x.1 + x.2.1) || l.replay.any (fun r => decide (r.pos < x.1 + x.2.1 ∧ x.1 < r.pos + r.data.fill))

/-- The packet in progress on a link torn (R129): counted, and answered when its header had arrived. -/
def State.tear (s : State) (n : Nat) : State :=
  match (s.link n).asm with
  | none => s
  | some a =>
    let s1 := s.onLink n fun l => { l with asm := none, skip := true }
    if a.dropped then s1
    else match a.admitted, parsePacket a.flits with
      | true, some p =>
        let s2 := s1.dropPacket n Reg.DROP_TORN
        if p.mcast then s2 else s2.sendNeg p p.seq 0x01
      | _, _ => s1.dropPacket n Reg.DROP_TORN_SHORT

/-- A flush (R95). A link not Active since its epoch changed only returns its counts to 0. -/
def State.flush (s : State) (n : Nat) : State :=
  let l := s.link n
  if !l.wasActive then s.onLink n fun l => { l with txNext := 0, next := 0, freewheel := false }
  else
    let lost := (l.txPkts.filter l.carries).map fun x => x.2.2
    let some_ := !l.replay.isEmpty || !l.txQueue.isEmpty || !l.held.isEmpty || l.asm.isSome
    let epoch := (s.regAt Reg.LINK_EPOCH n + 1) % 2 ^ 16
    let s1 := (if l.rxFlits.isEmpty then s.tear n else s).onLink n fun l =>
      { l with replay := [], txQueue := [], txPkts := [], txPos := 0, held := [], missing := [], nackDue := [], ackDue := false,
               txNext := 0, next := 0, freewheel := false, wasActive := false, xoffIn := false }
    let s2 := ((s1.setRegAt Reg.LINK_EPOCH n epoch).bumpAt Reg.LINK_FLUSHES n).onPkt fun p =>
      { p with lost := p.lost ++ lost.map fun x => (x, 0x01) }
    if some_ then s2.raise .linkFlush (.link n) 0xFF epoch else s2

/-- The link Held Down: its PHY in reset, no attempt due (R88). -/
def State.holdDown (s : State) (n : Nat) : State :=
  s.onLink n fun l => { l with heldDown := true, phyRstN := false, stage := .idle, trainDue := false }

/-- A link goes down with a cause (R92, R93). -/
def State.goDown (s : State) (n : Nat) (c : DownCause) : State :=
  if !(s.link n).active then s
  else
    let wheel := (s.link n).set.freewheel != 0
    let s1 := s.onLink n fun l =>
      { l with active := false, stage := .idle, freewheel := wheel, trainDue := true, attempts := 0, winUnits := 0,
               laneErrs := [0, 0, 0, 0, 0], badRun := 0, xoffIn := false, ackTimer := false }
    let s2 := ((s1.bumpAt Reg.LINK_DOWN_EVENTS n).setRegAt Reg.LINK_DOWN_CAUSE n c.code).setRegAt Reg.LINK_BAD_UNITS n 0
    let s3 := s2.raise .linkDown (.link n) 0xFF c.code
    if wheel then s3 else s3.flush n

/-- A position marked failed (R96, R97): the spare's loss is a Notice. -/
def State.failPosition (s : State) (n pos : Nat) : State :=
  let s1 := s.onLink n fun l => { l with failed := setBit l.failed pos }
  if pos = 4 ∧ !(s.link n).failed.testBit 4 then s1.raise .spareLost (.link n) 0xFF 0 else s1

/-- Whether four lanes can no longer be formed: two working positions failed, or one and the spare (R87, R97). -/
def LinkState.exhausted (l : LinkState) : Bool :=
  decide (2 ≤ popCount 4 l.failed ∨ (1 ≤ popCount 4 l.failed ∧ l.failed.testBit 4))

/-! ### Receiving -/

/-- Occupancy of the receive buffer in units: held, awaiting delivery, and the reserved space (R72, R80). -/
def LinkState.occupancy (l : LinkState) : Nat :=
  l.held.length + ceilDiv l.rxFlits.length 31 + (if l.missing.isEmpty then 0 else 1)

/-- XOFF as the occupancy has it (R80). -/
def LinkState.updateXoff (l : LinkState) : LinkState :=
  let b := 256 * l.occupancy
  { l with xoffOut := if l.set.xoffLevel ≤ b then true else if b < l.set.xonLevel then false else l.xoffOut }

/-- The flits of a unit's contents, with the head that `FIRST_HEAD` marks. -/
def UnitData.flits (d : UnitData) : List Flit :=
  (List.range d.slots.length).zip d.slots |>.map fun x => { bits := x.2, head := x.1 == d.firstHead, cont := decide (x.1 < d.firstHead) }

/-- Held units at the front of the sequence delivered to the packet layer in order (R72): every unit before the oldest
missing one. -/
def LinkState.deliver (l : LinkState) : LinkState :=
  go l (l.held.length)
where
  /-- Delivers up to `fuel` units. -/
  go : LinkState → Nat → LinkState
    | l, 0 => l
    | l, f + 1 =>
      match l.held with
      | [] => l
      | (q, d) :: rest =>
        match l.missing with
        | m :: _ =>
          if (q + 4096 - m) % 4096 < 2048 then l
          else go { l with held := rest, rxFlits := l.rxFlits ++ d.flits } f
        | [] => go { l with held := rest, rxFlits := l.rxFlits ++ d.flits } f

/-- A unit put among the held ones in sequence order, `base` being a sequence number at or before every held one. -/
def insertHeld (base q : Nat) (d : UnitData) : List (Nat × UnitData) → List (Nat × UnitData)
  | [] => [(q, d)]
  | (x, e) :: t =>
    if (q + 4096 - base) % 4096 < (x + 4096 - base) % 4096 then (q, d) :: (x, e) :: t
    else (x, e) :: insertHeld base q d t

/-- A good data unit taken as sequence `q`: held, then delivered as far as possible (R72). -/
def LinkState.accept (l : LinkState) (q : Nat) (d : UnitData) : LinkState :=
  let base := match l.missing, l.held with
    | m :: _, _ => m
    | [], (x, _) :: _ => x
    | [], [] => q
  let l := { l with held := insertHeld base q d l.held, missing := l.missing.filter (· != q) }
  l.deliver.updateXoff

/-- Sequence numbers from `a` up to before `b`. -/
def seqRange (a b : Nat) : List Nat := (List.range ((b + 4096 - a) % 4096)).map fun i => (a + i) % 4096

/-- Adjacent runs of a list of sequence numbers (R74, R75). -/
def seqRuns : List Nat → List (Nat × Nat)
  | [] => []
  | q :: qs =>
    match seqRuns qs with
    | (a, n) :: rest => if a = (q + 1) % 4096 then (q, n + 1) :: rest else (q, 1) :: (a, n) :: rest
    | [] => [(q, 1)]

/-- Sequence numbers recorded as missing, each with its NACK due (R75). -/
def LinkState.noteMissing (l : LinkState) (qs : List Nat) : LinkState :=
  { l with missing := l.missing ++ qs, nackDue := seqRuns (l.nackDue.flatMap (fun x => (List.range x.2).map (fun i => (x.1 + i) % 4096)) ++ qs) }

/-- A reception counted toward the next ACK (R74). -/
def LinkState.countForAck (l : LinkState) : LinkState :=
  if l.set.ackCount ≤ l.sinceAck + 1 then { l with sinceAck := 0, ackDue := true, ackTimer := false }
  else { l with sinceAck := l.sinceAck + 1, ackTimer := true }

/-- A received unit counted in the error window, with its flagged words (R83, R96); the first cause that takes the link
down. -/
def State.countUnit (s : State) (n : Nat) (bad : Bool) (uncorr : List Nat) : State :=
  let l := s.link n
  let laneErrs := (List.range 5).map fun p => l.laneErrs.getD p 0 + uncorr.count p
  let badCount := s.regAt Reg.LINK_BAD_UNITS n + ofBool bad
  let badRun := if bad then l.badRun + 1 else 0
  let s1 := (s.setRegAt Reg.LINK_BAD_UNITS n badCount).onLink n fun l =>
    { l with laneErrs := laneErrs, badRun := badRun, winUnits := l.winUnits + 1 }
  let s2 := if bad then s1.bumpBy Reg.OBS_LINK_BAD 64 1 else s1
  match l.chosen.find? (fun p => decide (l.set.laneThreshold < laneErrs.getD p 0)) with
  | some p => (s2.failPosition n p).goDown n .lane
  | none =>
    if 8 ≤ badRun then s2.goDown n .framing
    else if l.set.errThreshold < badCount then s2.goDown n .errorRate
    else if 2 ^ l.set.windowLog2 ≤ l.winUnits + 1 then
      (s2.setRegAt Reg.LINK_BAD_UNITS n 0).onLink n fun l => { l with winUnits := 0, laneErrs := [0, 0, 0, 0, 0] }
    else s2

/-- XOFF taken from a good unit (R81). -/
def State.takeXoff (s : State) (n : Nat) (raw : List Byte) : State :=
  s.onLink n fun l => { l with xoffIn := bit (le 0 4 raw) 29 }

/-- A bad unit whose header reads data or replayed: NEXT is recorded as missing (R68). -/
def State.badData (s : State) (n : Nat) (uncorr : List Nat) : State :=
  (s.onLink n fun l => (({ l with next := (l.next + 1) % 4096 }).noteMissing [l.next]).countForAck).countUnit n true uncorr

/-- A data or replayed unit dropped for lack of space (R72). -/
def State.overflow (s : State) (n : Nat) (uncorr : List Nat) : State :=
  (s.bumpAt Reg.LINK_OVERFLOWS n).badData n uncorr

/-- Whether the receive buffer can take a new unit: one space stays free for the oldest missing unit (R72). -/
def LinkState.hasRoom (l : LinkState) (gap : Bool) : Bool :=
  decide (l.held.length + ceilDiv l.rxFlits.length 31 + (if gap ∨ !l.missing.isEmpty then 1 else 0) < 1536)

/-- A received unit headed as data (R68). -/
def State.rxData (s : State) (n : Nat) (raw : List Byte) (uncorr : List Nat) : State :=
  let l := s.link n
  let d := rawData raw
  let nx := l.next
  let prev := (nx + 4095) % 4096
  if !l.active || rawKind raw != .data then s
  else if !uncorr.isEmpty || d.fill == 0 then s.badData n uncorr
  else if rawCheck raw nx then
    if !l.hasRoom false then s.overflow n uncorr
    else ((s.onLink n fun l => (({ l with next := (nx + 1) % 4096 }).accept nx d).countForAck).takeXoff n raw).countUnit n false uncorr
  else if rawCheck raw ((nx + 1) % 4096) then
    if !l.hasRoom true then s.overflow n uncorr
    else ((s.onLink n fun l =>
      ((({ l with next := (nx + 2) % 4096 }).noteMissing [nx]).accept ((nx + 1) % 4096) d).countForAck).takeXoff n raw).countUnit n false uncorr
  else if l.missing.contains prev && rawCheck raw prev then
    ((s.onLink n fun l => (l.accept prev d).countForAck).takeXoff n raw).countUnit n false uncorr
  else s.badData n uncorr

/-- A received replayed unit (R71). -/
def State.rxReplayed (s : State) (n : Nat) (raw : List Byte) (uncorr : List Nat) : State :=
  let l := s.link n
  let d := rawData raw
  let q := fld (le 0 4 raw) 18 7
  let diff := (q + 4096 - l.next) % 4096
  if !l.active || rawKind raw != .replayed then s
  else if !uncorr.isEmpty || d.fill == 0 || !rawCheck raw (0x1000 ||| q) then s.badData n uncorr
  else
    let ok (s : State) : State := (s.takeXoff n raw).countUnit n false uncorr
    if 2048 ≤ diff then
      if l.missing.contains q then ok (s.onLink n fun l => (l.accept q d).countForAck)
      else ok ((s.bumpAt Reg.LINK_DUP_UNITS n).onLink n LinkState.countForAck)
    else if !l.hasRoom (diff != 0) then s.overflow n uncorr
    else ok (s.onLink n fun l =>
      ((({ l with next := (q + 1) % 4096 }).noteMissing (seqRange l.next q)).accept q d).countForAck)

/-- A received idle unit: its check and its XOFF bit (R66, R81). -/
def State.rxIdle (s : State) (n : Nat) (raw : List Byte) (uncorr : List Nat) : State :=
  if !(s.link n).active || rawKind raw != .idle then s
  else if !uncorr.isEmpty || !rawCheck raw 0x3000 then s.countUnit n true uncorr
  else (s.takeXoff n raw).countUnit n false uncorr

/-! ### Acknowledgement -/

/-- Units freed from the replay buffer: those that a test selects, never one not yet sent (R77). -/
def LinkState.free (l : LinkState) (p : Nat → Bool) : LinkState :=
  let l := { l with replay := l.replay.filter (fun r => !p r.seq) }
  { l with txPkts := l.txPkts.filter l.carries }

/-- Whether a sequence number lies in a run. -/
def inRun (start count q : Nat) : Bool := decide ((q + 4096 - start) % 4096 < count)

/-- Whether an ACK covers a sequence number: at or before `CUM_SEQ` within half the space. -/
def ackCovers (cum q : Nat) : Bool := decide ((cum + 4096 - q) % 4096 < 2048)

/-- One more replay of the units that a test selects, or the link down at the replay limit (R78). -/
def State.replayUnits (s : State) (n : Nat) (p : Nat → Bool) : State :=
  let l := s.link n
  let hit (r : ReplayEntry) : Bool := p r.seq && !r.due
  if l.replay.any (fun r => hit r && decide (l.set.replayLimit ≤ r.replays)) then s.goDown n .replayLimit
  else s.onLink n fun l => { l with replay := l.replay.map fun r => if hit r then { r with due := true } else r }

/-! ### Version, decision and becoming Active -/

/-- The agreed version of two VERSION records: the highest major both list, and the lower minor (R89). -/
def agreeVersion (a : Nat × Nat × Nat × Nat × Nat) : Option Nat :=
  let minor (m own : Nat) : Option Nat :=
    if a.1 = m then some (min own a.2.1) else if a.2.2.1 = m then some (min own a.2.2.2.1) else none
  match minor 5 0 with
  | some k => some (0x500 + k)
  | none => (minor 4 3).map (0x400 + ·)

/-- The agreed capabilities: the AND of both sides and the mask; bits 0 to 2 off with major 4 (R89). -/
def agreeCaps (version partner mask : Nat) : Nat :=
  let c := 0x1F &&& partner &&& mask
  if version / 256 = 4 then c &&& 0x18 else c

/-- The lane bitmap that a side sends in IDENT. -/
def LinkState.laneBits (l : LinkState) : Nat := maskOf l.chosen

/-- An attempt fails: 1 ms until the next, or Held Down after `LINK_TRAIN_RETRIES` failures (R88). Four lanes lost for
good hold the link down once it has flushed (R97). -/
def State.attemptFails (s : State) (n : Nat) : State :=
  let l := s.link n
  if l.exhausted && !l.freewheel && !l.offerSingle then
    (s.holdDown n).raise .laneExhausted (.link n) 0xFF l.laneMap
  else if l.set.retries ≤ l.attempts + 1 then
    ((s.onLink n fun l => { l with attempts := l.attempts + 1 }).holdDown n).raise .linkTrainFail (.link n) 0xFF 0
  else s.onLink n fun l => { l with attempts := l.attempts + 1, stage := .idle, phyRstN := false, trainDue := false }

/-- Whether this side decides RESUME (R94). -/
def LinkState.resumes (l : LinkState) (chip link epoch version caps : Nat) : Bool :=
  l.freewheel && (match l.stored with
    | none => false
    | some p => p.chip == chip && p.link == link && p.epoch == epoch && p.version == version && p.caps == caps &&
        p.single == l.single)

/-- The version, the lanes and the decision judged once the partner's IDENT and VERSION are both in (R87, R89, R94). -/
def State.judgeExchange (s : State) (n : Nat) : State :=
  let l := s.link n
  match l.sentConfirm, l.gotIdent, l.gotVersion with
  | none, some (chip, link, epoch, lanes), some v =>
    match agreeVersion v with
    | none => (s.holdDown n).raise .linkVersion (.link n) 0xFF v.1
    | some ver =>
      let caps := agreeCaps ver v.2.2.2.2 l.set.capsMask
      if lanes ≠ l.laneBits ∨ (l.chosen.contains 4 ∧ !l.single ∧ !caps.testBit 3) then s.attemptFails n
      else
        let r := l.resumes chip link epoch ver caps
        s.onLink n fun l => { l with version := ver, caps := caps, sentConfirm := some r, confirmDue := true }
  | _, _, _ => s

/-- The partner's CONFIRM: both sides RESUME, or both flush; the link is then Active (R86, R94). -/
def State.takeConfirm (s : State) (n : Nat) (resume : Bool) (txNext epoch : Nat) : State :=
  let l := s.link n
  match l.sentConfirm, l.gotIdent with
  | some own, some (chip, link, _, _) =>
    let p : Partner := { chip := chip, link := link, epoch := epoch, version := l.version, caps := l.caps, single := l.single }
    let spared := !l.single && l.chosen.contains 4
    let up (s : State) : State :=
      let s1 := ((s.setRegAt Reg.LINK_BAD_UNITS n 0).setRegAt Reg.LINK_PARTNER n (chip * 2 ^ 16 + link)).onLink n fun l =>
        { l with active := true, stage := .idle, freewheel := false, heldDown := false, attempts := 0, wasActive := true,
                 stored := some p, identDue := false, winUnits := 0, laneErrs := [0, 0, 0, 0, 0], badRun := 0,
                 rxHeads := 0, txHeads := 0, xoffIn := false }
      if spared then s1.raise .laneSpared (.link n) 0xFF ((bitsOf 4 l.failed).headD 0) else s1
    if own && resume then
      up (s.onLink n fun l =>
        { (l.noteMissing (if (txNext + 4096 - l.next) % 4096 < 2048 then seqRange l.next txNext else [])) with
          next := txNext, replay := l.replay.map fun r => { r with due := true } })
    else up (s.flush n)
  | _, _ => s

/-- One control record received (R73, R77, R86). -/
def State.takeRecord (s : State) (n : Nat) (r : CtlRecord) : State :=
  let l := s.link n
  match r with
  | .empty => s
  | .ack c => if l.active then s.onLink n fun l => l.free (ackCovers c) else s
  | .sack a k => if l.active then s.onLink n fun l => l.free (inRun a k) else s
  | .nack a k => if l.active then s.replayUnits n (inRun a k) else s
  | .ident c k e p =>
    if l.active then s.onLink n fun l => { l with confirmDue := true }
    else if l.stage = .exchange then (s.onLink n fun l => { l with gotIdent := some (c, k, e, p) }).judgeExchange n
    else s
  | .version a b c d caps =>
    if l.active then s.onLink n fun l => { l with confirmDue := true }
    else if l.stage = .exchange then (s.onLink n fun l => { l with gotVersion := some (a, b, c, d, caps) }).judgeExchange n
    else s
  | .confirm r t e =>
    if l.active then s.onLink n fun l => { l with confirmDue := true }
    else if l.stage = .exchange then s.takeConfirm n r t e
    else s
  | .reserved => s.bumpAt Reg.LINK_DUP_UNITS n

/-- A received control unit (R66, R73). -/
def State.rxControl (s : State) (n : Nat) (raw : List Byte) (uncorr : List Nat) : State :=
  let l := s.link n
  if !(l.active || l.stage == .exchange) || rawKind raw != .control then s
  else if !uncorr.isEmpty || !rawCheck raw 0x2000 then if l.active then s.countUnit n true uncorr else s
  else
    let s1 := (List.range (min 31 (rawFill raw))).foldl
      (fun s i => s.takeRecord n (CtlRecord.parse (slice (4 + 8 * i) 8 raw))) (if l.active then s.takeXoff n raw else s)
    if l.active then s1.countUnit n false uncorr else s1

/-! ### Transmitting -/

/-- The ACK and SACK records that a receiver's state gives (R74): at most 29 runs. -/
def LinkState.ackRecords (l : LinkState) : List CtlRecord :=
  let cum := match l.missing with | m :: _ => (m + 4095) % 4096 | [] => (l.next + 4095) % 4096
  let runs := if l.caps.testBit 4 then (seqRuns (l.held.map Prod.fst)).take 29 else []
  .ack cum :: runs.map fun r => .sack r.1 r.2

/-- The training records due: IDENT and VERSION, or CONFIRM (R86). -/
def State.trainRecords (s : State) (n : Nat) : List CtlRecord :=
  let l := s.link n
  (if l.identDue then [.ident s.ownChip n (s.regAt Reg.LINK_EPOCH n) l.laneBits, .version 5 0 4 3 0x1F] else []) ++
    (if l.confirmDue then match l.sentConfirm with
      | some r =>
        let e := s.regAt Reg.LINK_EPOCH n
        [.confirm r l.txNext (if r || !l.wasActive then e else (e + 1) % 2 ^ 16)]
      | none => [] else [])

/-- Whether the transmitter may start a new data unit (R79, R81). -/
def LinkState.mayStart (l : LinkState) : Bool :=
  !l.xoffIn && !l.txQueue.isEmpty && decide (l.replay.length < 1024) &&
    (match l.replay with
     | [] => true
     | r :: _ => decide ((l.txNext + 4096 - r.seq) % 4096 + 1 < 2049))

/-- The next data unit from the transmit queue: up to 31 slots, its first head marked. -/
def LinkState.nextData (l : LinkState) : UnitData :=
  let fl := l.txQueue.take 31
  { firstHead := (fl.findIdx? (·.head)).getD 31, fill := fl.length, slots := fl.map (·.bits) }

/-- The unit that R76 chooses at a boundary, and the link after it is sent. -/
def State.chooseUnit (s : State) (n : Nat) : FlowUnit × State :=
  let l := s.link n
  let none_ : UnitData := { firstHead := 31, fill := 0, slots := [] }
  let first := (l.nackDue.take 31).map (fun r => CtlRecord.nack r.1 r.2) ++ s.trainRecords n
  let ctl (rs : List CtlRecord) : FlowUnit := { kind := .control, xoff := l.xoffOut, seq := 0, data := none_, records := rs }
  let acks := if l.ackDue then l.ackRecords else []
  if !first.isEmpty then
    let all := first.take 31
    let fits := decide (all.length + acks.length ≤ 31)
    (ctl (if fits then all ++ acks else all),
      s.onLink n fun l => { l with nackDue := l.nackDue.drop 31, identDue := false, confirmDue := false,
                                   ackDue := l.ackDue && !fits })
  else if !l.active then ({ kind := .idle, xoff := l.xoffOut, seq := 0, data := none_, records := [] }, s)
  else match l.replay.find? (·.due) with
    | some r =>
      ({ kind := .replayed, xoff := l.xoffOut, seq := r.seq, data := r.data, records := [] },
        ((s.onLink n fun l => { l with replay := updFirst (fun x => x.seq == r.seq) (fun x => { x with due := false, replays := x.replays + 1 }) l.replay }).bumpAt
          Reg.LINK_REPLAYS n).bumpBy Reg.OBS_LINK_REPLAYS 64 1)
    | none =>
      if !acks.isEmpty then (ctl acks, s.onLink n fun l => { l with ackDue := false })
      else if l.mayStart then
        let d := l.nextData
        ({ kind := .data, xoff := l.xoffOut, seq := l.txNext, data := d, records := [] },
          s.onLink n fun l =>
            { l with txNext := (l.txNext + 1) % 4096, txQueue := l.txQueue.drop d.fill, txPos := l.txPos + d.fill,
                     replay := l.replay ++ [{ seq := l.txNext, data := d, replays := 0, pos := l.txPos, due := false }],
                     txHeads := l.txHeads + (l.txQueue.take d.fill).countP (·.head) })
      else ({ kind := .idle, xoff := l.xoffOut, seq := 0, data := none_, records := [] }, s)

/-- The logical ports of a link as `LPORT_LINKS` has them now (R116). -/
def State.takeMembers (s : State) (n : Nat) : State :=
  (List.range 64).foldl (fun s p =>
    let want := s.regAt Reg.LPORT_LINKS p
    let have_ := s.membersOf p
    if want.testBit n = have_.testBit n then s
    else
      let m := if want.testBit n then setBit have_ n else clearBit have_ n
      s.onPkt fun k => { k with members := Table.insert k.members p m }) s

/-- A unit boundary (R76): one unit is sent on an Active link, or on one in Exchange. A changed member set takes effect
on the link's logical ports once no packet is in progress (R116). -/
def State.unitBoundary (s : State) (n : Nat) : State :=
  let l := s.link n
  if !(l.active || l.stage == .exchange) then s
  else
    let r := s.chooseUnit n
    let s1 := r.2.onLink n fun l => { l with lastSent := some r.1 }
    if l.asm.isNone && l.txQueue.isEmpty then s1.takeMembers n else s1

/-! ### Training -/

/-- A training attempt starts in Detect (R86). The settings of 0x3000 are read (R99). -/
def State.trainingStart (s : State) (n : Nat) : State :=
  let l := s.link n
  if l.active || l.heldDown || !l.trainDue || !s.rst.lclk.testBit n || s.regAt Reg.LINK_ENABLE n == 0 then s
  else s.onLink n fun l =>
    { l with stage := .detect, phyRstN := true, trainDue := false, set := s.linkSettings,
             positions := [.blank, .blank, .blank, .blank, .blank], gotIdent := none, gotVersion := none,
             sentConfirm := none, identDue := false, confirmDue := false }

/-- Positions on which this side sends ALIGN words: not one marked failed, nor the spare without its capability (R87). -/
def LinkState.offered (l : LinkState) (p : Nat) : Bool :=
  !l.failed.testBit p && (p != 4 || l.set.capsMask.testBit 3) &&
    (!l.offerSingle || p == (if l.failed.testBit 0 then 4 else 0))

/-- Detect succeeds when PHY ready is high on at least four positions, or on position 0 or 4 for a single lane (R86). -/
def State.detectSuccess (s : State) (n ready : Nat) : State :=
  let l := s.link n
  let enough := if l.offerSingle then ready.testBit 0 || ready.testBit 4 else decide (4 ≤ popCount 5 ready)
  if l.stage ≠ .detect || !enough then s
  else s.onLink n fun l =>
    { l with stage := .align, positions := (List.range 5).map fun p => { Position.blank with ready := ready.testBit p } }

/-- The positions that a link chooses from those locked (R87); none when they cannot be formed. -/
def chooseLanes (single : Bool) (failed : Nat) (locked : Nat → Bool) : Option (List Nat) :=
  if single then
    let p := if failed.testBit 0 || !locked 0 then 4 else 0
    if locked p then some [p] else none
  else
    let work := (List.range 4).filter locked
    if work.length = 4 then some work
    else if work.length = 3 ∧ locked 4 then some (work ++ [4])
    else none

/-- A good training word on a position (R84, R86). -/
def State.trainWord (s : State) (n pos : Nat) (w : Nat) : State :=
  let l := s.link n
  let count := fld w 50 35
  let single := l.offerSingle || bit w 57
  let old := l.positions.getD pos .blank
  let run := if old.good != 0 && count == (old.count + 1) % 65536 then old.good + 1 else 1
  let now : Position :=
    { old with good := run, count := count, locked := old.locked || decide (64 ≤ run), partner := fld w 63 61,
               readyWords := if fld w 60 58 = 2 then old.readyWords + 1 else old.readyWords }
  let s1 := s.onLink n fun l => { l with positions := l.positions.set pos now, single := single }
  let locked (p : Nat) : Bool := (s1.link n).offered p && ((s1.link n).positions.getD p .blank).locked
  match chooseLanes single (s1.link n).failed locked with
  | none => s1
  | some lanes =>
    if lanes.all (fun p => decide (64 ≤ ((s1.link n).positions.getD p .blank).readyWords)) then
      s1.onLink n fun l => { l with chosen := lanes, stage := .exchange, identDue := true }
    else s1.onLink n fun l => { l with chosen := lanes }

/-- A training word received on a position (R84). On an Active link it is the partner's retraining: cause PARTNER
(R92). -/
def State.rxTraining (s : State) (n pos w : Nat) : State :=
  let l := s.link n
  let bs := leBytes 16 w
  let good := fld w 127 64 == 0xA5C33C5A0F9669F0 && Crc.crc16 (bs.drop 2) == fld w 15 0 &&
    (fld w 60 58 == 1 || fld w 60 58 == 2)
  if 5 ≤ pos then s
  else if l.active then if good then s.goDown n .partner else s
  else if l.stage ≠ .align || !(l.positions.getD pos .blank).ready || !l.offered pos then s
  else if good then s.trainWord n pos w
  else s.onLink n fun l =>
    { l with positions := l.positions.set pos { (l.positions.getD pos .blank) with good := 0 } }

/-- The lock deadline: a position not locked counts as failed for the attempt; without lanes the attempt fails (R86). -/
def State.lockDeadline (s : State) (n : Nat) : State :=
  let l := s.link n
  if l.stage ≠ .align then s
  else
    let locked (p : Nat) : Bool := l.offered p && (l.positions.getD p .blank).locked
    let mark (p : Nat) : Position :=
      if locked p then l.positions.getD p .blank else { (l.positions.getD p .blank) with ready := false }
    let s1 := s.onLink n fun l => { l with positions := (List.range 5).map mark }
    if (chooseLanes (l.offerSingle || l.single) l.failed locked).isNone then s1.attemptFails n else s1

/-- The command that starts training (R85, R88): an Active link goes down with cause COMMAND. -/
def State.retrain (s : State) (n : Nat) : State :=
  if (s.link n).active then s.goDown n .command
  else s.onLink n fun l => { l with heldDown := false, attempts := 0, trainDue := true, stage := .idle }

/-- `LINK_ENABLE` FALSE: a flush at once, and Down (R95, R85). -/
def State.disableLink (s : State) (n : Nat) : State :=
  (s.flush n).onLink n fun l =>
    { l with active := false, stage := .idle, phyRstN := false, trainDue := false, heldDown := false, freewheel := false }

/-- TRAINING_RETRY_WAIT: 1 ms after a failed attempt the next begins (R88). -/
def State.retryWait (s : State) (n : Nat) : State :=
  let l := s.link n
  if l.active || l.heldDown || l.stage != .idle || l.attempts == 0 then s
  else (s.onLink n fun l => { l with trainDue := true }).trainingStart n

/-! ### Timers -/

/-- ACK_TIMER_EXPIRE: ACK and SACK records fall due (R74). -/
def State.ackTimer (s : State) (n : Nat) : State :=
  if (s.link n).active && (s.link n).ackTimer then s.onLink n fun l => { l with ackDue := true, ackTimer := false, sinceAck := 0 }
  else s

/-- REPLAY_TIMEOUT: a unit neither freed nor already due is replayed, or the link goes down (R78). -/
def State.replayTimeout (s : State) (n seq : Nat) : State :=
  if (s.link n).active then s.replayUnits n (· == seq) else s

/-- SILENCE_TIMEOUT (R70). -/
def State.silence (s : State) (n : Nat) : State := s.goDown n .silence

/-- PAUSE_TIMEOUT: XOFF has been in effect for too long (R82). -/
def State.pauseTimeout (s : State) (n : Nat) : State := if (s.link n).xoffIn then s.goDown n .pause else s

/-- LANE_FAIL: a working lane takes the link down; the spare's own loss is only recorded (R96, R97). -/
def State.laneFail (s : State) (n pos : Nat) : State :=
  let l := s.link n
  if !l.active then s
  else if l.chosen.contains pos then (s.failPosition n pos).goDown n .lane
  else if pos = 4 ∧ !l.single then s.failPosition n pos
  else s

/-- DETECT_TIMEOUT (R86). -/
def State.detectTimeout (s : State) (n : Nat) : State := if (s.link n).stage = .detect then s.attemptFails n else s

/-- TRAINING_ATTEMPT_TIMEOUT: not Active by D + 100 µs (R86). -/
def State.attemptTimeout (s : State) (n : Nat) : State :=
  if (s.link n).stage = .align ∨ (s.link n).stage = .exchange then s.attemptFails n else s

/-- TRAINING_RECORD_REPEAT: IDENT and VERSION, and CONFIRM once it has been sent, fall due again (R86). -/
def State.recordRepeat (s : State) (n : Nat) : State :=
  if (s.link n).stage = .exchange then
    s.onLink n fun l => { l with identDue := true, confirmDue := l.confirmDue || l.sentConfirm.isSome }
  else s

/-- FREEWHEEL_EXPIRE: the side flushes; where four lanes can no longer be formed, the link is held down (R95, R97). -/
def State.freewheelExpire (s : State) (n : Nat) : State :=
  let l := s.link n
  if l.active || !l.freewheel then s
  else
    let s1 := s.flush n
    if l.exhausted && !l.offerSingle && l.stage == .idle then (s1.holdDown n).raise .laneExhausted (.link n) 0xFF l.laneMap
    else s1

/-- A link held down because its clock is missing or out of range (R51, R53). -/
def State.holdForClock (s : State) (n : Nat) : State :=
  ((if (s.link n).active then s.goDown n .silence else s).onLink n fun l =>
    { l with stage := .idle, phyRstN := false, trainDue := true }).onRst fun r => { r with lclk := clearBit r.lclk n }

end Sys2Proof.Machine
end

