-- ==== Sys2Proof/Machine/CoreOps.lean ====
section
/-! DEFINITION. Cores, contexts, semaphores and completion counters: the operations that engines, packets and the
dispatcher share (R246 to R251, R278, R287, R294, R409). -/
namespace Sys2Proof.Machine
open Sys2Proof Sys2Proof.Bits

/-- Core C*n*. -/
def State.core (s : State) (n : Nat) : CoreState := Table.get s.cores CoreState.reset n

/-- Core C*n* changed by a function. -/
def State.onCore (s : State) (n : Nat) (f : CoreState → CoreState) : State :=
  { s with cores := Table.put s.cores CoreState.reset n (f (s.core n)) }

/-- Context *c*. -/
def State.ctx (s : State) (c : Nat) : CtxState := Table.get s.ctxs CtxState.idle c

/-- Context *c* changed by a function. -/
def State.onCtx (s : State) (c : Nat) (f : CtxState → CtxState) : State :=
  { s with ctxs := Table.put s.ctxs CtxState.idle c (f (s.ctx c)) }

/-- The far lines and the directory changed by a function. -/
def State.onFar (s : State) (f : FarState → FarState) : State := { s with far := f s.far }

/-- The dispatcher changed by a function. -/
def State.onDisp (s : State) (f : DispState → DispState) : State := { s with disp := f s.disp }

/-- The governor changed by a function. -/
def State.onPwr (s : State) (f : PowerState → PowerState) : State := { s with pwr := f s.pwr }

/-- The trace writer changed by a function. -/
def State.onTrc (s : State) (f : TraceState → TraceState) : State := { s with trc := f s.trc }

/-- The job of a context. -/
def State.jobOf (s : State) (c : Nat) : Nat := s.regAt Reg.CTX_JOB_ID c

/-- The generation of a context (R276). -/
def State.genOf (s : State) (c : Nat) : Nat := s.regAt Reg.CTX_GENERATION c

/-- Whether a context is Open (R296). -/
def State.isOpen (s : State) (c : Nat) : Bool := s.regAt Reg.CTX_STATE c == 1

/-- Whether a context owns its resources: it is not Closed (R275). -/
def State.holdsResources (s : State) (c : Nat) : Bool := s.regAt Reg.CTX_STATE c != 0

/-- Whether a semaphore lies in a context's window (R275). -/
def State.ownsSem (s : State) (c n : Nat) : Bool :=
  let b := s.regAt Reg.CTX_SEM_BASE c
  decide (b ≤ n ∧ n < b + s.regAt Reg.CTX_SEM_COUNT c)

/-- Whether a completion counter lies in a context's window (R275). -/
def State.ownsCounter (s : State) (c n : Nat) : Bool :=
  let b := s.regAt Reg.CTX_CNT_BASE c
  decide (b ≤ n ∧ n < b + s.regAt Reg.CTX_CNT_COUNT c)

/-- The context that owns a semaphore. -/
def State.ownerOfSem (s : State) (n : Nat) : Option Nat :=
  (List.range 64).find? fun c => s.holdsResources c && s.ownsSem c n

/-- The context that owns a completion counter. -/
def State.ownerOfCounter (s : State) (n : Nat) : Option Nat :=
  (List.range 64).find? fun c => s.holdsResources c && s.ownsCounter c n

/-! ### Progress -/

/-- The key of an engine of a core in the progress table. -/
def engineKey (core : Nat) (e : Engine) : Nat := 8 * core + e.code

/-- The key of a reduction unit in the progress table. -/
def reductionKey (part : Nat) : Nat := 1024 + part

/-- The key of a context in the progress table. -/
def contextKey (c : Nat) : Nat := 2048 + c

/-- Progress of a unit noted at this moment (R439, R440). -/
def State.progressed (s : State) (key : Nat) : State :=
  s.onFlt fun f => { f with progress := Table.put f.progress 0 key (s.tclk + 1) }

/-- Progress of an engine of a core (R439). -/
def State.engineProgress (s : State) (core : Nat) (e : Engine) : State := s.progressed (engineKey core e)

/-- Progress of an engine, and of the context, at the end of a descriptor (R439, R440). -/
def State.descProgress (s : State) (core : Nat) (e : Engine) : State :=
  let s1 := s.engineProgress core e
  match (s.core core).run with
  | some r => s1.progressed (contextKey r.ctx)
  | none => s1

/-- Work has reached a matrix array: a gated one asks for a ramp (R477). -/
def State.askRamp (s : State) (core : Nat) : State :=
  if (s.core core).gated && !(s.pwr.ramps.contains core || s.pwr.ramping.contains core) then
    s.onPwr fun p => { p with ramps := p.ramps ++ [core] }
  else s

/-! ### Semaphores and counters -/

/-- The value of a semaphore. -/
def State.sem (s : State) (n : Nat) : Word32 := Table.get s.sems 0 n

/-- The state with a semaphore written. -/
def State.putSem (s : State) (n : Nat) (v : Word32) : State := { s with sems := Table.put s.sems 0 n v }

/-- The value of a completion counter. -/
def State.counter (s : State) (n : Nat) : Word64 := Table.get s.counters 0 n

/-- The state with a completion counter written. -/
def State.putCounter (s : State) (n : Nat) (v : Word64) : State := { s with counters := Table.put s.counters 0 n v }

/-- A semaphore increased by `k`, saturating (R246). -/
def State.addSem (s : State) (n k : Nat) : State :=
  let v := (s.sem n).toNat + k
  if v ≤ 0xFFFFFFFF then s.putSem n (BitVec.ofNat 32 v)
  else (s.putSem n 0xFFFFFFFF).raiseCtx .semSaturated ((s.ownerOfSem n).getD 0xFF) n

/-- The test of WAITC: the value minus the threshold, as a signed number, is not negative (R251). -/
def counterReached (v t : Word64) : Bool := !(v - t).msb

/-- Whether a trigger's threshold is reached (R294). -/
def State.trigReached (s : State) (t : Trig) : Bool :=
  if t.counter then counterReached (s.counter t.watched) (BitVec.ofNat 64 t.thr)
  else decide (t.thr ≤ (s.sem t.watched).toNat)

/-- The triggers of a context whose thresholds are reached fire, lowest slot first; `fuel` bounds how many (R294). -/
def State.fireTriggers (s : State) (c : Nat) : Nat → State
  | 0 => s
  | fuel + 1 =>
    match List.find? (fun e : Nat × Trig => s.trigReached e.2) (s.ctx c).trigs with
    | none => s
    | some (k, t) =>
      State.fireTriggers ((s.onCtx c fun x => { x with trigs := Table.erase x.trigs k }).addSem t.sem 1) c fuel

/-- The threshold of a context's barriers. -/
def State.barThr (s : State) (c : Nat) : Nat := s.regAt Reg.BAR_IN_THR c

/-- The arrival of a context at its next barrier of a kind: the threshold is subtracted (R409). -/
def State.arriveAs (s : State) (c : Nat) (step : Bool) (sem : Nat) : State :=
  ((s.putSem sem (BitVec.ofNat 32 ((s.sem sem).toNat - s.barThr c))).setRegAt Reg.BAR_STATE c 1).onCtx c fun x =>
    { x with arrived := some step, arrivedAt := s.tclk, sentUp := false }

/-- A context arrives at its next barrier when its semaphore has reached the threshold, the step barrier first
(R409). -/
def State.checkArrival (s : State) (c : Nat) : State :=
  if !s.isOpen c || s.regAt Reg.BAR_STATE c != 0 then s
  else
    let a := s.regAt Reg.BAR_STEP_SEM c
    let b := s.regAt Reg.BAR_IN_SEM c
    if s.barThr c ≤ (s.sem a).toNat then s.arriveAs c true a
    else if s.barThr c ≤ (s.sem b).toNat then s.arriveAs c false b
    else s

/-- What a change of a semaphore or counter of a context sets off. -/
def State.syncChanged (s : State) : Option Nat → State
  | none => s
  | some c => (s.fireTriggers c 17).checkArrival c

/-- SIGNAL (R246). -/
def State.signal (s : State) (n k : Nat) : State := (s.addSem n k).syncChanged (s.ownerOfSem n)

/-- SET (R246). -/
def State.setSem (s : State) (n : Nat) (v : Word32) : State := (s.putSem n v).syncChanged (s.ownerOfSem n)

/-- An advance of a completion counter, which wraps (R251). -/
def State.advance (s : State) (n k : Nat) : State :=
  (s.putCounter n (s.counter n + BitVec.ofNat 64 k)).syncChanged (s.ownerOfCounter n)

/-- CSET (R251). -/
def State.setCounter (s : State) (n : Nat) (v : Word64) : State := (s.putCounter n v).syncChanged (s.ownerOfCounter n)

/-- An optional SIGNAL of 1: a `DONE_SEM` release (R246). -/
def State.release (s : State) : Option Nat → State
  | none => s
  | some n => s.signal n 1

/-! ### Tasks -/

/-- The task that a core runs, as its context lists it. -/
def State.taskOf? (s : State) (core : Nat) : Option Task :=
  match (s.core core).run with
  | none => none
  | some r => (s.ctx r.ctx).tasks.find? (fun t => t.id == r.task)

/-- A task of a context changed by a function. -/
def State.onTask (s : State) (c id : Nat) (f : Task → Task) : State :=
  s.onCtx c fun x => { x with tasks := updFirst (fun t => t.id == id) f x.tasks }

/-- The first engine error ends a task: its code, core and program counter are kept, and what waits in the command
queues of the core is discarded (R237, R287). -/
def State.taskError (s : State) (core code : Nat) : State :=
  match (s.core core).run with
  | none => s
  | some r =>
    let pc := (s.core core).pc
    let mark (t : Task) : Task := { t with error := t.error.orElse fun _ => some (code, core, pc) }
    (s.onTask r.ctx r.task mark).onCore core fun x => { x with mq := [], vq := [], dq := [], stall := .none }

/-- Whether a task is over for its cores: an engine error has ended it. -/
def State.taskFailed (s : State) (core : Nat) : Bool := (s.taskOf? core).any fun t => t.error.isSome

/-- Whether a scratchpad range lies in the footprint of the core's task (R278). -/
def State.inFootprint (s : State) (core addr len : Nat) : Bool :=
  match (s.core core).run with
  | none => false
  | some r => decide (addr + len ≤ 2 ^ 21 ∧ r.spadBase ≤ addr ∧ addr + len ≤ r.spadBase + r.spadLen)

/-- The context whose task a core runs. -/
def State.ctxOfCore (s : State) (core : Nat) : Nat := ((s.core core).run.map (·.ctx)).getD 0xFF

/-- Whether a core runs a service of attention (R353). -/
def State.serving (s : State) (core : Nat) : Bool :=
  (List.range 64).any fun c => (s.ctx c).services.any fun v => v.core == core

/-- An engine's descriptor taken from the head of its queue is worked on: engine `e` of the core. -/
def CoreState.queue (x : CoreState) : Engine → List (List Byte)
  | .matrix => x.mq | .vector => x.vq | .dma => x.dq | _ => []

/-- A core with an engine's queue replaced. -/
def CoreState.withQueue (x : CoreState) (e : Engine) (q : List (List Byte)) : CoreState :=
  match e with
  | .matrix => { x with mq := q } | .vector => { x with vq := q } | .dma => { x with dq := q } | _ => x

/-- The head of an engine's queue removed. -/
def State.popQueue (s : State) (core : Nat) (e : Engine) : State :=
  s.onCore core fun x => x.withQueue e ((x.queue e).drop 1)

/-- Busy cycles of an engine added to the block's and the context's counters (R510). -/
def State.busy (s : State) (blockKey ctxKey ctx k : Nat) : State :=
  let s := s.bumpBy blockKey 64 k
  if ctx < 64 then s.bumpBy (unitKey ctxKey ctx) 64 k else s

/-- A state with a step applied to it where a unit lies in the build. -/
def State.forUnit (s : State) (n bound : Nat) (f : State → State) : State := if n < bound then f s else s

/-- Whether a state lets engines, contexts and packets work: out of Reset, Off and Kickstand (R459, R499). -/
def State.powered (s : State) : Bool :=
  match s.blk with
  | .configure | .ready | .run | .drain | .quarantine => true
  | _ => false

/-- Whether an engine or the control core of a core can run: the core is Active or Idle (R474). -/
def State.awake (s : State) (core : Nat) : Bool := decide (s.regAt Reg.PWR_CORE_STATE core < 2)

/-- The rank table's entry of a rank: the chip, or none where R112 refuses the rank; a poisoned entry counts as not
valid. -/
def State.rankChip (s : State) (c r : Nat) : Option Nat × State :=
  if s.regAt Reg.CTX_RANK_COUNT c ≤ r then (none, s)
  else
    let e := s.memLe (s.regAt Reg.CTX_RANK_BASE c + 4 * r) 4
    (if bit e.1.1 16 && !e.1.2 then some (fld e.1.1 15 0) else none, e.2)

end Sys2Proof.Machine
end

