-- ==== Sys2Proof/Machine/Records.lean ====
section
/-! DEFINITION. Records that the block writes to rings in local memory: the ledger (R366 to R377) and the trace region
(R512 to R516). -/
namespace Sys2Proof.Machine
open Sys2Proof Sys2Proof.Bits

/-- A ledger record's 32 bytes (R372). -/
def ledgerBytes (step tensor chunk flags result contrib : Nat) : List Byte :=
  leBytes 4 step ++ leBytes 4 tensor ++ leBytes 4 chunk ++ leBytes 4 flags ++ leBytes 8 result ++ leBytes 8 contrib

/-- The ring of a context is full in Stop mode (R369). -/
def State.ledgerFull (s : State) (c : Nat) : Bool :=
  s.regAt Reg.LDG_MODE c == 1 &&
    decide (2 ^ (s.regAt Reg.LDG_SIZE_LOG2 c - 5) ≤ s.regAt Reg.LDG_PRODUCER c - s.regAt Reg.LDG_CONSUMER c)

/-- A record allocated in a context's ring and performed; dropped in Stop mode when the ring is full (R368 to R371). -/
def State.ledgerRecord (s : State) (c step tensor chunk flags result contrib : Nat) : State :=
  if !s.isOpen c || s.regAt Reg.LDG_STATE c != 1 then s
  else if s.ledgerFull c then
    let s1 := s.bumpAt Reg.LDG_DROPPED c
    if (s.ctx c).ledgerGap then s1
    else (s1.onCtx c fun x => { x with ledgerGap := true }).raiseCtx .ledgerDrop c 0
  else
    let i := s.regAt Reg.LDG_PRODUCER c
    let f := if (s.ctx c).ledgerGap then setBit flags 7 else flags
    let at_ := s.regAt Reg.LDG_BASE c + 32 * (i % 2 ^ (s.regAt Reg.LDG_SIZE_LOG2 c - 5))
    ((s.memWrite at_ (clean (ledgerBytes step tensor chunk f result contrib))).2.setRegAt Reg.LDG_PRODUCER c (i + 1)).onCtx c
      fun x => { x with ledgerGap := false, ledgerSince := x.ledgerSince + 1 }

/-- The kind 2 record of a new step number (R374). -/
def State.stepRecord (s : State) (c step : Nat) : State :=
  let n := (s.ctx c).ledgerSince
  (s.ledgerRecord c step 0xFFFFFFFF 0xFFFFFFFF 0xFFFF0800 s.stamp n).onCtx c fun x => { x with ledgerSince := 0 }

/-- A digest of the ledger: CRC-64 over the prefix and the data (R377). -/
def ledgerDigest (step tensor chunk : Nat) (data : List Byte) : Nat :=
  Crc.feedPlain 64 0x42F0E1EBA9EA3693 0
    (leBytes 4 step ++ leBytes 4 tensor ++ leBytes 4 chunk ++ leBytes 4 data.length ++ data)

/-- Whether a core's context is traced (R513). -/
def State.traced (s : State) (core : Nat) : Bool :=
  match (s.core core).run with
  | some r => s.flag Reg.TRC_ENABLE && (s.reg Reg.TRC_CTX_MASK).testBit r.ctx
  | none => false

/-- A trace record allocated for a core: type, byte 3, marker identifier (R513, R514). -/
def State.traceRecord (s : State) (core type kind ident : Nat) : State :=
  if !s.traced core then s
  else if 1024 ≤ s.trc.buffer.length then (s.bump Reg.TRC_LOST).onTrc fun t => { t with dropped := t.dropped + 1 }
  else
    let x := s.core core
    let start := (x.run.map (·.mmStart)).getD 0
    let b := leBytes 1 type ++ leBytes 1 core ++ leBytes 1 (s.ctxOfCore core) ++ leBytes 1 kind ++ leBytes 4 x.pc ++
      leBytes 8 s.stamp ++ leBytes 4 (((s.taskOf? core).map (·.taskId)).getD 0) ++ leBytes 4 ident ++
      leBytes 4 (x.mmBusy - start) ++ leBytes 2 (min s.trc.dropped 0xFFFF) ++ leBytes 2 0
    s.onTrc fun t => { t with buffer := t.buffer ++ [b], dropped := 0 }

/-- One record moved from the block buffer to the trace region (R513). -/
def State.traceWriteOne (s : State) : State :=
  match s.trc.buffer with
  | [] => s
  | b :: rest =>
    let i := s.reg Reg.TRC_PRODUCER
    let at_ := s.reg Reg.TRC_BASE + 32 * (i % 2 ^ (s.reg Reg.TRC_SIZE_LOG2 - 5))
    ((s.memWrite at_ (clean b)).2.setReg Reg.TRC_PRODUCER (i + 1)).onTrc fun t => { t with buffer := rest }

/-- TRACE_WRITE: at most one record for each built memory port (R513). -/
def State.traceWrite (s : State) : State := (List.range s.build.ports).foldl (fun s _ => s.traceWriteOne) s

end Sys2Proof.Machine
end

