-- ==== Sys2Proof/Machine/Xlt.lean ====
section
/-! DEFINITION. Address translation: walks, cached leaves, access counts, and the faults that wait for the host
(R178 to R200). -/
namespace Sys2Proof.Machine
open Sys2Proof Sys2Proof.Bits

/-- Whether an access writes (R187). -/
def AccessKind.writes : AccessKind → Bool
  | .read => false | _ => true

/-- Where a walk stopped and why. -/
structure WalkFault where
  ty : XltType
  level : Nat
  raw : Nat
  deriving DecidableEq, Repr

/-- The index of an offset at a level (R180). -/
def walkIndex (v level : Nat) : Nat :=
  match level with
  | 1 => fld v 47 39 | 2 => fld v 38 30 | 3 => fld v 29 21 | _ => fld v 20 16

/-- Bits of the page that a leaf of a level maps (R180). -/
def leafBits : Nat → Nat
  | 2 => 30 | 3 => 21 | _ => 16

/-- Bits of the alignment of the table that an entry of a level points to (R180, R181). -/
def tableBits : Nat → Nat
  | 3 => 8 | _ => 12

/-- The local offset that an entry names: `PTE_ADDR` (R181). -/
def pteAddr (pte : Nat) : Nat := fld pte 39 8 <<< 8

/-- Whether a valid entry is malformed at a level, `count` being `XLT_ACC_COUNT` (R182). -/
def malformed (pte level count : Nat) : Bool :=
  let leaf := bit pte 1
  fld pte 7 5 != 0 || fld pte 63 60 != 0 ||
    (if leaf then level == 1 || pteAddr pte % 2 ^ leafBits level != 0 || (bit pte 4 && decide (count ≤ fld pte 59 40))
     else level == 4 || pteAddr pte % 2 ^ tableBits level != 0)

/-- The walk of an offset from a table, `fuel` levels to go (R180, R185 to R187). -/
def State.walkFrom (s : State) (ctx v level table : Nat) : Nat → (Except WalkFault (Nat × Nat)) × State
  | 0 => (.error ⟨.malformed, level, 0⟩, s)
  | fuel + 1 =>
    let r := s.memLe (table + 8 * walkIndex v level) 8
    let pte := r.1.1
    if r.1.2 then (.error ⟨.walkPoison, level, 0⟩, r.2.raiseCtx .xltWalkPoison ctx v)
    else if !bit pte 0 then (.error ⟨.notPresent, level, pte⟩, r.2)
    else if malformed pte level (s.regAt Reg.XLT_ACC_COUNT ctx) then (.error ⟨.malformed, level, pte⟩, r.2)
    else if bit pte 1 then (.ok (pte, leafBits level), r.2)
    else State.walkFrom r.2 ctx v (level + 1) (pteAddr pte) fuel

/-- The walk of an offset from the context's root. -/
def State.walk (s : State) (ctx v : Nat) : (Except WalkFault (Nat × Nat)) × State :=
  (s.bump Reg.XLT_MISSES).walkFrom ctx v 1 (s.regAt Reg.XLT_PT_ROOT ctx) 4

/-- What a leaf denies an access (R187). -/
def denies (pte : Nat) (kind : AccessKind) (remote : Bool) : Option XltType :=
  if remote && !bit pte 3 then some .remoteDenied
  else if kind.writes && !bit pte 2 then some .writeDenied
  else none

/-- Whether a leaf covers an offset of a context. -/
def Leaf.covers (l : Leaf) (ctx v : Nat) : Bool := l.ctx == ctx && l.base == v >>> l.size <<< l.size

/-- A half of an access counter with a count added, saturating (R193). -/
def satHalf (a b : Nat) : Nat := min (a + b) 0xFFFFFFFF

/-- A leaf's pending counts added to its counter by the atomic unit (R194). A failed update leaves free bytes. -/
def State.flushLeaf (s : State) (l : Leaf) : State :=
  if !bit l.pte 4 ∨ (l.reads = 0 ∧ l.writes = 0) then s
  else
    let at_ := s.regAt Reg.XLT_ACC_BASE l.ctx + 8 * fld l.pte 59 40
    let r := s.memRead at_ 8
    if anyPoison r.1 then
      let d := r.2.drawBytes 8
      { d.2 with mem := storeBytes d.2.mem at_ d.1 }
    else
      let old := leNat (plain r.1)
      let new := satHalf (fld old 31 0) l.reads + (satHalf (fld old 63 32) l.writes <<< 32)
      (r.2.memWrite at_ (clean (leBytes 8 new))).2

/-- The leaves that a test selects leave the cache, their counts flushed (R194). -/
def State.dropLeaves (s : State) (p : Leaf → Bool) : State :=
  ((s.xlt.leaves.filter p).foldl State.flushLeaf s).onXlt fun x => { x with leaves := x.leaves.filter (fun l => !p l) }

/-- An access counted on its leaf, and the counts added to memory once a half reaches 4,096 (R193, R194). -/
def State.countAccess (s : State) (part ctx v len : Nat) (kind : AccessKind) : State :=
  if len = 0 then s
  else
    let lines := (v + len - 1) / 64 - v / 64 + 1
    let hit (l : Leaf) : Bool := l.part == part && l.covers ctx v && bit l.pte 4
    let add (l : Leaf) : Leaf :=
      match kind with
      | .read => { l with reads := l.reads + lines }
      | .write => { l with writes := l.writes + lines }
      | .atomic => { l with reads := l.reads + lines, writes := l.writes + lines }
    let s1 := s.onXlt fun x => { x with leaves := updFirst hit add x.leaves }
    match s1.xlt.leaves.find? hit with
    | some l =>
      if 4096 ≤ l.reads ∨ 4096 ≤ l.writes then
        (s1.flushLeaf l).onXlt fun x => { x with leaves := updFirst hit (fun l => { l with reads := 0, writes := 0 }) x.leaves }
      else s1
    | none => s1

/-- The leaf cached in a partition; the least recently used leaf leaves a full cache (R184). -/
def State.cacheLeaf (s : State) (l : Leaf) : State :=
  let mine := s.xlt.leaves.filter (fun x => x.part == l.part)
  let s1 := if 16384 ≤ mine.length then
      match mine.head? with
      | some v => s.dropLeaves (fun x => x.part == v.part && x.ctx == v.ctx && x.base == v.base && x.size == v.size)
      | none => s
    else s
  s1.onXlt fun x => { x with leaves := x.leaves ++ [l] }

/-- The translation of one offset in a partition's cache, with a walk on a miss or on a cached denial (R183, R185). -/
def State.translate (s : State) (part ctx v : Nat) (kind : AccessKind) (remote : Bool) :
    (Except WalkFault Nat) × State :=
  let walkIn (s : State) : (Except WalkFault Nat) × State :=
    let r := s.walk ctx v
    match r.1 with
    | .error e => (.error e, r.2)
    | .ok (pte, size) =>
      match denies pte kind remote with
      | some ty => (.error ⟨ty, (if size = 30 then 2 else if size = 21 then 3 else 4), pte⟩, r.2)
      | none =>
        (.ok (pteAddr pte + v % 2 ^ size),
          r.2.cacheLeaf { part := part, ctx := ctx, base := v >>> size <<< size, size := size, pte := pte, reads := 0,
                          writes := 0 })
  match s.xlt.leaves.find? (fun l => l.part == part && l.covers ctx v) with
  | some l =>
    if (denies l.pte kind remote).isNone then (.ok (pteAddr l.pte + v % 2 ^ l.size), s)
    else walkIn (s.dropLeaves (fun x => x.part == part && x.covers ctx v))
  | none => walkIn s

/-- The parts of a range that lie in one 64 KiB page each (R179). -/
def pageParts (off len : Nat) : List (Nat × Nat) := go off len (len / 65536 + 2)
where
  /-- Parts of the rest of the range. -/
  go : Nat → Nat → Nat → List (Nat × Nat)
    | _, _, 0 => []
    | _, 0, _ => []
    | o, l, f + 1 => let n := min l (65536 - o % 65536); (o, n) :: go (o + n) (l - n) f

/-- A range translated: the local pieces, or the first offset that faults with its fault (R179). Nothing is counted. -/
def State.translateParts (s : State) (part ctx off len : Nat) (kind : AccessKind) (remote : Bool) :
    (Except (Nat × WalkFault) (List (Nat × Nat))) × State :=
  (pageParts off len).foldl (fun r p =>
    match r.1 with
    | .error e => (.error e, r.2)
    | .ok l =>
      if 2 ^ 48 ≤ p.1 then (.error (p.1, ⟨.notPresent, 1, 0⟩), r.2)
      else
        let t := r.2.translate part ctx p.1 kind remote
        match t.1 with
        | .error e => (.error (p.1, e), t.2)
        | .ok x => (.ok (l ++ [(x, p.2)]), t.2)) (.ok [], s)

/-- Access counts taken over a range (R193). -/
def State.countRange (s : State) (part ctx off len : Nat) (kind : AccessKind) : State :=
  (pageParts off len).foldl (fun s p => s.countAccess part ctx p.1 p.2 kind) s

/-- A range translated and, where no part faults, its access counts taken (R179, R193). -/
def State.translateRange (s : State) (part ctx off len : Nat) (kind : AccessKind) (remote : Bool) :
    (Except (Nat × WalkFault) (List (Nat × Nat))) × State :=
  let r := s.translateParts part ctx off len kind remote
  match r.1 with
  | .error e => (.error e, r.2)
  | .ok l => (.ok l, r.2.countRange part ctx off len kind)

/-- Local memory read over translated pieces. -/
def State.readPieces (s : State) (l : List (Nat × Nat)) : List MByte × State :=
  l.foldl (fun r p => let q := r.2.memRead p.1 p.2; (r.1 ++ q.1, q.2)) ([], s)

/-- Local memory written over translated pieces, in order. -/
def State.writePieces (s : State) (l : List (Nat × Nat)) (bs : List MByte) : WriteEnd × State :=
  (l.foldl (fun (r : (WriteEnd × State) × List MByte) p =>
    let q := r.1.2.memWrite p.1 (r.2.take p.2)
    ((r.1.1.worse q.1, q.2), r.2.drop p.2)) ((.ok, s), bs)).1

/-! ### Faults -/

/-- Bytes 10 to 14 of a fault record for an accessor (R192). -/
def Accessor.recordBytes : Accessor → List Byte
  | .engine core e => leBytes 2 (core % 64 + 256 * e.code) ++ zeros 2 ++ [0xFF]
  | .element core elem => leBytes 2 (core % 64 + 256 * 3) ++ zeros 2 ++ leBytes 1 elem
  | .dispatcher => [0xFF, 0xFF] ++ zeros 2 ++ [0xFF]
  | .remote src tag _ _ elem => leBytes 2 src ++ leBytes 2 tag ++ leBytes 1 elem

/-- Whether an accessor is an arriving packet. -/
def Accessor.isRemote : Accessor → Bool
  | .remote .. => true
  | _ => false

/-- The 32-byte fault record (R192). -/
def XltFault.bytes (f : XltFault) : List Byte :=
  leBytes 6 f.off ++ leBytes 1 f.ctx ++
    leBytes 1 (f.ty.code + 8 * ofBool f.write + 16 * ofBool f.atomic + 32 * ofBool ((f.who.head?.map Accessor.isRemote).getD false)) ++
    leBytes 2 (f.id.getD 0) ++ ((f.who.head?.map Accessor.recordBytes).getD (zeros 5)) ++ leBytes 1 f.level ++
    leBytes 8 (if f.ty = .walkPoison then 0 else f.raw) ++ leBytes 8 f.cadence

/-- The identifiers in use or held (R190). -/
def State.usedIds (s : State) : List Nat := s.xlt.faults.filterMap (·.id)

/-- A fault given a free identifier and its record queued; which free identifier is the block's choice (R188, R189). -/
def State.giveId (s : State) (f : XltFault) : XltFault × State :=
  if 4096 ≤ s.usedIds.length then (f, s)
  else
    let r := s.pick ((List.range 4096).filter (fun n => !s.usedIds.contains n))
    let f := { f with id := r.1 }
    (f, ((r.2.queueFaultRecord f.id f.bytes).bump Reg.XLT_FAULTS).bumpAt Reg.XLT_CTX_FAULTS f.ctx)

/-- A translation fault of an access: it joins an unanswered fault of the same context, 64 KiB page and type, or is
raised (R188, R189). -/
def State.xltRaise (s : State) (ctx off : Nat) (w : WalkFault) (kind : AccessKind) (who : Accessor) : State :=
  let same (f : XltFault) : Bool := f.live && f.ctx == ctx && f.off / 65536 == off / 65536 && f.ty == w.ty
  if s.xlt.faults.any same then
    let join (f : XltFault) : XltFault := if f.who.contains who then f else { f with who := f.who ++ [who] }
    s.onXlt fun x => { x with faults := updFirst same join x.faults }
  else
    let f : XltFault := { id := none, ctx := ctx, off := off, ty := w.ty, write := kind.writes, atomic := kind = .atomic,
                          level := w.level, raw := w.raw, who := [who], cadence := s.stamp, live := true }
    let r := s.giveId f
    r.2.onXlt fun x => { x with faults := x.faults ++ [r.1] }

/-- Faults that wait for an identifier take the free ones, in arrival order (R189). -/
def State.assignIds (s : State) : State :=
  s.xlt.faults.foldl (fun s f =>
    if f.live && f.id.isNone then
      let r := s.giveId f
      r.2.onXlt fun x => { x with faults := updFirst (· == f) (fun _ => r.1) x.faults }
    else s) s

/-- Whether an engine of a core is stalled on an unanswered fault. -/
def State.engineStalled (s : State) (core : Nat) (e : Engine) : Bool :=
  s.xlt.faults.any fun f => f.live && f.who.any fun w =>
    match w with
    | .engine n g => n == core && g == e
    | .element n _ => n == core && e == .dma
    | _ => false

/-- The unanswered faults of a context withdrawn; their identifiers are held, their waiting records discarded (R190). -/
def State.withdrawFaults (s : State) (ctx : Nat) : State :=
  let gone := s.xlt.faults.filter (fun f => f.live && f.ctx == ctx)
  let ids := gone.filterMap (·.id)
  (s.onXlt fun x => { x with faults := x.faults.filterMap fun f =>
      if f.live && f.ctx == ctx then (if f.id.isSome then some { f with live := false, who := [] } else none) else some f }).onHcp
    fun h => { h with fq := { h.fq with waiting := h.fq.waiting.filter fun r =>
      match r.1 with | some i => !ids.contains i | none => true } }

/-- Cached leaves of a context, or of all, whose pages touch a range, removed (R196). -/
def State.invalidate (s : State) (ctx : Option Nat) (start stop : Nat) : State :=
  s.dropLeaves fun l => (match ctx with | some c => l.ctx == c | none => true) &&
    decide (l.base < stop ∧ start < l.base + 2 ^ l.size)

end Sys2Proof.Machine
end

