-- ==== Sys2Proof/Machine/Dma.lean ====
section
/-! DEFINITION. Local descriptors of the DMA engine: copies and UNWRITE (R257, R270), and the queue discipline that
every DMA descriptor shares (R149, R249). -/
namespace Sys2Proof.Machine
open Sys2Proof Sys2Proof.Bits

/-- The fields of a local descriptor (R257). -/
structure LocalDesc where
  kind : Nat
  src : Nat
  dst : Nat
  fence : Bool
  doneEn : Bool
  countEn : Bool
  srcAddr : Nat
  dstAddr : Nat
  len : Nat
  doneSem : Nat
  counter : Nat
  reserved : Bool
  deriving DecidableEq, Repr

/-- A local descriptor read from its 64 bytes (R257). -/
def LocalDesc.parse (bs : List Byte) : LocalDesc :=
  let d := leNat (fit 64 bs)
  { kind := fld d 7 0, src := fld d 9 8, dst := fld d 11 10, fence := bit d 12, doneEn := bit d 13, countEn := bit d 14,
    srcAddr := fld d 79 32, dstAddr := fld d 143 96, len := fld d 191 160 + 1, doneSem := fld d 208 192,
    counter := fld d 239 224,
    reserved := fld d 31 15 + fld d 95 80 + fld d 159 144 + fld d 223 209 + fld d 511 240 != 0 }

/-- The descriptor at the head of a core's DMA queue, where the engine may take it: the block is powered, a task runs,
and no translation fault stalls the engine. -/
def State.dmaHead? (s : State) (core : Nat) : Option (List Byte) :=
  if s.powered && s.awake core && (s.core core).run.isSome && !s.engineStalled core .dma then (s.core core).dq.head? else none

/-- Whether no earlier descriptor of a core's DMA engine is in progress (R249). -/
def State.dmaIdle (s : State) (core : Nat) : Bool :=
  (s.core core).copies.isEmpty && !s.rmt.descs.any (fun d => d.core == core)

/-- Whether two ranges overlap. -/
def overlaps (a b n : Nat) : Bool := decide (a < b + n ∧ b < a + n)

/-- The end code with which a local descriptor is refused (R257). -/
def State.localRefusal (s : State) (core : Nat) (d : LocalDesc) : Option Nat :=
  let unw := d.kind = 0x11
  if d.reserved || decide (2 ≤ d.dst) || (!unw && decide (2 ≤ d.src)) ||
      (!unw && d.src == d.dst && overlaps d.srcAddr d.dstAddr d.len) ||
      (unw && (d.dst == 1 || d.dstAddr % 64 != 0 || d.len % 64 != 0)) then some 0x54
  else if (d.dst == 0 && !s.inFootprint core d.dstAddr d.len) || (!unw && d.src == 0 && !s.inFootprint core d.srcAddr d.len) then
    some 0x55
  else if (d.doneEn && !s.ownsSem (s.ctxOfCore core) d.doneSem) ||
      (d.countEn && !s.ownsCounter (s.ctxOfCore core) d.counter) then some 0x57
  else none

/-- A range of a space made ready: translated local pieces, or the offset that faults. A scratchpad range needs no
translation. -/
def State.openRange (s : State) (core ctx space addr len : Nat) (kind : AccessKind) :
    (Except (Nat × WalkFault) (List (Nat × Nat))) × State :=
  if space = 0 then (.ok [], s) else s.translateParts (s.partOfCore core) ctx addr len kind false

/-- The access counts of a range that `openRange` has made ready (R193). -/
def State.countOpen (s : State) (core ctx space addr len : Nat) (kind : AccessKind) : State :=
  if space = 0 then s else s.countRange (s.partOfCore core) ctx addr len kind

/-- A local copy run: source and destination are translated, then the bytes move (R257). -/
def State.runCopy (s : State) (core : Nat) (d : LocalDesc) (run : CopyRun) : State :=
  let c := s.ctxOfCore core
  let a := s.openRange core c d.src d.srcAddr d.len .read
  match a.1 with
  | .error e => a.2.xltRaise c e.1 e.2 .read (.engine core .dma)
  | .ok from_ =>
    let b := a.2.openRange core c d.dst d.dstAddr d.len .write
    match b.1 with
    | .error e => b.2.xltRaise c e.1 e.2 .write (.engine core .dma)
    | .ok to_ =>
      let n := (b.2.countOpen core c d.src d.srcAddr d.len .read).countOpen core c d.dst d.dstAddr d.len .write
      let r := if d.src = 0 then n.spadRead core d.srcAddr d.len else n.readPieces from_
      let w := if d.dst = 0 then (WriteEnd.ok, r.2.spadWrite core d.dstAddr r.1) else r.2.writePieces to_ r.1
      let run := if w.1 = .ok then run else { run with error := some 0x58 }
      ((w.2.popQueue core .dma).onCore core fun x => { x with copies := x.copies ++ [run] }).busy Reg.OBS_DMA_BUSY
        Reg.CTX_DMA_BUSY c (ceilDiv d.len 256)

/-- COPY_LOCAL and UNWRITE: a local descriptor of a kind at the queue head is checked and run (R257, R270). -/
def State.localDesc (s : State) (core kind : Nat) : State :=
  match s.dmaHead? core with
  | none => s
  | some bs =>
    let d := LocalDesc.parse bs
    if d.kind ≠ kind ∨ (d.fence && !s.dmaIdle core) then s
    else
      match s.localRefusal core d with
      | some code => s.taskError core code
      | none =>
        let run : CopyRun := { doneSem := if d.doneEn then some d.doneSem else none,
                               counter := if d.countEn then some (d.counter, d.len) else none, error := none }
        if kind = 0x11 then
          ((s.spadUnwrite core d.dstAddr d.len).popQueue core .dma).onCore core fun x => { x with copies := x.copies ++ [run] }
        else s.runCopy core d run

/-- LOCAL_COPY_END: a local descriptor ends; on success it releases `DONE_SEM` and advances `LOCAL_COUNTER` (R257). -/
def State.localEnd (s : State) (core index : Nat) : State :=
  match (s.core core).copies[index]? with
  | none => s
  | some r =>
    let s1 := (s.onCore core fun x => { x with copies := x.copies.eraseIdx index }).descProgress core .dma
    match r.error with
    | some code => s1.taskError core code
    | none =>
      let s2 := match r.counter with | some p => s1.advance p.1 p.2 | none => s1
      s2.release r.doneSem

end Sys2Proof.Machine
end

