-- ==== Sys2Proof/Machine/Requester.lean ====
section
/-! DEFINITION. The requester's side of the transaction layer: plans, the tracker, windows, attempts and the ends of
descriptors (R147 to R173). -/
namespace Sys2Proof.Machine
open Sys2Proof Sys2Proof.Bits

/-! ### Tracker entries -/

/-- The tracker entry with a tag (R159). -/
def State.txn? (s : State) (tag : Nat) : Option Txn := s.rmt.txns.find? (fun t => t.tag == tag)

/-- A tracker entry changed by a function. -/
def State.onTxn (s : State) (tag : Nat) (f : Txn → Txn) : State :=
  s.onRmt fun r => { r with txns := updFirst (fun t => t.tag == tag) f r.txns }

/-- A `SEQ` of an entry changed by a function. -/
def Txn.onSeq (t : Txn) (q : Nat) (f : SeqState → SeqState) : Txn :=
  { t with seqs := t.seqs.map fun e => if e.1 = q then (e.1, f e.2) else e }

/-- A `SEQ` of an entry. -/
def Txn.seq? (t : Txn) (q : Nat) : Option SeqState := (t.seqs.find? (fun e => e.1 == q)).map (·.2)

/-- Whether a `SEQ` has ended. -/
def SeqPhase.isOver : SeqPhase → Bool
  | .done => true | .failed _ => true | _ => false

/-- Whether a `SEQ` has a request packet in flight. -/
def SeqPhase.flying : SeqPhase → Bool
  | .waiting => true | .parked => true | _ => false

/-- Landing slots that a request of an entry takes (R155, R162). -/
def Txn.weight (t : Txn) : Nat := if t.cas.isSome then 2 else 1

/-- Request packets of an entry in flight under the base window (R164). -/
def Txn.inFlight (t : Txn) : Nat :=
  let n := (t.seqs.filter fun e => e.2.phase.flying && !e.2.viaGrant && e.2.pkt.op != .imageLoad).length
  if t.kind = .gather then min n 1 else n * t.weight

/-- Request packets in flight toward a chip under the base window. -/
def State.inFlight (s : State) (dest : Nat) : Nat := ((s.rmt.txns.filter fun t => t.dest == dest).map Txn.inFlight).sum

/-- The window toward a chip. -/
def State.window (s : State) (dest : Nat) : Window := Table.get s.rmt.windows Window.idle dest

/-- The window toward a chip changed by a function. -/
def State.onWindow (s : State) (dest : Nat) (f : Window → Window) : State :=
  s.onRmt fun r => { r with windows := Table.put r.windows Window.idle dest (f (Table.get r.windows Window.idle dest)) }

/-! ### Sending -/

/-- A request packet with its `RELEASE_TAG` in the place that its opcode gives it (R154, R156). -/
def Packet.withRelease (p : Packet) (tag : Nat) : Packet :=
  match p.op with
  | .loadReq => { p with payload := p.payload.take 10 ++ leBytes 2 tag ++ p.payload.drop 12 }
  | .store | .copy | .gatherReq | .scatter | .attendReq => { p with opArg := tag }
  | _ => p

/-- Whether a request of an opcode can carry a release (R156). -/
def Opcode.carriesRelease : Opcode → Bool
  | .loadReq | .store | .copy | .gatherReq | .scatter | .attendReq => true
  | _ => false

/-- The elements that one GATHER_REQ carries when a `SEQ` is sent: those not yet sent, or those still outstanding. -/
def Txn.group (t : Txn) (q : Nat) (fresh : Bool) : List Nat :=
  if t.kind = .gather then
    (t.seqs.filter fun e => if fresh then decide (e.2.phase = .unsent) else decide (e.2.phase = .waiting ∨ e.2.phase = .backoff)).map
      (·.1)
  else [q]

/-- A `SEQ` after a request packet that carries it has left. -/
def SeqState.sent (x : SeqState) (grant : Bool) : SeqState :=
  { x with phase := .waiting, outstanding := x.outstanding + 1,
           attempts := if x.pendingCount then x.attempts + 1 else x.attempts, needGrant := false, viaGrant := grant,
           pendingCount := true }

/-- The request packet of a `SEQ` sent, within the base window or on a granted slot (R161, R164, R165). -/
def State.sendSeq (s : State) (t : Txn) (q : Nat) (grant : Bool) : State :=
  match t.seq? q with
  | none => s
  | some x =>
    let group := t.group q (x.phase = .unsent)
    let base : Packet := { x.pkt with tag := t.tag, gen := t.gen }
    let full : Packet := if t.kind = .gather then
        { base with payload := group.flatMap fun i => ((t.seq? i).map fun y => y.pkt.payload).getD [] }
      else base
    let rel := if full.op.carriesRelease then (s.window t.dest).releases.find? (fun r => r.2.1 == t.gen) else none
    let pkt := full.withRelease ((rel.map (·.1)).getD t.tag)
    let s1 := s.onWindow t.dest fun w =>
      { w with releases := match rel with | some r => w.releases.erase r | none => w.releases,
               granted := if grant then w.granted - t.weight else w.granted }
    let s2 := s1.onTxn t.tag fun t => group.foldl (fun t i => t.onSeq i fun y => y.sent grant) t
    let ctx := if t.ctx < 64 then some t.ctx else none
    let s3 := s2.sendAvoiding ctx x.port pkt
    match t.cas with
    | some c => s3.sendAvoiding ctx x.port { c with tag := t.tag, gen := t.gen }
    | none => s3

/-- A WINDOW_REQ toward a chip: slots asked and release tags of one generation (R156, R161). -/
def State.windowReq (s : State) (dest ctx gen slots : Nat) (tags : List Nat) : State :=
  let body := leBytes 2 slots ++ leBytes 1 tags.length ++ [0] ++ fit 12 (tags.flatMap (leBytes 2))
  s.sendPkt (some ctx) { s.ctlPkt .windowReq (s.jobOf ctx) dest with gen := gen, payload := body }

/-- One WINDOW_REQ asked for packets that wait, unless one is outstanding (R164). -/
def State.askWindow (s : State) (dest ctx gen : Nat) : State :=
  let w := s.window dest
  if w.asked then s
  else (s.onWindow dest fun w => { w with asked := true }).windowReq dest ctx gen
    (min (s.reg Reg.RMT_WIN_REQ_SIZE) (1024 - w.granted)) []

/-- The request packets that wait toward a chip leave as far as its window lets them, in order (R164). -/
def State.pump (s : State) (dest : Nat) : State :=
  (s.window dest).queue.foldl (fun s e =>
    let drop (s : State) : State := s.onWindow dest fun w => { w with queue := w.queue.erase e }
    match s.txn? e.1 with
    | none => drop s
    | some t =>
      match t.seq? e.2 with
      | none => drop s
      | some x =>
        if x.phase.isOver ∨ x.phase.flying then drop s
        else if !x.needGrant && decide (s.inFlight dest + t.weight ≤ 4) then drop (s.sendSeq t e.2 false)
        else if t.weight ≤ (s.window dest).granted then drop (s.sendSeq t e.2 true)
        else s.askWindow dest t.ctx t.gen) s

/-- A `SEQ` put in the queue of its destination's window, or sent at once where its opcode holds no slot. -/
def State.queueSeq (s : State) (tag q : Nat) : State :=
  match s.txn? tag with
  | none => s
  | some t =>
    if t.kind = .image then s.sendSeq t q false
    else (s.onWindow t.dest fun w => { w with queue := w.queue ++ [(tag, q)] }).pump t.dest

/-! ### Ends -/

/-- A remote descriptor by its number. -/
def State.desc? (s : State) (id : Nat) : Option Desc := s.rmt.descs.find? (fun d => d.id == id)

/-- A remote descriptor changed by a function. -/
def State.onDesc (s : State) (id : Nat) (f : Desc → Desc) : State :=
  s.onRmt fun r => { r with descs := updFirst (fun d => d.id == id) f r.descs }

/-- The status word (R151). -/
def statusWord (status element peer done : Nat) : List Byte :=
  leBytes 8 (status + 2 ^ 8 * element + 2 ^ 16 * peer + 2 ^ 32 * (done % 2 ^ 32))

/-- A descriptor ends with a status: the status word, `LOCAL_COUNTER`, and `RMT_FAILED` (R151, R169). -/
def State.endDesc (s : State) (d : Desc) (status element : Nat) : State :=
  let s1 := (s.onRmt fun r => { r with descs := r.descs.filter (fun x => x.id != d.id),
                                       plans := r.plans.filter (fun p => p.owner != .dma d.core d.id) }).descProgress d.core .dma
  let s2 := if d.statusEn then s1.spadWrite d.core d.statusAddr (clean (statusWord status element d.peer d.donePkts)) else s1
  let s3 := if status = 0 then s2 else s2.bump Reg.RMT_FAILED
  let s4 := if d.localCountEn then s3.advance d.localCounter 1 else s3
  match s4.taskOf? d.core with
  | some t => if t.kind = 1 ∧ status ≠ 0 then s4.onTask d.ctx t.id fun t => { t with error := some (status, d.core, 0) } else s4
  | none => s4

/-- A descriptor with no transaction left ends (R151, R152). -/
def State.checkDesc (s : State) (id : Nat) : State :=
  match s.desc? id with
  | none => s
  | some d =>
    if d.left ≠ 0 then s
    else
      match d.fail with
      | some (k, code) => s.endDesc d code (if d.op = 6 ∨ d.op = 7 then k % 16 else 0)
      | none => s.endDesc d (if d.poisoned then 0x14 else 0) 0

/-- The lower of two failures of a descriptor. -/
def lowerFail : Option (Nat × Nat) → Option (Nat × Nat) → Option (Nat × Nat)
  | some a, some b => if b.1 < a.1 then some b else some a
  | some a, none => some a
  | none, b => b

/-- The first failing `SEQ` of an entry, by its place in the descriptor. -/
def Txn.firstFail (t : Txn) : Option (Nat × Nat) :=
  t.seqs.foldl (fun r e => match e.2.phase with
    | .failed c => lowerFail r (some (64 * t.ord + e.1, c))
    | _ => r) none

/-- The code with which an entry ended; 0 for success. -/
def Txn.endCode (t : Txn) : Nat := ((t.firstFail.map (·.2)).getD (if t.poisoned then 0x14 else 0))

/-- What the end of an entry means to whoever asked for it. -/
def State.tellOwner (s : State) (t : Txn) : State :=
  match t.owner with
  | .dma core id =>
    let done := (t.seqs.filter fun e => e.2.phase == .done).length
    ((s.onDesc id fun d => { d with left := d.left - 1, donePkts := d.donePkts + done, fail := lowerFail d.fail t.firstFail,
                                    poisoned := d.poisoned || t.poisoned }).checkDesc id).engineProgress core .dma
  | .attend _ id =>
    match s.desc? id, t.firstFail with
    | some d, some (_, code) => s.endDesc d code 0
    | _, _ => s
  | .farFill core =>
    let sel : FarFill → Bool := fun x => x.core == core && x.data.isNone && x.failed.isNone
    let upd : FarFill → FarFill := fun x => { x with failed := if t.firstFail.isSome then some t.endCode else none }
    s.onFar fun f => { f with fills := updFirst sel upd f.fills }
  | .farWb _ id =>
    s.onFar fun f => { f with wbs := updFirst (fun x => x.id == id) (fun x => { x with ended := some t.endCode }) f.wbs }
  | .imagePush =>
    match t.firstFail with
    | some (_, code) =>
      ((s.setReg Reg.IMG_PUSH_STATE 3).setReg Reg.IMG_PUSH_STATUS code).onDisp fun d => { d with pushing := false }
    | none => (s.setReg Reg.IMG_PUSH_STATE 2).onDisp fun d => { d with pushing := false }

/-- An entry leaves the tracker, or stays quarantined when a `SEQ` was reissued or failed (R168). -/
def State.retireTxn (s : State) (t : Txn) : State :=
  if t.tainted then s.onTxn t.tag fun x => { x with quarantined := true }
  else
    let s1 := s.onRmt fun r => { r with txns := r.txns.filter (fun x => x.tag != t.tag) }
    if t.kind = .image then s1
    else s1.onWindow t.dest fun w => { w with releases := w.releases ++ [(t.tag, t.gen, s.jobOf t.ctx)] }

/-- Whether an entry's transaction has ended: every packet is prepared, and every `SEQ` done or failed; an attend entry
ends with its descriptor unless a `SEQ` failed (R358). -/
def Txn.ended (t : Txn) : Bool :=
  t.complete && !t.quarantined && t.seqs.all (fun e => e.2.phase.isOver) && (t.kind != .attend || t.firstFail.isSome)

/-- An entry whose transaction has ended is retired, and its owner is told. -/
def State.checkTxn (s : State) (tag : Nat) : State :=
  match s.txn? tag with
  | none => s
  | some t => if t.ended then ((s.retireTxn t).tellOwner t).pump t.dest else s.pump t.dest

/-- A `SEQ` fails with a code; RMT_RETRIES is raised for RETRIES, BUSY and PARK_LIMIT (R165, R177). An image push stops
(R293). -/
def State.failSeq (s : State) (tag q code : Nat) : State :=
  match s.txn? tag with
  | none => s
  | some t =>
    let core := match t.owner with
      | .dma n _ => n | .attend n _ => n | .farFill n => n | .farWb n _ => n | .imagePush => 0
    let fail (t : Txn) : Txn := { (t.onSeq q fun x => { x with phase := .failed code, outstanding := 0 }) with tainted := true }
    let s1 := if t.kind = .image then
        (s.onTxn tag fun t => { fail t with complete := true }).onRmt fun r => { r with plans := r.plans.filter fun p => p.owner != .imagePush }
      else s.onTxn tag fail
    let s2 := if code = 0x20 ∨ code = 0x10 ∨ code = 0x21 then
        s1.raise .rmtRetries (.core core) t.ctx (code + 2 ^ 16 * t.dest)
      else s1
    s2.checkTxn tag

/-- A `SEQ` is done (R165). -/
def State.doneSeq (s : State) (tag q : Nat) : State :=
  s.onTxn tag fun t => t.onSeq q fun x => { x with phase := .done, outstanding := 0 }

/-- A reissue counted (R176, R510). -/
def State.countReissue (s : State) (key : Nat) : State := (s.bump key).bumpBy Reg.OBS_RMT_REISSUES 64 1

/-- The reissue of a `SEQ` at once (R165): its attempt counts toward the limit. -/
def State.reissue (s : State) (tag q key : Nat) : State :=
  match s.txn? tag with
  | none => s
  | some t =>
    let s1 := (s.onTxn tag fun t => { t with tainted := true }).countReissue key
    s1.sendSeq { t with tainted := true } q false

/-- Whether a further attempt would exceed 1 + `RMT_RETRY_LIMIT` (R165). -/
def State.attemptsSpent (s : State) (x : SeqState) : Bool := decide (1 + s.reg Reg.RMT_RETRY_LIMIT ≤ x.attempts)

/-- Whether some partial pieces of an attend request have landed and the rest are missing (R358). -/
def State.partsMissing (s : State) (t : Txn) : Bool :=
  match t.owner with
  | .attend _ id => (s.desc? id).any fun d => d.att.any fun a => !a.1.isEmpty
  | _ => false

/-- RMT_REQ_TIMEOUT of a `SEQ` with no response: a reissue, or RETRIES; for a packet that waits for its window, the
WINDOW_REQ is sent again (R164, R165). -/
def State.reqTimeout (s : State) (tag q : Nat) : State :=
  match s.txn? tag with
  | none => s
  | some t =>
    match t.seq? q with
    | none => s
    | some x =>
      if x.phase = .waiting then
        if s.attemptsSpent x then s.failSeq tag q 0x20 else s.reissue tag q Reg.RMT_TIMEOUT_REISSUES
      else if q = 0 ∧ x.phase = .done ∧ s.partsMissing t then
        if s.attemptsSpent x then s.failSeq tag q 0x20 else s.reissue tag q Reg.RMT_TIMEOUT_REISSUES
      else if (s.window t.dest).queue.contains (tag, q) && (s.window t.dest).asked then
        (s.onWindow t.dest fun w => { w with asked := false }).askWindow t.dest t.ctx t.gen
      else s

/-- The end of a backoff: the `SEQ` is reissued (R165), ordered ones in `SEQ` order (R124). After BUSY it leaves only within a granted slot. -/
def State.backoffExpire (s : State) (tag q : Nat) : State :=
  match s.txn? tag with
  | none => s
  | some t =>
    match t.seq? q with
    | none => s
    | some x =>
      let before (e : Nat × SeqState) : Bool := decide (e.1 < q ∧ e.2.phase = .backoff)
      if x.phase ≠ .backoff ∨ (x.pkt.ordered ∧ t.seqs.any before) then s
      else
        let s1 := (s.onTxn tag fun t => { t with tainted := true }).countReissue Reg.RMT_NEG_REISSUES
        if x.needGrant then s1.queueSeq tag q
        else match s1.txn? tag with
          | some t => s1.sendSeq t q false
          | none => s1

/-- A parked `SEQ` passes `RMT_PARK_LIMIT` (R165). -/
def State.parkLimit (s : State) (tag q : Nat) : State :=
  match (s.txn? tag).bind (fun t => t.seq? q) with
  | some x => if x.phase = .parked then s.failSeq tag q 0x21 else s
  | none => s

/-- The end of a tracker entry's quarantine: the release, and the tag free again (R168). -/
def State.quarantineEnd (s : State) (tag : Nat) : State :=
  match s.txn? tag with
  | none => s
  | some t =>
    if t.quarantined then
      let s1 := s.onRmt fun r => { r with txns := r.txns.filter (fun x => x.tag != tag) }
      if t.kind = .image then s1
      else s1.onWindow t.dest fun w => { w with releases := w.releases ++ [(t.tag, t.gen, s.jobOf t.ctx)] }
    else s

/-- RELEASE_DELAY toward a chip: up to six releases of one generation leave in a WINDOW_REQ that asks no slot (R161). -/
def State.releaseDelay (s : State) (chip : Nat) : State :=
  match (s.window chip).releases with
  | [] => s
  | r :: _ =>
    match (List.range 64).find? (fun c => s.jobOf c == r.2.2 && s.regAt Reg.CTX_ROUTE_STATE c == 1) with
    | none => s.onWindow chip fun w => { w with releases := w.releases.erase r }
    | some c =>
      let same := ((s.window chip).releases.filter fun x => x.2 == r.2).take 6
      (s.onWindow chip fun w => { w with releases := w.releases.filter (fun x => !same.contains x) }).windowReq chip c r.2.1 0
        (same.map (·.1))

/-- Granted slots unused for the lease are dropped at the source, and return to the pool at the target (R164). -/
def State.leaseExpire (s : State) (chip : Nat) : State :=
  (s.onWindow chip fun w => { w with granted := 0 }).onRmt fun r => { r with granted := Table.erase r.granted chip }

/-! ### What answers a request -/

/-- A response, mask or negative completion discarded (R158, R165, R166). -/
def State.stale (s : State) : State := s.bump Reg.RMT_STALE_RSP

/-- The generation that a response of an entry must carry: the context's own, 0 for the image push (R166, R293). -/
def State.txnGen (s : State) (t : Txn) : Nat := if t.kind = .image then 0 else s.genOf t.ctx

/-- The entry and `SEQ` that an answer names, where R165 and R166 let it count. -/
def State.answered? (s : State) (p : Packet) (q : Nat) : Option (Txn × SeqState) :=
  match s.txn? p.tag with
  | none => none
  | some t =>
    let q' := if t.cas.isSome then 0 else q
    match t.seq? q' with
    | none => none
    | some x => if t.quarantined ∨ p.gen ≠ s.txnGen t ∨ x.phase.isOver then none else some (t, x)

/-- A completion mask (R156, R165): every bit marks a `SEQ` done, or is stale. -/
def State.takeCompletion (s : State) (p : Packet) : State :=
  let mask := leNat (fit 8 p.payload)
  let s1 := (bitsOf 64 mask).foldl (fun s i =>
    match s.answered? p (p.seq + i) with
    | some _ => s.doneSeq p.tag (p.seq + i)
    | none => s.stale) s
  s1.checkTxn p.tag

/-- Whether a negative completion ends an attend request whose `SEQ` is already done: the service failed (R356, R359). -/
def State.attendFailed (s : State) (p : Packet) (code : Nat) : Bool :=
  (s.txn? p.tag).any fun t => t.kind == .attend && !t.quarantined && p.gen == s.txnGen t && (t.seq? p.seq).isSome &&
    t.firstFail.isNone && decide (0x12 ≤ code)

/-- A negative completion of a transaction (R165). -/
def State.takeNeg (s : State) (p : Packet) : State :=
  let code := le 0 1 p.payload
  match s.answered? p p.seq with
  | none => if s.attendFailed p code then s.failSeq p.tag p.seq code else s.stale
  | some (t, x) =>
    let q := if t.cas.isSome then 0 else p.seq
    if code = 0x01 ∨ code = 0x02 ∨ code = 0x10 then
      if 1 < x.outstanding then s.onTxn p.tag fun t => t.onSeq q fun x => { x with outstanding := x.outstanding - 1 }
      else if code = 0x10 ∧ s.reg Reg.RMT_BUSY_LIMIT ≤ x.busies then s.failSeq p.tag q 0x10
      else if code ≠ 0x10 ∧ s.attemptsSpent x then s.failSeq p.tag q 0x20
      else
        s.onTxn p.tag fun t => { (t.onSeq q fun x =>
          { x with phase := .backoff, outstanding := 0, negs := x.negs + 1,
                   busies := if code = 0x10 then x.busies + 1 else x.busies, needGrant := code = 0x10,
                   pendingCount := code ≠ 0x10 }) with tainted := true }
    else if code = 0x11 then s.onTxn p.tag fun t => t.onSeq q fun x => { x with phase := .parked }
    else s.failSeq p.tag q code

/-- Bytes landed in a piece's place: the scratchpad, or the pinned local memory. -/
def State.land (s : State) (t : Txn) (core : Nat) (pc : Piece) (bs : List MByte) : State :=
  match t.space with
  | .spad => s.spadWrite core pc.addr bs
  | .mem => (s.writePieces pc.parts bs).2

/-- The core on whose behalf an entry was issued. -/
def Txn.core (t : Txn) : Nat :=
  match t.owner with
  | .dma n _ => n | .attend n _ => n | .farFill n => n | .farWb n _ => n | .imagePush => 0

/-- A LOAD_RSP: the piece lands at its place, or is stale (R153, R165, R166). -/
def State.takeLoadRsp (s : State) (p : Packet) : State :=
  match s.txn? p.tag with
  | none => s.stale
  | some t =>
    match t.pieces.find? (fun x => x.seq == p.seq) with
    | none => s.stale
    | some pc =>
      if t.quarantined ∨ p.gen ≠ s.txnGen t ∨ p.payload.length ≠ pc.len ∨ (t.kind ≠ .load ∧ t.kind ≠ .gather ∧ t.kind ≠ .far) ∨
          (t.seq? (if t.kind = .gather then p.seq else 0)).any (fun x => x.phase.isOver) then s.stale
      else
        let poison := bit p.opArg 0
        let bs := p.payload.map fun b => (b, poison)
        let s1 := if t.kind = .far then
            let sel : FarFill → Bool := fun x => x.core == t.core && x.data.isNone && x.failed.isNone
            let upd : FarFill → FarFill := fun x => { x with data := some (p.payload, poison) }
            s.onFar fun f => { f with fills := updFirst sel upd f.fills }
          else s.land t t.core pc bs
        let rest := t.pieces.filter (fun x => x.seq != p.seq)
        let s2 := s1.onTxn p.tag fun t => { t with pieces := rest, poisoned := t.poisoned || (poison && t.kind != .far) }
        let s3 := if t.kind = .gather then s2.doneSeq p.tag p.seq else if rest.isEmpty then s2.doneSeq p.tag 0 else s2
        (s3.engineProgress t.core .dma).checkTxn p.tag

/-- An ATOMIC_RSP: the old value lands in the requester's slot (R148, R155). -/
def State.takeAtomicRsp (s : State) (p : Packet) : State :=
  match s.answered? p p.seq with
  | none => s.stale
  | some (t, _) =>
    match t.pieces with
    | pc :: _ =>
      if t.kind ≠ .atomic then s.stale
      else (((s.land t t.core pc (clean (fit 8 p.payload))).onTxn p.tag fun t => { t with pieces := [] }).doneSeq p.tag 0).checkTxn p.tag
    | [] => s.stale

/-- A WINDOW_GRANT: the granted slots join the window, and packets that wait leave (R164). -/
def State.takeGrant (s : State) (p : Packet) : State :=
  let n := le 0 2 p.payload
  (s.onWindow p.src fun w => { w with asked := decide (n = 0), granted := min 1024 (w.granted + n) }).pump p.src

/-! ### Issue -/

/-- Whether the release of a tag has still to leave: until then the tag names entries at the target (R161, R168). -/
def State.releaseWaits (s : State) (tag : Nat) : Bool := s.rmt.windows.any fun e => e.2.releases.any fun r => r.1 == tag

/-- A free tag of a partition's share; which one is the block's choice (R159). A tag is free once its release has left
(DEDUCED from R161 and R168). -/
def State.freeTag (s : State) (part : Nat) : Option Nat × State :=
  let free := ((List.range 8192).map (· + 8192 * part)).filter fun n =>
    !s.rmt.txns.any (fun t => t.tag == n) && !s.releaseWaits n
  if free.isEmpty then (none, s) else s.pick free

/-- Tracker entries of a context in a partition (R279). -/
def State.entriesOf (s : State) (c part : Nat) : Nat :=
  (s.rmt.txns.filter fun t => t.ctx == c && decide (t.tag / 8192 = part)).length

/-- Tracker entries of the task that runs on a core, in a partition (R279, R282). -/
def State.taskEntries (s : State) (task : Task) (part : Nat) : Nat :=
  (s.rmt.txns.filter fun t => t.owner != .imagePush && task.cores.testBit t.core && decide (t.tag / 8192 = part)).length

/-- Whether the limits of R279 leave a tracker entry for a plan. -/
def State.trackerRoom (s : State) (p : TxnPlan) (core : Nat) : Bool :=
  if p.owner = .imagePush then true
  else
    decide (s.entriesOf p.ctx p.part < s.regAt Reg.CTX_TRACKER_GRANT p.ctx) &&
      (match s.taskOf? core with
      | some t => decide (s.taskEntries t p.part < t.trackerMax * 16 * popCount 64 (t.cores &&& maskOf (s.coresOfPart p.part)))
      | none => true)

/-- A request packet ready to leave: a new `SEQ`. -/
def SeqState.fresh (p : Packet) : SeqState :=
  { phase := .unsent, pkt := p, outstanding := 0, attempts := 0, negs := 0, busies := 0, port := none, needGrant := false,
    viaGrant := false, pendingCount := true }

/-- The landing pieces of an item (R153): one for each 4 KiB of a load, one for anything else. -/
def PlanItem.landings (i : PlanItem) (kind : TxnKind) : List (Nat × Nat × Nat) :=
  if i.len = 0 then []
  else if kind = .load then
    (List.range (ceilDiv i.len 4096)).map fun k => (k, i.addr + 4096 * k, min 4096 (i.len - 4096 * k))
  else [(i.seq, i.addr, i.len)]

/-- Landing pieces translated and pinned; the offset that faults where one does (R160). -/
def State.pinPieces (s : State) (part ctx : Nat) (space : LocalSpace) :
    List (Nat × Nat × Nat) → (Except (Nat × WalkFault) (List Piece)) × State
  | [] => (.ok [], s)
  | (q, a, n) :: rest =>
    let r := match space with
      | .spad => ((.ok [] : Except (Nat × WalkFault) (List (Nat × Nat))), s)
      | .mem => s.translateRange part ctx a n .write false
    match r.1 with
    | .error e => (.error e, r.2)
    | .ok parts =>
      let t := State.pinPieces r.2 part ctx space rest
      match t.1 with
      | .error e => (.error e, t.2)
      | .ok l => (.ok ({ seq := q, addr := a, len := n, parts := parts } :: l), t.2)

/-- The source bytes of an item, or the offset that faults. -/
def State.readItem (s : State) (p : TxnPlan) (core : Nat) (i : PlanItem) : (Except (Nat × WalkFault) (List MByte)) × State :=
  match p.owner, p.space with
  | .imagePush, _ => let r := s.memRead i.addr i.len; (.ok r.1, r.2)
  | _, .spad => let r := s.spadRead core i.addr i.len; (.ok r.1, r.2)
  | _, .mem =>
    let r := s.translateRange p.part p.ctx i.addr i.len .read false
    match r.1 with
    | .error e => (.error e, r.2)
    | .ok parts => let q := r.2.readPieces parts; (.ok q.1, q.2)

/-- Who makes the local accesses of an item. -/
def TxnPlan.accessor (p : TxnPlan) (core seq : Nat) : Accessor :=
  if p.kind = .gather ∨ p.kind = .scatter then .element core seq else .engine core .dma

/-- One item prepared: its source read into the payload or its landing pinned, and its `SEQ` made; false where a
translation fault stops it (R160, R170). Poisoned source data fails the `SEQ` without a packet (R127). -/
def State.prepare (s : State) (p : TxnPlan) (core tag : Nat) (i : PlanItem) : Bool × State :=
  if i.reads then
    let r := s.readItem p core i
    match r.1 with
    | .error e => (false, r.2.xltRaise p.ctx e.1 e.2 .read (p.accessor core i.seq))
    | .ok bs =>
      let x := SeqState.fresh { i.pkt with payload := plain bs }
      if anyPoison bs then
        (true, r.2.onTxn tag fun t => { t with seqs := t.seqs ++ [(i.seq, { x with phase := .failed 0x14 })], tainted := true })
      else (true, (r.2.onTxn tag fun t => { t with seqs := t.seqs ++ [(i.seq, x)] }).queueSeq tag i.seq)
  else
    let r := s.pinPieces p.part p.ctx p.space (i.landings p.kind)
    match r.1 with
    | .error e => (false, r.2.xltRaise p.ctx e.1 e.2 .write (p.accessor core i.seq))
    | .ok pcs =>
      let s1 := r.2.onTxn tag fun t => { t with seqs := t.seqs ++ [(i.seq, SeqState.fresh i.pkt)], pieces := t.pieces ++ pcs }
      (true, if p.kind = .gather then s1 else s1.queueSeq tag i.seq)

/-- Items prepared in order until one faults; the other elements of a gather or scatter proceed (R170). The items that
remain. -/
def State.prepareAll (s : State) (p : TxnPlan) (core tag : Nat) : List PlanItem → List PlanItem × State
  | [] => ([], s)
  | i :: rest =>
    let r := s.prepare p core tag i
    if r.1 then State.prepareAll r.2 p core tag rest
    else if p.kind = .gather ∨ p.kind = .scatter then
      let t := State.prepareAll r.2 p core tag rest
      (i :: t.1, t.2)
    else (i :: rest, r.2)

/-- The items that a plan may prepare now: an image push has at most 16 packets outstanding (R293). -/
def State.itemsNow (s : State) (p : TxnPlan) (tag : Nat) : Nat :=
  if p.kind = .image then
    16 - ((s.txn? tag).map fun t => (t.seqs.filter fun e => !e.2.phase.isOver).length).getD 0
  else p.items.length

/-- A plan that holds its tracker entry goes on (R159, R170). -/
def State.runPlan (s : State) (p : TxnPlan) (core tag : Nat) : State :=
  let n := s.itemsNow p tag
  let q := s.prepareAll p core tag (p.items.take n)
  let r := (q.1 ++ p.items.drop n, q.2)
  let s1 := if p.kind = .gather then
      match (r.2.txn? tag).bind (fun t => t.seqs.find? (fun e => e.2.phase == .unsent)) with
      | some e => r.2.queueSeq tag e.1
      | none => r.2
    else r.2
  if r.1.isEmpty then (s1.onTxn tag fun t => { t with complete := true }).checkTxn tag
  else s1.onRmt fun m => { m with plans := m.plans ++ [{ p with tag := some tag, items := r.1 }] }

/-- A new tracker entry for a plan. -/
def Txn.ofPlan (p : TxnPlan) (tag gen : Nat) : Txn :=
  { tag := tag, ctx := p.ctx, gen := gen, dest := p.dest, kind := p.kind, owner := p.owner, ord := p.ord, space := p.space,
    pieces := match p.kind with | .far => [{ seq := 0, addr := 0, len := 64, parts := [] }] | _ => [],
    seqs := [], cas := p.cas, poisoned := false, tainted := false, quarantined := false, complete := false }

/-- The core that a plan's owner names. -/
def TxnPlan.core (p : TxnPlan) : Nat :=
  match p.owner with
  | .dma n _ => n | .attend n _ => n | .farFill n => n | .farWb n _ => n | .imagePush => 0

/-- Whether a plan may obtain its entry now (R147, R159, R457). -/
def State.mayIssue (s : State) (p : TxnPlan) : Bool :=
  let same := (s.rmt.txns.filter fun t => t.owner == p.owner && !t.quarantined).length
  s.powered && s.trackerRoom p p.core && (p.owner == .imagePush || decide (same < s.reg Reg.RMT_DMA_TXN)) &&
    Table.get s.flt.unsynced 256 p.core == 256 && s.pkt.drain.all fun d => d.1 != p.dest

/-- TRANSACTION_ISSUE: a waiting transaction obtains a tracker entry, reserves its landing, and sends what its window
lets leave (R159, R160, R164). -/
def State.issue (s : State) (index : Nat) : State :=
  match s.rmt.plans[index]? with
  | none => s
  | some p =>
    let core := p.core
    let stuck := match p.owner with | .dma .. => s.engineStalled core .dma | _ => false
    if stuck then s
    else
      let taken := s.onRmt fun r => { r with plans := r.plans.eraseIdx index }
      match p.tag with
      | some tag => taken.runPlan p core tag
      | none =>
        if !s.mayIssue p then s
        else
          let f := taken.freeTag p.part
          match f.1 with
          | none => s
          | some tag =>
            let gen := if p.kind = .image then 0 else s.genOf p.ctx
            let ord := ofBool (s.ctxOrdered p.ctx)
            let s1 := f.2.onPkt fun k => { k with ordered := Table.put k.ordered 0 p.ctx ord }
            (s1.onRmt fun r => { r with txns := r.txns ++ [Txn.ofPlan p tag gen] }).runPlan p core tag

/-! ### Descriptors -/

/-- The fields of a remote operation descriptor (R149). -/
structure RmtDesc where
  op : Nat
  code : Nat
  wide : Bool
  countEn : Bool
  countUnit : Bool
  localCountEn : Bool
  statusEn : Bool
  rank : Nat
  remoteCounter : Nat
  offset : Nat
  localCounter : Nat
  addr : Nat
  space : Nat
  len : Nat
  operandA : Nat
  operandB : Nat
  table : Nat
  count : Nat
  statusAddr : Nat
  deriving DecidableEq, Repr

/-- A remote operation descriptor read from its 64 bytes (R149). -/
def RmtDesc.parse (bs : List Byte) : RmtDesc :=
  let d := leNat (fit 64 bs)
  { op := fld d 7 0, code := fld d 11 8, wide := bit d 12, countEn := bit d 13, countUnit := bit d 14,
    localCountEn := bit d 15, statusEn := bit d 16, rank := fld d 47 32, remoteCounter := fld d 63 48,
    offset := fld d 111 64, localCounter := fld d 127 112, addr := fld d 175 128, space := fld d 177 176,
    len := fld d 223 192 + 1, operandA := fld d 287 224, operandB := fld d 351 288, table := fld d 399 352,
    count := fld d 403 400 + 1, statusAddr := fld d 495 448 }

/-- An element of a gather or scatter: remote offset, length and index (R150). -/
def parseElem (v : Nat) : Nat × Nat × Nat := (fld v 47 0, fld v 59 48 + 1, fld v 63 60)

/-- The local range that a descriptor names: bytes from `LOCAL_ADDR`. -/
def RmtDesc.localLen (d : RmtDesc) (elems : List (Nat × Nat × Nat)) : Nat :=
  match d.op with
  | 5 => 8
  | 6 | 7 => (elems.map (fun e => e.2.1)).sum
  | _ => d.len

/-- The status with which a descriptor is refused at issue (R146, R149, R150, R152). -/
def RmtDesc.refusal (d : RmtDesc) (elems : List (Nat × Nat × Nat)) : Option Nat :=
  if d.op = 0 ∨ 7 < d.op ∨ 2 ≤ d.space ∨ (d.op = 5 ∧ 10 ≤ d.code) ∨
      ((d.op = 6 ∨ d.op = 7) ∧ (elems.zip (List.range 16)).any (fun p => p.1.2.2 != p.2)) then some 0x33
  else if (d.op = 1 ∧ 256 < d.len) ∨ (d.op = 2 ∧ 4096 < d.len) then some 0x32
  else if (d.op = 5 ∧ d.offset % (if d.wide then 8 else 4) ≠ 0) ∨ (d.statusEn && d.statusAddr % 8 != 0) ∨
      ((d.op = 6 ∨ d.op = 7) ∧ d.table % 8 ≠ 0) then some 0x31
  else none

/-- A range cut at every multiple of a power of two of its offset: offset and length of each part. -/
def cutAt (size off len : Nat) : List (Nat × Nat) := go off len (len / size + 2)
where
  /-- Parts of the rest. -/
  go : Nat → Nat → Nat → List (Nat × Nat)
    | _, _, 0 => []
    | _, 0, _ => []
    | o, l, f + 1 => let n := min l (size - o % size); (o, n) :: go (o + n) (l - n) f

/-- The request packet of a descriptor with no payload. -/
def State.rmtPkt (s : State) (c : Nat) (d : RmtDesc) (op : Opcode) (dest off : Nat) : Packet :=
  { s.ctlPkt op (s.jobOf c) dest with
    data := op != .loadReq && op != .atomicReq, destOffset := if op = .loadReq ∨ op = .atomicReq then 0 else off,
    counter := if op = .loadReq ∨ op = .atomicReq then 0 else d.remoteCounter,
    countEn := d.countEn && op != .loadReq && op != .atomicReq, countUnit := d.countUnit && op != .loadReq && op != .atomicReq }

/-- The payload of a LOAD_REQ; its release field is filled when it leaves (R154). -/
def loadReqBody (off len : Nat) : List Byte := leBytes 6 off ++ leBytes 3 (len - 1) ++ zeros 7

/-- The payload of an ATOMIC_REQ (R155). -/
def atomicBody (off code : Nat) (wide cas : Bool) (operand : List Byte) : List Byte :=
  leBytes 6 off ++ leBytes 1 (code + 16 * ofBool wide + 32 * ofBool cas) ++ [0] ++ fit 8 operand

/-- The transactions of a descriptor: items, and the second packet of a 64-bit CAS (R147, R153, R155). -/
def State.rmtItems (s : State) (c dest : Nat) (d : RmtDesc) (elems : List (Nat × Nat × Nat)) :
    TxnKind × List (List PlanItem) × Option Packet :=
  let req (off n : Nat) : Packet := { s.rmtPkt c d .loadReq dest 0 with payload := loadReqBody off n }
  match d.op with
  | 1 => (.load, [[{ seq := 0, addr := d.addr, len := d.len, reads := false, pkt := req d.offset d.len }]], none)
  | 2 => (.push, [[{ seq := 0, addr := d.addr, len := d.len, reads := true, pkt := s.rmtPkt c d .store dest d.offset }]], none)
  | 3 =>
    (.push, (cutAt (2 ^ 18) d.offset d.len).map (fun t =>
      ((cutAt 4096 t.1 t.2).zip (List.range 64)).map fun p =>
        { seq := p.2, addr := d.addr + (p.1.1 - d.offset), len := p.1.2, reads := true, pkt := s.rmtPkt c d .copy dest p.1.1 }), none)
  | 4 =>
    (.load, (cutAt (2 ^ 18) d.offset d.len).map (fun t =>
      [{ seq := 0, addr := d.addr + (t.1 - d.offset), len := t.2, reads := false, pkt := req t.1 t.2 }]), none)
  | 5 =>
    let cas := d.code = 2
    let a (part : Bool) (v : List Byte) : Packet :=
      { s.rmtPkt c d .atomicReq dest 0 with seq := ofBool part, payload := atomicBody d.offset d.code d.wide part v }
    let first := if cas && d.wide then leBytes 8 d.operandB
      else if cas then leBytes 4 d.operandA ++ leBytes 4 d.operandB else leBytes (if d.wide then 8 else 4) d.operandA
    (.atomic, [[{ seq := 0, addr := d.addr, len := 8, reads := false, pkt := a false first }]],
      if cas && d.wide then some (a true (leBytes 8 d.operandA)) else none)
  | _ =>
    let starts := elems.foldl (fun (r : List Nat × Nat) e => (r.1 ++ [r.2], r.2 + e.2.1)) ([], d.addr)
    let items := (elems.zip starts.1).map fun p =>
      if d.op = 6 then
        { seq := p.1.2.2, addr := p.2, len := p.1.2.1, reads := false,
          pkt := { s.rmtPkt c d .gatherReq dest 0 with payload := leBytes 8 (p.1.1 + 2 ^ 48 * (p.1.2.1 - 1) + 2 ^ 60 * p.1.2.2) } }
      else
        { seq := p.1.2.2, addr := p.2, len := p.1.2.1, reads := true,
          pkt := { s.rmtPkt c d .scatter dest p.1.1 with seq := p.1.2.2 } }
    (if d.op = 6 then .gather else .scatter, [items], none)

/-- The `SEQ` of each packet written in its header. -/
def PlanItem.numbered (i : PlanItem) : PlanItem := { i with pkt := { i.pkt with seq := i.seq } }

/-- A descriptor accepted for issue: its transactions wait (R149, R159). -/
def State.rmtAccept (s : State) (core c dest : Nat) (d : RmtDesc) (elems : List (Nat × Nat × Nat)) : State :=
  let id := s.rmt.nextDesc
  let t := s.rmtItems c dest d elems
  let desc : Desc := {
    id := id, core := core, ctx := c, op := d.op, peer := dest, statusEn := d.statusEn,
    statusAddr := d.statusAddr, localCountEn := d.localCountEn, localCounter := d.localCounter, left := t.2.1.length,
    donePkts := 0, fail := none, poisoned := false, att := none, attTimer := false, attTag := 0 }
  let plans := (t.2.1.zip (List.range t.2.1.length)).map fun p =>
    {
      ctx := c, part := s.partOfCore core, dest := dest, kind := t.1, owner := .dma core id, ord := p.2,
      space := if d.space = 0 then .spad else .mem, tag := none, items := p.1.map PlanItem.numbered, cas := t.2.2 }
  (s.onRmt fun r => { r with descs := r.descs ++ [desc], plans := r.plans ++ plans, nextDesc := id + 1 }).popQueue core .dma

/-- A descriptor refused at issue: it ends at once with a status (R146, R152). -/
def State.rmtRefuse (s : State) (core c status peer : Nat) (d : RmtDesc) : State :=
  (s.popQueue core .dma).endDesc {
    id := s.rmt.nextDesc, core := core, ctx := c, op := d.op, peer := peer,
    statusEn := d.statusEn, statusAddr := d.statusAddr, localCountEn := d.localCountEn, localCounter := d.localCounter,
    left := 0, donePkts := 0, fail := none, poisoned := false, att := none, attTimer := false, attTag := 0 } status 0

/-- Whether byte 0 of a descriptor names a kind that the DMA queue accepts (R149, R257, R344). -/
def dmaKind (k : Nat) : Bool := decide ((1 ≤ k ∧ k ≤ 8) ∨ k = 0x10 ∨ k = 0x11)

/-- RMT_LOAD to RMT_SCATTER: the descriptor of an operation at the head of the DMA queue is checked and issued; a
descriptor of no kind is refused with BAD_DESC (R145 to R153, R170, R257, R278). -/
def State.rmtDesc (s : State) (core op : Nat) : State :=
  match s.dmaHead? core with
  | none => s
  | some bs =>
    let d := RmtDesc.parse bs
    let c := s.ctxOfCore core
    if d.op ≠ op ∧ dmaKind d.op then s
    else if (d.statusEn && !s.inFootprint core d.statusAddr 8) ||
        ((op == 6 || op == 7) && !s.inFootprint core d.table (8 * d.count)) then s.taskError core 0x55
    else if d.localCountEn && !s.ownsCounter c d.localCounter then s.taskError core 0x57
    else
      let e := if op = 6 ∨ op = 7 then s.spadRead core d.table (8 * d.count) else ([], s)
      let elems := (unpackWords (plain e.1)).map parseElem
      let s1 := e.2
      match d.refusal elems with
      | some code => let r := s1.drawNat; r.2.rmtRefuse core c code (r.1 % 2 ^ 16) d
      | none =>
        if d.space = 0 && !s1.inFootprint core d.addr (d.localLen elems) then s1.taskError core 0x55
        else
          let r := s1.rankChip c d.rank
          match r.1 with
          | none => let q := r.2.drawNat; q.2.rmtRefuse core c 0x30 (q.1 % 2 ^ 16) d
          | some dest => r.2.rmtAccept core c dest d elems
where
  /-- The 64-bit words of an element table. -/
  unpackWords (bs : List Byte) : List Nat := words64 bs

end Sys2Proof.Machine
end

