-- ==== Sys2Proof/Machine/Route.lean ====
section
/-! DEFINITION. The derailleur: path choice, pins and injection (R115 to R127, R131), arrival of packets on a link
(R109, R128 to R130), telemetry (R132 to R134), and the commands that change the tables (R113, R116, R135 to R137). -/
namespace Sys2Proof.Machine
open Sys2Proof Sys2Proof.Bits

/-! ### Logical ports -/

/-- The members of a logical port in the build (R116). -/
def State.members (s : State) (p : Nat) : List Nat := (bitsOf 64 (s.membersOf p)).filter fun n => decide (n < s.build.links)

/-- The Active members of a logical port (R143). -/
def State.activeMembers (s : State) (p : Nat) : List Nat := (s.members p).filter fun n => (s.link n).active

/-- `LPORT_CAPS`: the AND of the agreed capabilities of the Active members; 0 where none is Active (R118, R143). -/
def State.lportCaps (s : State) (p : Nat) : Nat :=
  match s.activeMembers p with
  | [] => 0
  | n :: rest => rest.foldl (fun c m => c &&& (s.link m).caps) (s.link n).caps

/-- Units queued on a link, the replay buffer apart (R131). -/
def State.txUnits (s : State) (n : Nat) : Nat := ceilDiv (s.link n).txQueue.length 31

/-! ### Paths -/

/-- What R118 makes of a packet. -/
inductive Path where
  /-- The candidate ports, ascending. -/
  | ports (l : List Nat)
  /-- It waits for a freewheeling link. -/
  | wait
  /-- It fails at once with a reason of R110. -/
  | fail (reason : Nat)
  deriving DecidableEq, Repr

/-- The ports in step 1 of R118: the route entry, or the group's injection port (R126). -/
def State.routePorts (s : State) (p : Packet) : List Nat :=
  if p.mcast then let e := s.mcastEntry p.dest; if bit e 13 then [fld e 21 16] else []
  else bitsOf 64 (s.routeEntry p.dest)

/-- The candidate set of a packet (R118). -/
def State.path (s : State) (p : Packet) : Path :=
  let one := s.routePorts p
  let two := one.filter fun q => !(s.activeMembers q).isEmpty
  let three := two.filter fun q => p.needs &&& s.lportCaps q == p.needs
  if !three.isEmpty then .ports three
  else if one.any (fun q => (s.members q).any fun n => (s.link n).freewheel) then .wait
  else if two.isEmpty then .fail 0x04 else .fail 0x03

/-- The occupancy at which a packet may no longer enter a link: requests stop at the hard level, responses when the queue
is full (R131). -/
def State.entryLimit (s : State) (p : Packet) : Nat := if p.op.response then 512 else s.reg Reg.INJ_HARD_LEVEL

/-- The members of a port that a packet may enter now. -/
def State.openMembers (s : State) (p : Packet) (q : Nat) : List Nat :=
  (s.activeMembers q).filter fun n => decide (s.txUnits n < s.entryLimit p)

/-- The first element at or after a pointer, in wrapping order over `size`. -/
def firstFrom (ptr size : Nat) (l : List Nat) : Option Nat :=
  ((List.range size).map fun k => (ptr + k) % size).find? l.contains

/-- The key of a rotating pointer: the context's, 64 for management packets (R119). -/
def Waiting.ptrKey (w : Waiting) : Nat := w.ctx.getD 64

/-- The port that an unordered packet takes among its candidates (R119, R121); none while every one is full. -/
def State.spray (s : State) (w : Waiting) (l : List Nat) : Option Nat :=
  let others := match w.exclude with | some x => l.filter (· != x) | none => l
  let cand := (if others.isEmpty then l else others).filter fun q => !(s.openMembers w.pkt q).isEmpty
  let soft := cand.filter fun q => (s.activeMembers q).any fun n => decide (s.txUnits n < s.reg Reg.INJ_SOFT_LEVEL)
  let ptr := Table.get s.pkt.ptr 0 w.ptrKey
  (firstFrom ptr 64 soft).orElse fun _ => firstFrom ptr 64 cand

/-- The member that a packet takes within its port: the next in rotating order, past those with XOFF in effect unless
every member has it (R120). -/
def State.memberFor (s : State) (p : Packet) (q : Nat) : Option Nat :=
  let l := s.openMembers p q
  let clear := l.filter fun n => !(s.link n).xoffIn
  firstFrom (Table.get s.pkt.portPtr 0 q) 64 (if clear.isEmpty then l else clear)

/-! ### Pins -/

/-- Whether an ordered pair has a packet outstanding: on a link, or a request without its response (R123). -/
def State.pairBusy (s : State) (src dest : Nat) : Bool :=
  (List.range s.build.links).any (fun n => (s.link n).txPkts.any fun x =>
    x.2.2.ordered && !x.2.2.mcast && x.2.2.src == src && x.2.2.dest == dest) ||
  (src == s.ownChip && s.rmt.txns.any fun t => t.dest == dest && t.seqs.any fun e =>
    e.2.port.isSome && e.2.phase == .waiting && s.orders (some t.ctx) e.2.pkt)

/-- The port and link of an ordered packet: its pair's pin, or a new one (R123, R124); none while the pinned link is not
Active or has no room. -/
def State.pinned (s : State) (p : Packet) (l : List Nat) : Option (Nat × Nat) :=
  let old := s.pkt.pins.find? fun x => x.src == p.src && x.dest == p.dest
  let fresh : Option (Nat × Nat) :=
    match l[(p.src ^^^ p.dest) % l.length]? with
    | some q => ((s.activeMembers q).head?).map fun n => (q, n)
    | none => none
  let choice := match old with
    | some x => if s.pairBusy p.src p.dest then some (x.port, x.link) else fresh
    | none => fresh
  choice.filter fun c => (s.link c.2).active && decide (s.txUnits c.2 < s.entryLimit p)

/-! ### Injection -/

/-- The logical port that a request packet took, noted for its reissue (R121). -/
def State.notePort (s : State) (p : Packet) (q : Nat) : State :=
  if p.op.tracked && p.src == s.ownChip then
    s.onTxn p.tag fun t => { t with seqs := t.seqs.map fun e =>
      if t.gen == p.gen && (e.1 == p.seq || t.kind == .gather || t.cas.isSome) then (e.1, { e.2 with port := some q }) else e }
  else s

/-- A packet put whole in a link's transmit queue (R127). -/
def State.enqueue (s : State) (n : Nat) (p : Packet) : State :=
  s.onLink n fun l =>
    { l with txQueue := l.txQueue ++ p.flits, txPkts := l.txPkts.filter l.carries ++ [(l.txPos + l.txQueue.length, p.flits.length, p)] }

/-- A packet that has found its port and link leaves the waiting list. -/
def State.launch (s : State) (index : Nat) (w : Waiting) (q n : Nat) : State :=
  let pin (l : List Pin) : List Pin :=
    if w.pkt.ordered ∧ !w.pkt.mcast then
      l.filter (fun x => !(x.src == w.pkt.src && x.dest == w.pkt.dest)) ++ [{ src := w.pkt.src, dest := w.pkt.dest, port := q, link := n }]
    else l
  let spun := !w.pkt.ordered && !w.pkt.mcast
  ((s.onPkt fun k =>
    { k with wait := k.wait.eraseIdx index, pins := pin k.pins,
             ptr := if spun then Table.put k.ptr 0 w.ptrKey ((q + 1) % 64) else k.ptr,
             portPtr := if spun || w.pkt.mcast then Table.put k.portPtr 0 q ((n + 1) % 64) else k.portPtr }).enqueue n w.pkt).notePort
    w.pkt q

/-- Whether an earlier waiting packet must go first: an ordered one of the same pair, or a request of the same context
that waits under the injection levels (R123, R131). -/
def State.heldBack (s : State) (index : Nat) (w : Waiting) : Bool :=
  (s.pkt.wait.take index).any fun v =>
    (w.pkt.ordered && v.pkt.ordered && v.pkt.src == w.pkt.src && v.pkt.dest == w.pkt.dest) ||
    (!w.pkt.op.response && !v.pkt.op.response && v.ctx == w.ctx && v.ctx.isSome && v.pkt.dest != s.ownChip &&
      (match s.path v.pkt with | .ports _ => true | _ => false))

/-- A packet that waits at the derailleur is given a port and link, or keeps waiting; one without a path fails. A packet
for this block's own chip is answered, to be handled within (R115, R118 to R131). -/
def State.inject (s : State) (index : Nat) : Option Packet × State :=
  match s.pkt.wait[index]? with
  | none => (none, s)
  | some w =>
    let gone (s : State) : State := s.onPkt fun k => { k with wait := k.wait.eraseIdx index }
    if s.blk = .off ∨ s.blk = .reset then (none, s)
    else if !w.pkt.mcast && w.pkt.dest == s.ownChip then
      if s.heldBack index w then (none, s) else (some w.pkt, gone s)
    else
      match s.path w.pkt with
      | .wait => (none, s)
      | .fail r => (none, (gone s).onPkt fun k => { k with lost := k.lost ++ [(w.pkt, r)] })
      | .ports l =>
        if s.heldBack index w then (none, s)
        else if w.pkt.ordered && !w.pkt.mcast then
          match s.pinned w.pkt l with
          | some (q, n) => (none, s.launch index w q n)
          | none => (none, s)
        else
          match s.spray w l with
          | none => (none, s)
          | some q =>
            match s.memberFor w.pkt q with
            | some n => (none, s.launch index w q n)
            | none => (none, s)

/-! ### Telemetry -/

/-- One sample of a packet head, written to the telemetry ring (R133, R134). -/
def State.sampleHead (s : State) (n dir : Nat) (p : Packet) : State :=
  let i := s.reg Reg.TLM_PRODUCER
  let rec_ := leBytes 8 s.stamp ++ leBytes 1 n ++ leBytes 1 dir ++ zeros 6 ++ fit 32 (p.bytes.take (if p.data then 32 else 16)) ++ zeros 16
  ((s.memWrite (s.reg Reg.TLM_RING_BASE + 64 * (i % s.reg Reg.TLM_RING_RECORDS)) (clean rec_)).2).setReg Reg.TLM_PRODUCER ((i + 1) % 2 ^ 32)

/-- The heads of packets that passed on a link in one direction sampled, `seen` heads having passed before (R132). -/
def State.sampleHeads (s : State) (n dir seen : Nat) (l : List Packet) : State :=
  let k := s.reg Reg.TLM_RATE_LOG2
  if k = 0 ∨ s.reg Reg.TLM_RING_RECORDS < 64 then s
  else (l.zip (List.range l.length)).foldl
    (fun s e => if (seen + e.2 + 1) % 2 ^ k = 0 then s.sampleHead n dir e.1 else s) s

/-- TRANSMIT_UNIT_BOUNDARY: a unit leaves, and its packet heads are sampled (R76, R132). -/
def State.transmitBoundary (s : State) (n : Nat) : State :=
  let a := s.link n
  let t := s.unitBoundary n
  let b := t.link n
  let heads := (a.txPkts.filter fun x => decide (a.txPos ≤ x.1 ∧ x.1 < b.txPos)).map fun x => x.2.2
  t.sampleHeads n 1 a.txHeads heads

/-! ### Arrival -/

/-- The flits before the next marked head discarded, where the receiver is discarding (R130). -/
def LinkState.skipToHead (l : LinkState) : LinkState :=
  if l.skip then
    let rest := l.rxFlits.dropWhile fun f => !f.head
    { l with rxFlits := rest, skip := rest.isEmpty }
  else l

/-- Flits taken from the receive buffer of a link. -/
def State.takeFlits (s : State) (n k : Nat) : State :=
  s.onLink n fun l => ({ l with rxFlits := l.rxFlits.drop k }).updateXoff

/-- A head that arrives while flits of the packet in progress are still due tears it (R128). -/
def State.tornByHead (s : State) (n : Nat) : State :=
  let l := s.link n
  match l.asm with
  | none => s
  | some a => if (l.rxFlits.take a.due).any (·.head) then (s.tear n).onLink n LinkState.skipToHead else s

/-- A packet whose length cannot be trusted, or a length that contradicts `FIRST_HEAD`: counted, and the flits up to the
next marked head discarded (R65, R109). -/
def State.dropUntrusted (s : State) (n key : Nat) : State :=
  (s.dropPacket n key).onLink n fun l => ({ l with rxFlits := l.rxFlits.drop 1, skip := true }).skipToHead

/-- PACKET_HEADER_ARRIVE: the header at the front of a link's receive buffer is complete, and checks 1 to 4 are made
(R109). -/
def State.headerArrive (s : State) (n : Nat) : State :=
  let s1 := (s.tornByHead n).onLink n LinkState.skipToHead
  let l := s1.link n
  if l.asm.isSome then s1
  else
    match l.rxFlits with
    | [] => s1
    | f :: _ =>
      if f.cont then s1.dropUntrusted n Reg.DROP_MALFORMED
      else
        match declared f.bits with
        | none => s1.dropUntrusted n Reg.DROP_MALFORMED
        | some (data, len) =>
          let h := if data then 4 else 2
          let hd := l.rxFlits.take h
          if (hd.drop 1).any (·.head) then s1.dropUntrusted n Reg.DROP_TORN_SHORT
          else if hd.length < h then s1
          else
            let ws := hd.map (·.bits)
            let due := flitCount data len - h
            let s2 := (s1.takeFlits n h).onLink n fun l => { l with rxHeads := l.rxHeads + 1 }
            let put (s : State) (ok : Bool) : State :=
              s.onLink n fun l => { l with asm := some { flits := ws, due := due, admitted := ok, dropped := !ok } }
            match parsePacket ws with
            | none => put (s2.dropPacket n Reg.DROP_MALFORMED) false
            | some p =>
              let s3 := s2.sampleHeads n 0 l.rxHeads [p]
              match s3.checkHeader n p with
              | some key => put (s3.dropPacket n key) false
              | none => put s3 true

/-- PACKET_COMPLETE: the last flit of the packet in progress is in, and check 5 is made; the packet to be handled is
answered (R109, R129). -/
def State.packetComplete (s : State) (n : Nat) : Option Packet × State :=
  let l := s.link n
  match l.asm with
  | none => (none, s)
  | some a =>
    let body := l.rxFlits.take a.due
    if body.length < a.due then (none, s)
    else if body.any (·.head) then (none, s.tornByHead n)
    else
      let s1 := (s.takeFlits n a.due).onLink n fun l => { l with asm := none }
      if !a.admitted then (none, s1)
      else
        match parsePacket (a.flits ++ body.map (·.bits)) with
        | none => (none, s1)
        | some p =>
          if p.data ∧ payCheck p.payload ≠ storedCheck a.flits then
            let s2 := s1.dropPacket n Reg.DROP_CHECK
            (none, if p.mcast then s2 else s2.sendNeg p p.seq 0x02)
          else (some p, s1)

/-- PKT_STALL_TIMEOUT: the packet in progress is torn, unless all its flits are in (R128). -/
def State.stallTimeout (s : State) (n : Nat) : State :=
  let l := s.link n
  if l.freewheel || l.xoffOut then s
  else
    match l.asm with
    | some a =>
      if a.due ≤ l.rxFlits.length ∧ !(l.rxFlits.take a.due).any (·.head) then s
      else (s.tear n).onLink n fun l => (l.skipToHead).updateXoff
    | none =>
      match l.rxFlits with
      | [] => s
      | f :: _ =>
        match declared f.bits with
        | some (data, _) =>
          if l.skip || decide ((if data then 4 else 2) ≤ l.rxFlits.length) then s
          else (s.dropPacket n Reg.DROP_TORN_SHORT).onLink n fun l => { l with rxFlits := [], skip := true }.updateXoff
        | none => s

/-! ### Tables -/

/-- Whether a chip number has a reference (R113). -/
def State.referenced (s : State) (d : Nat) : Bool := Table.get s.pkt.refs 0 d != 0

/-- The key of a route entry (R144). -/
def routeKey (d : Nat) : Nat := (0x4400 + d / 128) * 256 + d % 128 + 1

/-- `ROUTE_LOAD` starts (R136). -/
def State.routeLoadAct (s : State) : Status × State :=
  if s.pkt.loading then (.busy, s) else (.ok, (s.onPkt fun k => { k with loading := true }).setReg Reg.ROUTE_CMD_STATUS 2)

/-- ROUTE_LOAD_COMPLETE: every entry is loaded, or none (R136). -/
def State.routeLoadComplete (s : State) : State :=
  if !s.pkt.loading then s
  else
    let base := s.reg Reg.ROUTE_LOAD_BASE
    let s0 := s.onPkt fun k => { k with loading := false }
    if 2 ^ 40 < base + 524288 then s0.setReg Reg.ROUTE_CMD_STATUS 4
    else
      let r := s0.memRead base 524288
      let ws := words64 (plain r.1)
      let pairs := (List.range ws.length).zip ws
      if anyPoison r.1 then r.2.setReg Reg.ROUTE_CMD_STATUS 4
      else if pairs.any (fun e => r.2.referenced e.1 && r.2.routeEntry e.1 != e.2) then r.2.setReg Reg.ROUTE_CMD_STATUS 1
      else (pairs.foldl (fun s e => s.setReg (routeKey e.1) e.2) r.2).setReg Reg.ROUTE_CMD_STATUS 0

/-- `ROUTE_DRAIN_UPDATE`: accepted where the old or the new mask has a member link at agreed major 4 (R137). -/
def State.routeDrainAct (s : State) (chip mask : Nat) : Status × State :=
  let ports := bitsOf 64 (s.routeEntry chip ||| mask)
  let old4 := ports.any fun p => (s.activeMembers p).any fun n => (s.link n).version / 256 == 4
  if s.pkt.drain.isSome || !old4 then (.busy, s)
  else (.ok, (s.onPkt fun k => { k with drain := some (chip, mask) }).setReg Reg.ROUTE_CMD_STATUS 2)

/-- Whether nothing targets a chip any more: no tracker entry and no queued packet (R137). -/
def State.chipQuiet (s : State) (d : Nat) : Bool :=
  !s.rmt.txns.any (fun t => t.dest == d) && !s.pkt.wait.any (fun w => !w.pkt.mcast && w.pkt.dest == d) &&
    !(List.range s.build.links).any fun n => (s.link n).txPkts.any fun x =>
      !x.2.2.mcast && x.2.2.dest == d && (s.link n).carries x

/-- The drain ends: held packets are released. -/
def State.endDrain (s : State) (status : Nat) : State :=
  (s.onPkt fun k => { k with drain := none, wait := k.wait ++ k.drainHeld, drainHeld := [] }).setReg Reg.ROUTE_CMD_STATUS status

/-- ROUTE_DRAIN_COMPLETE: the entry is written once nothing targets the chip (R137). -/
def State.routeDrainComplete (s : State) : State :=
  match s.pkt.drain with
  | none => s
  | some (d, m) => if s.chipQuiet d then (s.setReg (routeKey d) m).endDrain 0 else s

/-- ROUTE_DRAIN_TIMEOUT: the old entry stays (R137). -/
def State.routeDrainTimeout (s : State) : State := if s.pkt.drain.isSome then s.endDrain 3 else s

/-- `LPORT_LINKS` written (R116): it takes effect at each link's next boundary, at once on a link that has none. -/
def State.lportAct (s : State) (p mask : Nat) : Status × State :=
  let n := popCount 64 mask
  let clash := (List.range 64).any fun q => q != p && s.regAt Reg.LPORT_LINKS q &&& mask != 0
  if !([0, 1, 2, 4, 8, 16].contains n) || decide (2 ^ s.build.links ≤ mask) || clash then (.outOfRange, s)
  else (.ok, (List.range s.build.links).foldl
    (fun s n => if (s.link n).active then s else s.takeMembers n) (s.setRegAt Reg.LPORT_LINKS p mask))

/-! ### Binding -/

/-- `CTX_ROUTE_BIND` starts; refused in Configure (R113, R499). -/
def State.bindAct (s : State) (c : Nat) : Status × State :=
  if s.blk = .configure ∨ s.regAt Reg.CTX_ROUTE_STATE c = 1 ∨ s.pkt.binding.contains c then (.busy, s)
  else (.ok, s.onPkt fun k => { k with binding := setIns c k.binding })

/-- A tree entry read: the entry, or the case in which it refuses the bind, with its rank field (R399, R400). -/
def State.readTree (s : State) (off : Nat) : (Except (Nat × Nat) Tree) × State :=
  let r := s.memRead off 256
  let b := plain r.1
  let n := le 2 1 b
  let kids := (List.range n).map fun k => le (4 + 2 * k) 2 b
  let parent := le 0 2 b
  let chips := (if parent = 0xFFFF then [] else [parent]) ++ kids
  if anyPoison r.1 then (.error (6, 0xFFFF), r.2)
  else if 64 < n ∨ le 3 1 b ≠ 0 ∨ (b.drop 132).any (· != 0) then (.error (3, 0), r.2)
  else if chips.any (fun d => d != s.ownChip && s.routeEntry d == 0) then (.error (4, 0), r.2)
  else (.ok { parent := parent, children := kids }, r.2)

/-- The rank table as the bind reads it: each entry with its poison mark (R112). -/
def State.readRanks (s : State) (c : Nat) : List (Nat × Bool) × State :=
  let n := s.regAt Reg.CTX_RANK_COUNT c
  let r := s.memRead (s.regAt Reg.CTX_RANK_BASE c) (4 * n)
  ((List.range n).map fun k => let e := slice (4 * k) 4 r.1; (leNat (plain e), anyPoison e), r.2)

/-- Whether an entry of a rank table is valid. -/
def rankValid (e : Nat) : Bool := bit e 16

/-- The first refusal of R113 that needs no memory: codes 1 to 3. -/
def State.bindEarly (s : State) (c : Nat) : Option (Nat × Nat) :=
  let job := s.jobOf c
  let n := s.regAt Reg.CTX_RANK_COUNT c
  if job = 0 ∨ job = 0xFFF then some (1, 0)
  else if (List.range 64).any (fun y => y != c && s.regAt Reg.CTX_ROUTE_STATE y == 1 && s.jobOf y == job) then some (2, 0)
  else if n = 0 ∨ 65536 < n ∨ 2 ^ 40 < s.regAt Reg.CTX_RANK_BASE c + 4 * n then some (3, 0)
  else none

/-- The refusal of a rank table as read: codes 6, 4 and 5 (R113, R115). -/
def State.ranksRefusal (s : State) (c : Nat) (l : List (Nat × Bool)) : Option (Nat × Nat) :=
  let own := s.regAt Reg.CTX_OWN_RANK c
  let lost (e : Nat) : Bool := rankValid e && fld e 15 0 != s.ownChip && s.routeEntry (fld e 15 0) == 0
  match l.findIdx? (·.2), l.findIdx? (fun e => lost e.1) with
  | some r, _ => some (6, r)
  | none, some r => some (4, r)
  | none, none =>
    match l[own]? with
    | some e => if rankValid e.1 && fld e.1 15 0 == s.ownChip && s.ownChip != 0xFFFF then none else some (5, own)
    | none => some (5, own)

/-- The bind refused with a code and rank. -/
def State.bindRefused (s : State) (c : Nat) (e : Nat × Nat) : State :=
  (s.setRegAt Reg.CTX_ROUTE_STATE c 2).setRegAt Reg.CTX_BIND_ERROR c (e.1 * 2 ^ 16 + e.2)

/-- The bind succeeds: references, alive counters and trees (R113, R303, R399). -/
def State.bound (s : State) (c : Nat) (ranks : List (Nat × Bool)) (trees : List Tree) : State :=
  let chips := ((ranks.filter fun e => rankValid e.1).map fun e => fld e.1 15 0).eraseDups
  let s1 := s.onPkt fun k =>
    { k with refs := chips.foldl (fun t d => Table.put t 0 d (Table.get t 0 d + 1)) k.refs, bound := Table.put k.bound [] c chips }
  (s1.onCtx c fun x => { x with alives := [], trees := trees, alt := false }).setRegAt Reg.CTX_ROUTE_STATE c 1

/-- ROUTE_BIND_COMPLETE: the bind ends Bound or Refused (R113, R400). -/
def State.bindComplete (s : State) (c : Nat) : State :=
  if !s.pkt.binding.contains c then s
  else
    let s0 := s.onPkt fun k => { k with binding := setDel c k.binding }
    match s0.bindEarly c with
    | some e => s0.bindRefused c e
    | none =>
      let r := s0.readRanks c
      match r.2.ranksRefusal c r.1 with
      | some e => r.2.bindRefused c e
      | none =>
        let base := s.regAt Reg.JOB_TREE_BASE c
        let a := r.2.readTree base
        let b := a.2.readTree (base + 256)
        match a.1, b.1 with
        | .error e, _ => b.2.bindRefused c e
        | _, .error e => b.2.bindRefused c e
        | .ok t, .ok u => b.2.bound c r.1 [t, u]

end Sys2Proof.Machine
end

