-- ==== Sys2Proof/Machine/FloatTables.lean ====
section
/-! DEFINITION. The tables and constants of the transcendental functions: each entry is the integer nearest to the exact
value that R231 to R234 define, ties to even. -/
namespace Sys2Proof.Float
open Sys2Proof

/-- TE[*i*] = RNE(2^(*i*/64) × 2^56) (R231). -/
def tableE : List Int :=
  [72057594037927936, 72842249791604239, 73635449886234436, 74437287363591297, 75247856278606070,
   76067251710401056, 76895569773442314, 77732907628813819, 78579363495614382, 79435036662478676,
   80300027499223720, 81174437468622180, 82058369138303878, 82951926192786898, 83855213445639699,
   84768336851775668, 85691403519881555, 86624521724981237, 87567800921136298, 88521351754284911,
   89485286075220515, 90459716952711840, 91444758686765776, 92440526822034689, 93447138161369714,
   94464710779521643, 95493364036991006, 96533218594028966, 97584396424790678, 98647020831642759,
   99721216459626571, 100807109311078985, 101904826760412361, 103014497569055471, 104136251900557118,
   105270221335854220, 106416538888706157, 107575339021297185, 108746757660008745, 109930932211363528,
   111128001578143158, 112338106175681379, 113561387948334671, 114797990386132217, 116048058541607170,
   117311739046811211, 118589180130514377, 119880531635592180, 121185945036602070, 122505573457551279,
   123839571689858159, 125188096210509090, 126551305200413122, 127929358562956469, 129322417942759057,
   130730646744635321, 132154210152761458, 133593275150051415, 135048010537743852, 136518586955202402,
   138005176899931544, 139507954747810423, 141027096773547014, 142562781171355011]

/-- TL[*i*] = RNE(−ln(TC[*i*] × 2^−24) × 2^56) (R232). -/
def tableL : List Int :=
  [560762585155193, 1669362317880391, 2761163355938503, 3836672887011563, 4896361780837091, 5940690802841682,
   6970106436492101, 7985017428625224, 8985832897374907, 9972939870883663, 10946704148602601,
   11907486705739887, 12855625716573246, 13791453725692458, 14715279506762446, 15627416686500311,
   16528144515168047, 17417758760809088, 18296521402564904, 19164690722139014, 20022531098830834,
   20870277679946383, 21708168268739941, 22536424756256659, 23355268957856388, 24164915612051920,
   24965558884048523, 25757413310105513, 26540652014935711, 27315472655068267, 28082053624466239,
   28840558698922543, 29591167974173759, 30334032287752655, 31069323964204029, 31797183933494586,
   32517766784733121, 33231213701938436, 33937665052225688, 34637259879363335, 35330128376537826,
   36016391028986515, 36696186337965723, 37369628006656262, 38036832516990048, 38697918917475872,
   39352986358828362, 40002157760078209, 40645535288613762, 41283221971254934, 41915306088957023,
   42541899019457346, 43163089089129354, 43778971857993170, 44389634297291114, 44995162216823338,
   45595640005030816, 46191166673405725, 46781806936551953, 47367639328834417, 47948756603938031,
   48525215598890090, 49097103529524062, 49664487715522372]

/-- TQ[*i*] for *p* = 0 (R234). -/
def tableQ0 : List Int :=
  [16712062, 16583998, 16458834, 16336462, 16216779, 16099689, 15985099, 15872921, 15763073, 15655474,
   15550048, 15446725, 15345434, 15246109, 15148689, 15053113, 14959323, 14867265, 14776886, 14688135,
   14600964, 14515327, 14431180, 14348479, 14267184, 14187255, 14108654, 14031346, 13955295, 13880467,
   13806830, 13734353, 13663005, 13592758, 13523583, 13455454, 13388344, 13322228, 13257082, 13192883,
   13129607, 13067234, 13005740, 12945107, 12885314, 12826342, 12768173, 12710787, 12654169, 12598300,
   12543165, 12488748, 12435032, 12382004, 12329649, 12277952, 12226900, 12176480, 12126678, 12077482,
   12028880, 11980861, 11933412, 11886522]

/-- TQ[64 + *i*], *p* = 1 (R234). -/
def tableQ1 : List Int :=
  [11817212, 11726657, 11638153, 11551623, 11466994, 11384199, 11303172, 11223850, 11146176, 11070092,
   10995545, 10922484, 10850860, 10780627, 10711741, 10644158, 10577839, 10512744, 10448836, 10386080,
   10324441, 10263886, 10204385, 10145907, 10088422, 10031904, 9976325, 9921660, 9867884, 9814972, 9762903,
   9711654, 9661203, 9611531, 9562617, 9514442, 9466989, 9420238, 9374173, 9328777, 9284034, 9239929,
   9196447, 9153573, 9111293, 9069594, 9028461, 8987884, 8947849, 8908343, 8869357, 8830878, 8792896,
   8755399, 8718378, 8681823, 8645724, 8610071, 8574856, 8540070, 8505703, 8471748, 8438196, 8405040]

/-- C1 to C4 of R231: RNE(ln2^*k* / *k*! × 2^56). -/
def expC : List Int :=
  [49946518145322874, 17310144115608349, 3999492529606752, 693059242641871]

/-- C_L = RNE(log₂e × 2^62) (R231). -/
def constL : Int := 6653256548922161246

/-- C_LN2 = RNE(ln 2 × 2^56) (R232). -/
def constLn2 : Int := 49946518145322874

end Sys2Proof.Float
end

