-- ==== Sys2Proof/Machine/Float.lean ====
section
/-! DEFINITION. Number formats and FP32 arithmetic, exact in integers and rounded once (R208 to R212, R223, R230 to
R236). An FP32 value is its 32 bits as a number. -/
namespace Sys2Proof.Float
open Sys2Proof Sys2Proof.Bits

/-- The canonical NaN of FP32 (R208). -/
def nan32 : Nat := 0x7FC00000

/-- FP32 infinity of a sign. -/
def inf32 (neg : Bool) : Nat := if neg then 0xFF800000 else 0x7F800000

/-- FP32 zero of a sign. -/
def zero32 (neg : Bool) : Nat := if neg then 0x80000000 else 0

/-- What an encoded value stands for: a finite value is ±`m` × 2^`e`. -/
inductive Val where
  | nan
  | inf (neg : Bool)
  | fin (neg : Bool) (m : Nat) (e : Int)
  deriving DecidableEq, Repr

/-- A float format: precision with its hidden bit, the weight of the lowest subnormal bit, the code of the largest
finite value, and the codes of infinity and NaN (R208). -/
structure Fmt where
  prec : Nat
  emin : Int
  width : Nat
  maxCode : Nat
  inf : Option Nat
  nan : Option Nat
  deriving DecidableEq, Repr

/-- FP32. -/
def fp32 : Fmt := ⟨24, -149, 32, 0x7F7FFFFF, some 0x7F800000, some 0x7FC00000⟩

/-- BF16. -/
def bf16 : Fmt := ⟨8, -133, 16, 0x7F7F, some 0x7F80, some 0x7FC0⟩

/-- FP8 E4M3. -/
def e4m3 : Fmt := ⟨4, -9, 8, 0x7E, none, some 0x7F⟩

/-- FP8 E5M2. -/
def e5m2 : Fmt := ⟨3, -16, 8, 0x7B, some 0x7C, some 0x7E⟩

/-- FP4 E2M1. -/
def e2m1 : Fmt := ⟨2, -1, 4, 0x7, none, none⟩

/-- The value of a code (R208). -/
def Fmt.decode (f : Fmt) (c : Nat) : Val :=
  let neg := c.testBit (f.width - 1)
  let a := c % 2 ^ (f.width - 1)
  let ex := a >>> (f.prec - 1)
  let man := a % 2 ^ (f.prec - 1)
  if f.maxCode < a then (if some a = f.inf then .inf neg else .nan)
  else if ex = 0 then .fin neg man f.emin
  else .fin neg (man + 2 ^ (f.prec - 1)) (f.emin + ex - 1)

/-- How a magnitude is rounded: to nearest even, or stochastically with a draw (R236). -/
inductive Mode where
  | rne
  | sr (draw : Nat)
  deriving DecidableEq, Repr

/-- A magnitude `m` × 2^−`sh` rounded to an integer. -/
def roundShift (mode : Mode) (m sh : Nat) : Nat :=
  let q := m >>> sh
  let r := m % 2 ^ sh
  match mode with
  | .rne => if 2 ^ sh < 2 * r ∨ (2 * r = 2 ^ sh ∧ q % 2 = 1) then q + 1 else q
  | .sr d =>
    let first := if 32 ≤ sh then r >>> (sh - 32) else r <<< (32 - sh)
    if d < first then q + 1 else q

/-- A magnitude `m` × 2^`e` rounded to an integer (R211, R236). -/
def roundInt (mode : Mode) (m : Nat) (e : Int) : Nat :=
  if 0 ≤ e then m <<< e.toNat else roundShift mode m (-e).toNat

/-- The code of a finite magnitude rounded to a format, before any limit (R208, R236). -/
def Fmt.roundCode (f : Fmt) (mode : Mode) (m : Nat) (e : Int) : Nat :=
  if m = 0 then 0
  else
    let q := max f.emin (e + m.log2 - (f.prec - 1 : Nat))
    let k := if e < q then roundShift mode m (q - e).toNat else m <<< (e - q).toNat
    (q - f.emin).toNat * 2 ^ (f.prec - 1) + k

/-- A value as a code of a format: overflow gives the largest finite value when `sat` holds, and otherwise infinity, or
NaN where the format has none (R211). -/
def Fmt.encode (f : Fmt) (sat : Bool) (mode : Mode) (v : Val) : Nat :=
  let sgn (neg : Bool) : Nat := if neg then 2 ^ (f.width - 1) else 0
  match v with
  | .nan => f.nan.getD f.maxCode
  | .inf neg =>
    match f.inf with
    | some c => sgn neg + c
    | none => if sat then sgn neg + f.maxCode else f.nan.getD (sgn neg + f.maxCode)
  | .fin neg m e =>
    let c := f.roundCode mode m e
    if c ≤ f.maxCode then sgn neg + c
    else if sat then sgn neg + f.maxCode
    else match f.inf with
      | some i => sgn neg + i
      | none => f.nan.getD (sgn neg + f.maxCode)

/-- The value of an FP32 lane. -/
def dec (v : Nat) : Val := fp32.decode (v % 2 ^ 32)

/-- A value as FP32, rounded to nearest even (R210). -/
def enc (v : Val) : Nat := fp32.encode false .rne v

/-- An exact signed number `n` × 2^`e` as FP32; `negZero` is the sign of an exact zero. -/
def ofInt (n : Int) (e : Int) (negZero : Bool) : Nat :=
  if n = 0 then zero32 negZero else enc (.fin (decide (n < 0)) n.natAbs e)

/-- Whether an FP32 lane is NaN. -/
def isNan (v : Nat) : Bool := decide (dec v = .nan)

/-- Whether an FP32 lane is an infinity. -/
def isInf (v : Nat) : Bool := v % 2 ^ 31 == 0x7F800000

/-- The signed significand of a finite value. -/
def sig (neg : Bool) (m : Nat) : Int := if neg then -(m : Int) else m

/-- Two exact numbers brought to one exponent and added. -/
def addExact (a : Int) (ea : Int) (b : Int) (eb : Int) : Int × Int :=
  let e := min ea eb
  (a * 2 ^ (ea - e).toNat + b * 2 ^ (eb - e).toNat, e)

/-- A × B + C with one rounding (R225); a zero result takes its sign under IEEE 754. -/
def ffma (a b c : Nat) : Nat :=
  match dec a, dec b, dec c with
  | .nan, _, _ => nan32
  | _, .nan, _ => nan32
  | _, _, .nan => nan32
  | .inf n, .inf m, .inf k => if (n != m) = k then inf32 k else nan32
  | .inf n, .inf m, .fin .. => inf32 (n != m)
  | .inf n, .fin m x _, c' =>
    if x = 0 then nan32 else match c' with
      | .inf k => if (n != m) = k then inf32 k else nan32
      | _ => inf32 (n != m)
  | .fin n x _, .inf m, c' =>
    if x = 0 then nan32 else match c' with
      | .inf k => if (n != m) = k then inf32 k else nan32
      | _ => inf32 (n != m)
  | .fin .., .fin .., .inf k => inf32 k
  | .fin n x ex, .fin m y ey, .fin k z ez =>
    let p := sig (n != m) (x * y)
    let t := addExact p (ex + ey) (sig k z) ez
    ofInt t.1 t.2 (decide (x * y = 0 ∧ z = 0) && (n != m) && k)

/-- A + B (R225). -/
def fadd (a b : Nat) : Nat := ffma a 0x3F800000 b

/-- A − B. -/
def fsub (a b : Nat) : Nat := if isNan b then nan32 else fadd a (b ^^^ 0x80000000)

/-- A × B (R225); the sign of a zero product is that of the product. -/
def fmul (a b : Nat) : Nat :=
  match dec a, dec b with
  | .nan, _ => nan32
  | _, .nan => nan32
  | .inf n, .inf m => inf32 (n != m)
  | .inf n, .fin m x _ => if x = 0 then nan32 else inf32 (n != m)
  | .fin n x _, .inf m => if x = 0 then nan32 else inf32 (n != m)
  | .fin n x ex, .fin m y ey => enc (.fin (n != m) (x * y) (ex + ey))

/-- The order of FP32 values, −0 below +0. -/
def key (v : Nat) : Int := if v < 2 ^ 31 then v else -((v : Int) - 2 ^ 31) - 1

/-- The larger; NaN where either is NaN (R225). -/
def fmax (a b : Nat) : Nat := if isNan a || isNan b then nan32 else if key a < key b then b else a

/-- The smaller; NaN where either is NaN (R225). -/
def fmin (a b : Nat) : Nat := if isNan a || isNan b then nan32 else if key b < key a then b else a

/-- A < B; false with a NaN (R225). -/
def flt (a b : Nat) : Bool :=
  !isNan a && !isNan b && !(a % 2 ^ 31 == 0 && b % 2 ^ 31 == 0) && decide (key a < key b)

/-- INT32 to FP32 (R225). -/
def itof (a : Nat) : Nat := ofInt (signed 32 a) 0 false

/-- A signed number clamped to `w` bits, and whether it was. -/
def clampInt (w : Nat) (i : Int) : Int × Bool :=
  if i < -(2 ^ (w - 1) : Nat) then (-(2 ^ (w - 1) : Nat), true)
  else if ((2 ^ (w - 1) - 1 : Nat) : Int) < i then (((2 ^ (w - 1) - 1 : Nat) : Int), true)
  else (i, false)

/-- An FP32 lane as a `w`-bit integer (R211): the integer, whether NaN was met, whether it saturated. -/
def toInt (w : Nat) (mode : Mode) (v : Nat) : Int × Bool × Bool :=
  match dec v with
  | .nan => (0, true, false)
  | .inf neg => ((clampInt w (if neg then -(2 ^ 200 : Nat) else (2 ^ 200 : Nat))).1, false, true)
  | .fin neg m e => let r := clampInt w (sig neg (roundInt mode m e)); (r.1, false, r.2)

/-! ### Transcendental functions -/

/-- An arithmetic shift to the right, toward −infinity (R230). -/
def asr (v : Int) (n : Nat) : Int := v / 2 ^ n

/-- The floor of `n` × 2^`e`. -/
def floorScale (n : Int) (e : Int) : Int := if 0 ≤ e then n * 2 ^ e.toNat else asr n (-e).toNat

/-- The common part of EXP and EXP2 from *X* (R231). -/
def expCore (x : Int) : Nat :=
  let n := asr x 56
  let f := x - n * 2 ^ 56
  let i := asr f 50
  let rho := f - i * 2 ^ 50
  let c (k : Nat) : Int := expC.getD (k - 1) 0
  let q := c 3 + asr (c 4 * rho) 56
  let q := c 2 + asr (q * rho) 56
  let q := c 1 + asr (q * rho) 56
  let q := 2 ^ 56 + asr (q * rho) 56
  let y := asr (tableE.getD i.toNat 0 * q) 56
  ofInt y (n - 56) false

/-- EXP2 (R231). -/
def exp2 (v : Nat) : Nat :=
  match dec v with
  | .nan => nan32
  | .inf neg => if neg then 0 else inf32 false
  | .fin neg m e =>
    if !neg && decide (0x43000000 ≤ v % 2 ^ 31) then inf32 false
    else if neg && decide (0x43160000 ≤ v % 2 ^ 31) then 0
    else expCore (floorScale (sig neg m) (e + 56))

/-- EXP (R231). -/
def exp (v : Nat) : Nat :=
  match dec v with
  | .nan => nan32
  | .inf neg => if neg then 0 else inf32 false
  | .fin neg m e =>
    if !neg && decide (0x42B20000 ≤ v % 2 ^ 31) then inf32 false
    else if neg && decide (0x42D00000 ≤ v % 2 ^ 31) then 0
    else expCore (floorScale (sig neg m * constL) (e - 6))

/-- *M* and *e* of a finite non-zero value: ±2^*e* × *M* × 2^−23 with *M* from 2^23 to 2^24 − 1 (R230). -/
def normal (m : Nat) (e : Int) : Nat × Int := (m <<< (23 - m.log2), e + m.log2)

/-- The quotient of naturals as the nearest integer, ties to even: RNE(*a* ÷ *b*). -/
def rneDiv (a b : Nat) : Nat :=
  let q := a / b
  let r := a % b
  if b < 2 * r ∨ (2 * r = b ∧ q % 2 = 1) then q + 1 else q

/-- P(*U*) of R232. -/
def logPoly (u : Int) : Int :=
  let d (k : Nat) : Int := if k % 2 = 1 then (rneDiv (2 ^ 56) k : Int) else -(rneDiv (2 ^ 56) k : Int)
  let q := d 4 + asr (d 5 * u) 56
  let q := d 3 + asr (q * u) 56
  let q := d 2 + asr (q * u) 56
  let q := d 1 + asr (q * u) 56
  asr (q * u) 56

/-- LOG (R232). -/
def log (v : Nat) : Nat :=
  match dec v with
  | .nan => nan32
  | .inf neg => if neg then nan32 else inf32 false
  | .fin neg m e =>
    if m = 0 then inf32 true
    else if neg then nan32
    else
      let x := v % 2 ^ 32
      if decide (0x3F7E0000 ≤ x) && decide (x ≤ 0x3F810000) then
        let y := logPoly (floorScale (m : Int) (e + 56) - 2 ^ 56)
        ofInt y (-56) false
      else
        let n := normal m e
        let i := n.1 / 2 ^ 17 - 64
        let u := ((n.1 * rneDiv (2 ^ 31) (129 + 2 * i) : Nat) - 2 ^ 47 : Int) * 2 ^ 9
        ofInt (n.2 * constLn2 + tableL.getD i 0 + logPoly u) (-56) false

/-- RCP (R233). -/
def rcp (v : Nat) : Nat :=
  match dec v with
  | .nan => nan32
  | .inf neg => zero32 neg
  | .fin neg m e =>
    if m = 0 then inf32 neg
    else
      let n := normal m e
      let i := n.1 / 2 ^ 16 - 128
      let t := rneDiv (2 ^ 32) (257 + 2 * i)
      let u := ((n.1 * t : Nat) - 2 ^ 47 : Int) * 2 ^ 9
      let q : Int := -2 ^ 56 + asr (2 ^ 56 * u) 56
      let q := 2 ^ 56 + asr (q * u) 56
      let q := -2 ^ 56 + asr (q * u) 56
      let q := 2 ^ 56 + asr (q * u) 56
      let y := asr (t * q) 24
      enc (.fin neg y.natAbs (-56 - n.2))

/-- RSQRT (R234). -/
def rsqrt (v : Nat) : Nat :=
  match dec v with
  | .nan => nan32
  | .inf neg => if neg then nan32 else 0
  | .fin neg m e =>
    if m = 0 then inf32 neg
    else if neg then nan32
    else
      let n := normal m e
      let odd := n.2 % 2 = 1
      let m' := if odd then 2 * n.1 else n.1
      let e' := if odd then n.2 - 1 else n.2
      let j := n.1 / 2 ^ 17 - 64
      let t : Int := (if odd then tableQ1 else tableQ0).getD j 0
      let u := asr (m' * t * t - 2 ^ 71) 15
      let q : Int := -5 * 2 ^ 52 + asr (35 * 2 ^ 49 * u) 56
      let q := 3 * 2 ^ 53 + asr (q * u) 56
      let q := -2 ^ 55 + asr (q * u) 56
      let q := 2 ^ 56 + asr (q * u) 56
      let y := asr (t * q) 24
      ofInt y (-56 - e' / 2) false

/-! ### The rounding stream -/

/-- MIX64 (R235). -/
def mix64 (z : Nat) : Nat :=
  let z := ((z ^^^ (z >>> 30)) * 0xBF58476D1CE4E5B9) % 2 ^ 64
  let z := ((z ^^^ (z >>> 27)) * 0x94D049BB133111EB) % 2 ^ 64
  z ^^^ (z >>> 31)

/-- The draw D of an element (R235). -/
def draw (seed step tensor elem : Nat) : Nat :=
  let k := mix64 (seed ^^^ (step % 2 ^ 32 * 2 ^ 32 + tensor % 2 ^ 32))
  mix64 (k ^^^ mix64 ((elem + 0x9E3779B97F4A7C15) % 2 ^ 64)) >>> 32

/-! ### Storage formats by code -/

/-- Bits of an element of a format code (R208). -/
def elemBits : Nat → Nat
  | 0x0 => 32 | 0x1 => 16 | 0x6 => 4 | 0x8 => 4 | 0x9 => 16 | 0xA => 32 | _ => 8

/-- Whether a format code is an MX format. -/
def isMx (f : Nat) : Bool := f == 4 || f == 5 || f == 6

/-- The float format that a code's elements use. -/
def floatOf : Nat → Option Fmt
  | 0 => some fp32 | 1 => some bf16 | 2 => some e4m3 | 3 => some e5m2 | 4 => some e4m3 | 5 => some e5m2 | 6 => some e2m1
  | _ => none

/-- Bits of an integer format code. -/
def intBits : Nat → Option Nat
  | 7 => some 8 | 8 => some 4 | 9 => some 16 | 0xA => some 32 | _ => none

/-- A stored element as a 32-bit lane (R223). -/
def loadLane (f c : Nat) : Nat :=
  match intBits f with
  | some w => unsign 32 (signed w c)
  | none =>
    if f = 0 then c % 2 ^ 32
    else if f = 0xB then (if c = 0xFF then nan32 else enc (.fin false 1 ((c : Int) - 127)))
    else match floatOf f with
      | some g => enc (g.decode c)
      | none => 0

end Sys2Proof.Float
end

