-- ==== Sys2Proof/Machine/Tally.lean ====
section
/-! DEFINITION. The tally: conversion, exact addition, the one final rounding, and the packing of slices
(R306 to R313, R322 to R324). -/
namespace Sys2Proof.Machine
open Sys2Proof Sys2Proof.Bits

/-- The exponent byte of an FP32 value; 0 for NaN and infinity (R307). -/
def expByte (v : Nat) : Nat := if fld v 30 23 = 255 then 0 else fld v 30 23

/-- An FP32 element as a tally on the grid of agreed byte *B*; none where its exponent byte exceeds *B* (R309). -/
def Tally.ofFloat (v b : Nat) : Option Tally :=
  match Float.dec v with
  | .nan => some .nan
  | .inf neg => some (if neg then .ninf else .pinf)
  | .fin neg m e =>
    if b < expByte v then none else some (.fin (Float.sig neg (Float.roundInt .rne m (e + 230 - b))))

/-- The sum of two tallies (R310). -/
def Tally.add : Tally → Tally → Tally
  | .nan, _ => .nan
  | _, .nan => .nan
  | .pinf, .ninf => .nan
  | .ninf, .pinf => .nan
  | .pinf, _ => .pinf
  | _, .pinf => .pinf
  | .ninf, _ => .ninf
  | _, .ninf => .ninf
  | .fin a, .fin b => if -(2 ^ 126 : Int) ≤ a + b ∧ a + b < 2 ^ 126 then .fin (a + b) else .nan

/-- A tally as 128 bits (R308). -/
def Tally.bits : Tally → Nat
  | .nan => 2 ^ 127 | .pinf => 2 ^ 127 + 1 | .ninf => 2 ^ 127 + 2
  | .fin t => unsign 128 t

/-- The tally that 128 bits hold (R308). -/
def Tally.ofBits (v : Nat) : Tally :=
  if v = 2 ^ 127 then .nan else if v = 2 ^ 127 + 1 then .pinf else if v = 2 ^ 127 + 2 then .ninf else .fin (signed 128 v)

/-- The final rounding of a tally to a format code; *B* of 255 is the integer grid. Answers the code, the NaN flag and the
saturation flag (R311). -/
def Tally.round (t : Tally) (b fmt : Nat) (sat : Bool) (mode : Float.Mode) : Nat × Bool × Bool :=
  let v : Float.Val :=
    match t with
    | .nan => .nan | .pinf => .inf false | .ninf => .inf true
    | .fin s => if s = 0 then .fin false 0 0 else .fin (decide (s < 0)) s.natAbs (if b = 255 then 0 else (b : Int) - 230)
  match Float.intBits fmt, Float.floatOf fmt with
  | some w, _ =>
    match v with
    | .nan => (0, true, false)
    | .inf neg => (unsign w ((Float.clampInt w (if neg then -(2 ^ 200) else 2 ^ 200)).1), false, true)
    | .fin neg m e => let r := Float.clampInt w (Float.sig neg (Float.roundInt mode m e)); (unsign w r.1, false, r.2)
  | none, some g => (g.encode sat mode v, decide (t = .nan), false)
  | none, none => (0, false, false)

/-- Two 32-bit values combined by a kind from 3 to 9 (R306). -/
def combineValue (kind a b : Nat) : Nat :=
  match kind with
  | 3 => Float.fmax a b
  | 4 => Float.fmin a b
  | 5 => if signed 32 a < signed 32 b then b else a
  | 6 => if signed 32 b < signed 32 a then b else a
  | 7 => a &&& b
  | 8 => a ||| b
  | _ => a ^^^ b

/-- Two elements of a slice combined. -/
def Tally.combine (kind : Nat) (a b : Tally) : Tally :=
  if kind ≤ 2 then a.add b
  else match a, b with
    | .fin x, .fin y => .fin (combineValue kind x.toNat y.toNat)
    | _, _ => .nan

/-- ρ of R324. -/
def Tally.residue : Tally → Nat
  | .fin t => (t % (2 ^ 64 - 1 : Nat)).toNat
  | _ => 0

/-- `SLICE_CHECK` over the elements of a slice, kinds 1 and 2 (R324). -/
def sliceCheck (elems : List Tally) : Nat :=
  (elems.foldl (fun (r : Nat × Nat) t => (r.1 + 1, (r.2 + r.1 * t.residue) % (2 ^ 64 - 1))) (1, 0)).2

/-- The number of trailing zero bits of a positive number, at most 127. -/
def trailingZeros (n : Nat) : Nat := ((List.range 127).takeWhile fun i => !n.testBit i).length

/-- The finite part of a tally; 0 for a special one. -/
def Tally.word : Tally → Int
  | .fin t => t
  | _ => 0

/-- Whether a number fits in `w` bits of two's complement. -/
def fitsIn (w : Nat) (t : Int) : Bool := decide (-(2 ^ (w - 1) : Nat) ≤ t ∧ t < (2 ^ (w - 1) : Nat))

/-- A 32-bit mask of the elements that a test accepts. -/
def elemMask (l : List Tally) (p : Tally → Bool) : Nat := maskOf ((List.range l.length).filter fun i => (l[i]?).any p)

/-- A block record (R322, R323). -/
def Block.bytes (b : Block) (kind : Nat) : List Byte :=
  let l := b.elems
  let ws := l.map Tally.word
  let zero := ws.all (· == 0)
  let special := l.any fun t => match t with | .fin _ => false | _ => true
  let shift := if zero ∨ 3 ≤ kind then 0 else (ws.filter (· != 0)).foldl (fun m t => min m (trailingZeros t.natAbs)) 127
  let shifted := ws.map fun t => t / 2 ^ shift
  let width := if 3 ≤ kind then 3 else if shifted.all (fitsIn 48) then 0 else if shifted.all (fitsIn 64) then 1 else 2
  let bits := match width with | 0 => 48 | 1 => 64 | 2 => 128 | _ => 32
  let head := width + 4 * ofBool zero + 8 * ofBool special + 16 * ofBool b.poison + 2 ^ 8 * shift + 2 ^ 16 * b.b
  let masks := if special then
      leBytes 4 (elemMask l (· == .nan)) ++ leBytes 4 (elemMask l (· == .pinf)) ++ leBytes 4 (elemMask l (· == .ninf)) ++
        leBytes 4 0
    else []
  let words := if zero then [] else
      (shifted ++ List.replicate (32 - shifted.length) 0).flatMap fun t => leBytes (bits / 8) (unsign bits t)
  leBytes 8 head ++ masks ++ words

/-- A block record read: the block and its length in bytes; `n` elements are present. -/
def Block.parse (n kind : Nat) (bs : List Byte) : Block × Nat :=
  let h := le 0 8 bs
  let zero := bit h 2
  let special := bit h 3
  let bits := match fld h 1 0 with | 0 => 48 | 1 => 64 | 2 => 128 | _ => 32
  let m0 := if special then 16 else 0
  let mask (i : Nat) : Nat := if special then le (8 + 4 * i) 4 bs else 0
  let word (k : Nat) : Int :=
    if zero then 0
    else
      let raw := le (8 + m0 + k * (bits / 8)) (bits / 8) bs
      (if 3 ≤ kind then (raw : Int) else signed bits raw) * 2 ^ fld h 15 8
  let elem (k : Nat) : Tally :=
    if bit (mask 0) k || (bit (mask 1) k && bit (mask 2) k) then .nan
    else if bit (mask 1) k then .pinf else if bit (mask 2) k then .ninf else .fin (word k)
  ({ b := fld h 23 16, poison := bit h 4, elems := (List.range n).map elem },
    8 + m0 + (if zero then 0 else 32 * (bits / 8)))

/-- A slice's payload without its tag block (R322). -/
def sliceBytes (contrib elems kind check : Nat) (blocks : List Block) : List Byte :=
  leBytes 4 contrib ++ leBytes 1 (elems - 1) ++ leBytes 1 kind ++ leBytes 2 0 ++ leBytes 8 check ++
    blocks.flatMap fun b => b.bytes kind

/-- The blocks of a slice's payload. -/
def parseBlocks (kind elems : Nat) (bs : List Byte) : List Block := go (ceilDiv elems 32) elems (bs.drop 16)
where
  /-- Blocks of the rest, `fuel` of them. -/
  go : Nat → Nat → List Byte → List Block
    | 0, _, _ => []
    | f + 1, n, b => let r := Block.parse (min n 32) kind b; r.1 :: go f (n - 32) (b.drop r.2)

/-- Two slices of one index added; none where their agreed bytes differ (R323). -/
def addBlocks (kind : Nat) (a b : List Block) : Option (List Block) :=
  if (a.zip b).all (fun p => p.1.b == p.2.b) then
    some ((a.zip b).map fun p =>
      { p.1 with poison := p.1.poison || p.2.poison, elems := (p.1.elems.zip p.2.elems).map fun q => q.1.combine kind q.2 })
  else none

/-- The elements of blocks in order. -/
def blockElems (l : List Block) : List Tally := l.flatMap (·.elems)

end Sys2Proof.Machine
end

