-- ==== Sys2Proof/Machine/Far.lean ====
section
/-! DEFINITION. Far line caches and the directory: lookups, grants, fills, evictions and write-backs (R258 to R266). -/
namespace Sys2Proof.Machine
open Sys2Proof Sys2Proof.Bits

/-- The directory bank of a line (R263). -/
def LineName.bank (n : LineName) : Nat := (n.line % 8) ^^^ (n.chip % 8)

/-- The set of a line in each far line cache. -/
def LineName.set (n : LineName) : Nat := Config.farSet n.job n.chip n.line % 512

/-- The set of a line in its directory bank. -/
def LineName.dirSet (n : LineName) : Nat := Config.dirSet n.job n.chip n.line % 4096

/-- The runs of bits set in a 64-bit mask: first bit and length of each (R261). -/
def dirtyRuns (mask : Nat) : List (Nat × Nat) :=
  (List.range 64).filterMap fun i =>
    if mask.testBit i && (i == 0 || !mask.testBit (i - 1)) then
      some (i, ((List.range (64 - i)).takeWhile fun k => mask.testBit (i + k)).length)
    else none

/-- The line of a core with a name. -/
def State.farLine? (s : State) (core : Nat) (n : LineName) : Option FarLine :=
  s.far.lines.find? fun l => l.core == core && l.name == n

/-- A line of a core replaced and made the most recently used; inserted where it was absent. -/
def FarState.put (f : FarState) (l : FarLine) : FarState :=
  { f with lines := f.lines.filter (fun x => !(x.core == l.core && x.name == l.name)) ++ [l] }

/-- A line of a core removed. -/
def FarState.drop (f : FarState) (core : Nat) (n : LineName) : FarState :=
  { f with lines := f.lines.filter fun x => !(x.core == core && x.name == n) }

/-- The number of the next write-back. -/
def FarState.nextWb (f : FarState) : Nat := (f.wbs.map (·.id)).foldl max 0 + 1

/-- One STORE of a run of dirty bytes waits for a tracker entry; the bank's buffer holds the line (R261, R264). -/
def State.writeBackRun (s : State) (ctx : Nat) (l : FarLine) (run : Nat × Nat) : State :=
  let id := s.far.nextWb
  let wb : FarWb := { id := id, core := l.core, ctx := ctx, name := l.name, data := l.data, poison := l.poison,
                      first := run.1, len := run.2, ended := none }
  let pkt : Packet := { s.dataPkt .store l.name.job l.name.chip with
    destOffset := 64 * l.name.line + run.1, payload := slice run.1 run.2 l.data }
  let plan : TxnPlan := {
    ctx := ctx, part := s.partOfCore l.core, dest := l.name.chip, kind := .push, owner := .farWb l.core id, ord := 0,
    space := .spad, tag := none, items := [{ seq := 0, addr := 0, len := 0, reads := false, pkt := pkt }], cas := none }
  ((s.onFar fun f => { f with wbs := f.wbs ++ [wb] }).bumpAt Reg.FAR_WRITEBACKS l.core).onRmt fun r =>
    { r with plans := r.plans ++ [plan] }

/-- The context whose line it is: the one bound to the line's job. -/
def State.ctxOfLine (s : State) (n : LineName) : Nat := (s.ctxOfJob? n.job).getD 0

/-- A line's dirty bytes written back; the line stays, clean (R261). -/
def State.writeBack (s : State) (l : FarLine) : State :=
  if l.dirty = 0 then s
  else
    let s1 := (dirtyRuns l.dirty).foldl (fun s run => s.writeBackRun (s.ctxOfLine l.name) l run) s
    let clean (x : FarLine) : FarLine := { x with dirty := 0 }
    s1.onFar fun f => { f with lines := updFirst (fun x => x.core == l.core && x.name == l.name) clean f.lines }

/-- A line written back and invalidated. -/
def State.evict (s : State) (l : FarLine) : State := (s.writeBack l).onFar fun f => f.drop l.core l.name

/-- Every dirty line of a core written back (R247). -/
def State.flushFar (s : State) (core : Nat) : State :=
  (s.far.lines.filter fun l => l.core == core).foldl State.writeBack s

/-- Whether a core's write-backs all have their COMPLETION. -/
def State.farQuiet (s : State) (core : Nat) : Bool := !s.far.wbs.any fun w => w.core == core

/-- A line put into a core's cache; the least recently used line of a full set leaves first (R258). -/
def State.installLine (s : State) (l : FarLine) : State :=
  let others := s.far.lines.filter fun x => x.core == l.core && x.name.set == l.name.set && x.name != l.name
  let s1 := if 8 ≤ others.length then (match others.head? with | some v => s.evict v | none => s) else s
  s1.onFar fun f => f.put l

/-- The directory makes room for a line in its set: the least recently used line of a full set is recalled from every
cache that holds it (R263). -/
def State.dirRoom (s : State) (n : LineName) : State :=
  let mates := ((s.far.lines.map (·.name)).filter fun x => x.bank == n.bank && x.dirSet == n.dirSet && x != n)
  let names := mates.reverse.eraseDups
  if 16 ≤ names.length then
    match names.getLast? with
    | some v => (s.far.lines.filter fun l => l.name == v).foldl State.evict (s.bump Reg.DIR_RECALLS)
    | none => s
  else s

/-- A request of a core at the directory, unless it waits there or its fill is on its way, or its epoch is not yet
resynchronised (R259, R260, R457). -/
def State.askLine (s : State) (core ctx : Nat) (n : LineName) (own : Bool) : State :=
  let waits := s.far.reqs.any (fun r => r.core == core && r.name == n && r.own == own) ||
    s.far.fills.any (fun x => x.core == core && x.name == n)
  if waits || Table.get s.flt.unsynced 256 core != 256 then s else s.onFar fun f => { f with reqs := f.reqs ++ [{ core := core, ctx := ctx, name := n, own := own }] }

/-- A remote fill of a line: one LOAD_REQ of 64 bytes (R259). -/
def State.startFill (s : State) (r : DirReq) : State :=
  let pkt : Packet := { s.ctlPkt .loadReq r.name.job r.name.chip with payload := loadReqBody (64 * r.name.line) 64 }
  let plan : TxnPlan := {
    ctx := r.ctx, part := s.partOfCore r.core, dest := r.name.chip, kind := .far, owner := .farFill r.core, ord := 0,
    space := .spad, tag := none, items := [{ seq := 0, addr := 0, len := 0, reads := false, pkt := pkt }], cas := none }
  let fill : FarFill := { core := r.core, ctx := r.ctx, name := r.name, own := r.own, data := none, failed := none }
  (s.onFar fun f => { f with fills := f.fills ++ [fill] }).onRmt fun m => { m with plans := m.plans ++ [plan] }

/-- A line granted with its bytes. -/
def State.grantLine (s : State) (r : DirReq) (data : List Byte) (dirty : Nat) (poison : Bool) : State :=
  s.installLine { core := r.core, name := r.name, owned := r.own, data := data, dirty := dirty, poison := poison, fresh := true }

/-- The grant of a line to one requester: from another cache, from the write-back buffer, or by a fill (R259, R260,
R264). -/
def State.grantReq (s : State) (r : DirReq) : State :=
  let holders := s.far.lines.filter fun l => l.name == r.name
  let others := holders.filter fun l => l.core != r.core
  let owner := others.find? (·.owned)
  let mine := holders.find? fun l => l.core == r.core
  if r.own then
    let source := owner.orElse fun _ => mine.orElse fun _ => others.head?
    let s1 := s.onFar fun f => { f with lines := f.lines.filter fun l => !(l.name == r.name && l.core != r.core) }
    match source with
    | some l => s1.grantLine r l.data l.dirty l.poison
    | none =>
      match (s.far.wbs.filter fun w => w.name == r.name).getLast? with
      | some w => s1.grantLine r w.data 0 w.poison
      | none => s1.startFill r
  else
    let s1 := match owner with | some l => s.evict l | none => s
    match owner.orElse fun _ => others.head? with
    | some l => s1.grantLine r l.data 0 l.poison
    | none =>
      match (s.far.wbs.filter fun w => w.name == r.name).getLast? with
      | some w => s1.grantLine r w.data 0 w.poison
      | none => s1.startFill r

/-- Whether a line may not be recalled yet: a fill of it is on its way, or a core that was just granted it has not
performed its access (R265). -/
def State.lineHeld (s : State) (n : LineName) : Bool :=
  s.far.fills.any (fun x => x.name == n) || s.far.lines.any (fun l => l.name == n && l.fresh)

/-- The dictionary key of `DIR_PRIORITY` of a bank (R264). -/
def dirKey (bank : Nat) : Nat := Reg.DIR_PRIORITY0 + bank

/-- DIRECTORY_GRANT: a bank serves the line of its oldest request whose line may move: the first requesting core at or
after the priority pointer, which moves past it (R264). -/
def State.dirGrant (s : State) (bank : Nat) : State :=
  match s.far.reqs.find? (fun r => r.name.bank == bank && !s.lineHeld r.name) with
  | none => s
  | some first =>
    let ptr := s.reg (dirKey bank)
    let order := (List.range 64).map fun k => (ptr + k) % 64
    let pick? := order.findSome? fun c => s.far.reqs.find? fun r => r.name == first.name && r.core == c
    match pick? with
    | none => s
    | some r =>
      let s1 := s.onFar fun f => { f with reqs := dropFirst (· == r) f.reqs }
      ((s1.setReg (dirKey bank) ((r.core + 1) % 64)).dirRoom r.name).grantReq r

/-- FAR_FILL_COMPLETE: a fill that has ended installs its line, or ends the task with FAR_FAILED (R259). -/
def State.fillComplete (s : State) (core : Nat) : State :=
  match s.far.fills.find? (fun x => x.core == core && (x.data.isSome || x.failed.isSome)) with
  | none => s
  | some x =>
    let s1 := s.onFar fun f => { f with fills := dropFirst (· == x) f.fills }
    let failed := match x.failed with | some code => code != 0 | none => false
    if failed then s1.taskError core 0x53
    else match x.data with
      | some d => s1.installLine { core := core, name := x.name, owned := x.own, data := d.1, dirty := 0, poison := d.2, fresh := true }
      | none => s1.taskError core 0x53

/-- FAR_WRITEBACK_COMPLETE: a write-back whose STORE has ended leaves the bank's buffer; a failed one raises
FAR_WRITEBACK_FAIL and ends a task that waits for it (R245, R261). -/
def State.wbComplete (s : State) (index : Nat) : State :=
  match s.far.wbs[index]? with
  | none => s
  | some w =>
    match w.ended with
    | none => s
    | some code =>
      let s1 := s.onFar fun f => { f with wbs := f.wbs.eraseIdx index }
      if code = 0 then s1
      else
        let s2 := s1.raise .farWritebackFail (.core w.core) w.ctx (64 * w.name.line + w.first + 2 ^ 48 * w.name.chip)
        if (s2.core w.core).stall = .release ∨ (s2.core w.core).stall = .maint then s2.taskError w.core 0x53 else s2

/-- The far lines of a context leave without write-back (R266). -/
def State.dropFarOf (s : State) (c job : Nat) : State :=
  let mine := s.far.lines.filter fun l => l.name.job == job
  let cores := (mine.map (·.core)).eraseDups
  let s1 := s.onFar fun f =>
    { lines := f.lines.filter (fun l => l.name.job != job), reqs := f.reqs.filter (fun r => r.ctx != c),
      fills := f.fills.filter (fun x => x.ctx != c), wbs := f.wbs.filter (fun w => w.ctx != c) }
  cores.foldl (fun s n =>
    let own := mine.filter fun l => l.core == n
    let s2 := s.bumpBy (unitKey Reg.FAR_DISCARDED n) 32 own.length
    if own.any (fun l => l.dirty != 0) then s2.raise .farDirtyLost (.core n) c own.length else s2) s1

end Sys2Proof.Machine
end

