-- ==== Sys2Proof/Machine/Target.lean ====
section
/-! DEFINITION. The target's side of the transaction layer: landing slots, the completion cache, the memory effects of
arriving requests, parking, and their answers (R154 to R171, R251 to R255). -/
namespace Sys2Proof.Machine
open Sys2Proof Sys2Proof.Bits

/-! ### Atomic operations -/

/-- How an atomic step ended (R148). -/
inductive AtomicEnd where
  /-- The old value; the new one is written where the operation writes. -/
  | old (v : Nat)
  /-- The old value was poisoned, and nothing was written. -/
  | poison
  /-- The write of the new value failed. -/
  | writeFailed
  deriving DecidableEq, Repr

/-- The value that an atomic of `w` bits writes, none where it writes nothing (R148). -/
def atomicNew (code w old operand cmp : Nat) : Option Nat :=
  let a := operand % 2 ^ w
  match code with
  | 0 => some ((old + a) % 2 ^ w)
  | 1 => some a
  | 2 => if old = cmp % 2 ^ w then some a else none
  | 3 => some (if signed w old ≤ signed w a then old else a)
  | 4 => some (if signed w a ≤ signed w old then old else a)
  | 5 => some (min old a)
  | 6 => some (max old a)
  | 7 => some (old &&& a)
  | 8 => some (old ||| a)
  | _ => some (old ^^^ a)

/-- One atomic at a local offset, as one step. Where the write of the new value fails, the word holds the old value or
the new one, as a free choice has it (R148). -/
def State.atomicAt (s : State) (off code bytes operand cmp : Nat) : AtomicEnd × State :=
  let r := s.memLe off bytes
  if r.1.2 then (.poison, r.2)
  else
    match atomicNew code (8 * bytes) r.1.1 operand cmp with
    | none => (.old r.1.1, r.2)
    | some v =>
      let w := r.2.memWrite off (clean (leBytes bytes v))
      if w.1 = .ok then (.old r.1.1, w.2)
      else
        let d := w.2.drawNat
        let left := if d.1 % 2 = 0 then r.1.1 else v
        (.writeFailed, { d.2 with mem := storeBytes d.2.mem off (leBytes bytes left) })

/-! ### Landing slots and the completion cache -/

/-- Landing slots in use: one for each request packet that is parked, and one for each lone part of a CAS (R162). -/
def State.slotsInUse (s : State) : Nat :=
  (s.rmt.parked.map (fun x => (x.pkt, x.cmp))).eraseDups.foldl (fun n x => n + 1 + ofBool x.2.isSome) s.rmt.casParts.length

/-- Slots granted to all sources and not yet used. -/
def State.slotsGranted (s : State) : Nat := (s.rmt.granted.map (·.2)).sum

/-- Free landing slots (R163). -/
def State.slotsFree (s : State) : Nat := 65536 - s.slotsInUse - s.slotsGranted

/-- Completion-cache entries free, a granted slot's entry being held in reserve (R167). -/
def State.cacheFree (s : State) : Nat := 131072 - s.rmt.cache.length - s.slotsGranted

/-- The cache entry of a request (R167). -/
def State.cached? (s : State) (p : Packet) (q : Nat) : Option CacheEntry :=
  s.rmt.cache.find? fun e => e.src == p.src && e.tag == p.tag && e.gen == p.gen && e.seq == q

/-- A cache entry's result set, the entry inserted where there is none. -/
def State.setCache (s : State) (p : Packet) (q : Nat) (x : CacheResult) : State :=
  let same (e : CacheEntry) : Bool := e.src == p.src && e.tag == p.tag && e.gen == p.gen && e.seq == q
  let fresh : CacheEntry := { src := p.src, tag := p.tag, gen := p.gen, seq := q, job := p.job, result := x }
  let put (l : List CacheEntry) : List CacheEntry :=
    if l.any same then updFirst same (fun e => { e with result := x }) l else l ++ [fresh]
  s.onRmt fun r => { r with cache := put r.cache }

/-- A cache entry removed. -/
def State.dropCache (s : State) (p : Packet) (q : Nat) : State :=
  s.onRmt fun r => { r with cache := r.cache.filter fun e => !(e.src == p.src && e.tag == p.tag && e.gen == p.gen && e.seq == q) }

/-- A release: the entries of a transaction of a source are freed (R161, R167). -/
def State.releaseTag (s : State) (src gen tag : Nat) : State :=
  s.onRmt fun r => { r with cache := r.cache.filter fun e => !(e.src == src && e.tag == tag && e.gen == gen) }

/-- The release that a request packet carries; its own tag releases nothing (R154, R156, R161). -/
def State.takeRelease (s : State) (p : Packet) : State :=
  let tag? : Option Nat := match p.op with
    | .loadReq => some (le 10 2 p.payload)
    | .store | .copy | .gatherReq | .scatter | .attendReq => some p.opArg
    | _ => none
  match tag? with
  | some t => if t = p.tag then s else s.releaseTag p.src p.gen t
  | none => s

/-- A BUSY reply (R163). -/
def State.sendBusy (s : State) (p : Packet) : State := (s.bump Reg.RMT_BUSY_SENT).sendNeg p p.seq 0x10

/-- How an arriving request packet is admitted: on a granted slot, on a free one, or not (R163). -/
def State.admitSlot (s : State) (p : Packet) : Option Bool × State :=
  let g := Table.get s.rmt.granted 0 p.src
  if 0 < g then (some true, s.onRmt fun r => { r with granted := Table.put r.granted 0 p.src (g - 1) })
  else if 0 < s.slotsFree then (some false, s)
  else (none, s.sendBusy p)

/-! ### Completions -/

/-- One COMPLETION for the `SEQ` values of a mask (R156). -/
def State.sendCompletion (s : State) (m : CmplMask) (seqs : List Nat) : State :=
  match seqs with
  | [] => s
  | q :: rest =>
    let base := rest.foldl min q
    s.sendPkt (some m.ctx) { s.ctlPkt .completion m.job m.src with
      tag := m.tag, gen := m.gen, seq := base, payload := leBytes 8 (maskOf (seqs.map (· - base))) }

/-- The masks of a transaction sent, 64 `SEQ` values from the lowest at a time. -/
def State.sendMask (s : State) (m : CmplMask) : Nat → List Nat → State
  | 0, _ => s
  | _, [] => s
  | fuel + 1, q :: rest =>
    let base := rest.foldl min q
    (s.sendCompletion m ((q :: rest).filter fun x => decide (x < base + 64))).sendMask m fuel
      ((q :: rest).filter fun x => decide (base + 64 ≤ x))

/-- The completion masks of a transaction leave (R157). -/
def State.flushMask (s : State) (src tag gen : Nat) : State :=
  let mine (m : CmplMask) : Bool := m.src == src && m.tag == tag && m.gen == gen
  match s.rmt.masks.find? mine with
  | none => s
  | some m => (s.onRmt fun r => { r with masks := dropFirst mine r.masks }).sendMask m m.seqs.length m.seqs

/-- A packet that took effect noted for its COMPLETION (R157). -/
def State.noteCompletion (s : State) (c : Nat) (p : Packet) : State :=
  let mine (m : CmplMask) : Bool := m.src == p.src && m.tag == p.tag && m.gen == p.gen
  let fresh : CmplMask := { src := p.src, tag := p.tag, gen := p.gen, job := p.job, ctx := c, seqs := [p.seq] }
  if s.reg Reg.RMT_CMPL_COALESCE = 0 then s.sendCompletion fresh [p.seq]
  else
    let add (m : CmplMask) : CmplMask := { m with seqs := setIns p.seq m.seqs }
    let masks := if s.rmt.masks.any mine then updFirst mine add s.rmt.masks else s.rmt.masks ++ [fresh]
    let s1 := s.onRmt fun r => { r with masks := masks }
    match s1.rmt.masks.find? mine with
    | some m => if 64 ≤ m.seqs.length then s1.flushMask p.src p.tag p.gen else s1
    | none => s1

/-- The completion counter of a packet that took effect (R105, R169, R253). -/
def State.countPacket (s : State) (c : Nat) (p : Packet) : State :=
  if !p.countEn then s
  else if s.ownsCounter c p.counter then s.advance p.counter (if p.countUnit then 1 else p.payload.length)
  else (s.bump Reg.MEM_FOREIGN_COUNTS).raise .counterForeign .none c (p.counter + 2 ^ 16 * p.src)

/-! ### Effects -/

/-- What serving a request, or one element of it, came to. -/
inductive Served where
  /-- A translation fault: the offset, the fault and the kind of access. -/
  | fault (off : Nat) (w : WalkFault) (kind : AccessKind)
  /-- It took effect; the old value of an atomic. -/
  | ok (old : Nat)
  /-- It failed with a NEG reason, which the completion cache keeps or not. -/
  | fail (code : Nat) (keep : Bool)
  deriving DecidableEq, Repr

/-- A LOAD_RSP of bytes read (R153, R156). -/
def State.sendLoadRsp (s : State) (c : Nat) (p : Packet) (q : Nat) (bs : List MByte) : State :=
  s.sendPkt (some c) { s.dataPkt .loadRsp p.job p.src with
    tag := p.tag, gen := p.gen, seq := q, opArg := ofBool (anyPoison bs), payload := plain bs }

/-- A range of a context read for an arriving request. -/
def State.readRemote (s : State) (part c off len : Nat) : (Except Served (List MByte)) × State :=
  let r := s.translateRange part c off len .read true
  match r.1 with
  | .error e => (.error (.fault e.1 e.2 .read), r.2)
  | .ok l => let q := r.2.readPieces l; (.ok q.1, q.2)

/-- A LOAD_REQ served: one LOAD_RSP for each 4 KiB (R153, R154). -/
def State.serveLoad (s : State) (part c : Nat) (p : Packet) : Served × State :=
  let off := le 0 6 p.payload
  let len := le 6 3 p.payload + 1
  if 262144 < len ∨ 2 ^ 48 < off + len then (.fail 0x13 false, s)
  else
    let r := s.readRemote part c off len
    match r.1 with
    | .error e => (e, r.2)
    | .ok bs =>
      (.ok 0, (List.range (ceilDiv len 4096)).foldl (fun s k => s.sendLoadRsp c p k (slice (4096 * k) 4096 bs)) r.2)

/-- One element of a GATHER_REQ served (R153, R171). -/
def State.serveElem (s : State) (part c : Nat) (p : Packet) (e : Nat × Nat × Nat) : Served × State :=
  let r := s.readRemote part c e.1 e.2.1
  match r.1 with
  | .error x => (x, r.2)
  | .ok bs => (.ok 0, r.2.sendLoadRsp c p e.2.2 bs)

/-- A STORE, COPY or SCATTER served: its payload written at `DEST_OFFSET` (R122, R252). -/
def State.serveStore (s : State) (part c : Nat) (p : Packet) : Served × State :=
  let r := s.translateRange part c p.destOffset p.payload.length .write true
  match r.1 with
  | .error e => (.fault e.1 e.2 .write, r.2)
  | .ok l =>
    let w := r.2.writePieces l (clean p.payload)
    match w.1 with
    | .ok => (.ok 0, w.2)
    | .poison => (.fail 0x14 true, w.2)
    | .address => (.fail 0x12 true, w.2)

/-- Fields of an ATOMIC_REQ: offset, code, 64-bit, and the part of a CAS (R155). -/
def Packet.atomicFields (p : Packet) : Nat × Nat × Bool × Bool :=
  let b := le 6 1 p.payload
  (le 0 6 p.payload, fld b 3 0, bit b 4, bit b 5)

/-- Whether an ATOMIC_REQ is one of the two parts of a 64-bit CAS. -/
def Packet.isCasPart (p : Packet) : Bool := p.op == .atomicReq && p.atomicFields.2.1 == 2 && p.atomicFields.2.2.1

/-- An ATOMIC_REQ served, with the comparand's packet for a 64-bit CAS (R148, R155). -/
def State.serveAtomic (s : State) (part c : Nat) (p : Packet) (cmp : Option Packet) : Served × State :=
  let f := p.atomicFields
  let n := if f.2.2.1 then 8 else 4
  if f.1 % n ≠ 0 ∨ 10 ≤ f.2.1 then (.fail 0x13 false, s)
  else
    let operand := if f.2.1 = 2 ∧ n = 4 then le 12 4 p.payload else le 8 n p.payload
    let compare := match cmp with | some q => le 8 8 q.payload | none => le 8 4 p.payload
    let r := s.translateRange part c f.1 n .atomic true
    match r.1 with
    | .error e => (.fault e.1 e.2 .atomic, r.2)
    | .ok l =>
      let a := r.2.atomicAt ((l.head?.map (·.1)).getD 0) f.2.1 n operand compare
      match a.1 with
      | .old v => (.ok v, a.2)
      | .poison => (.fail 0x14 false, a.2)
      | .writeFailed => (.fail 0x14 true, a.2)

/-! ### Parking and answers -/

/-- Whether an opcode changes memory at the target (R167). -/
def Opcode.changes : Opcode → Bool
  | .store | .copy | .scatter | .atomicReq => true
  | _ => false

/-- The accessor of a parked packet or element (R192). -/
def Parked.accessor (x : Parked) : Accessor := .remote x.pkt.src x.pkt.tag x.pkt.gen x.pkt.seq x.elem

/-- The entry of an element of a GATHER_REQ (R150, R156). -/
def Packet.element? (p : Packet) (i : Nat) : Option (Nat × Nat × Nat) :=
  ((words64 p.payload).map parseElem).find? fun e => e.2.2 == i

/-- The `SEQ` under which a request's cache entry is kept, and under which it is answered. -/
def Parked.seq (x : Parked) : Nat := if x.pkt.op = .gatherReq then x.elem else x.pkt.seq

/-- A packet or element served, and what follows: its answer, its cache entry and its count (R155 to R158, R167, R169). On
a translation fault it parks (R188). -/
def State.perform (s : State) (x : Parked) : State :=
  let p := x.pkt
  let r := match p.op with
    | .loadReq => s.serveLoad x.part x.ctx p
    | .gatherReq => (match p.element? x.elem with
      | some e => s.serveElem x.part x.ctx p e
      | none => (.fail 0x13 false, s))
    | .atomicReq => s.serveAtomic x.part x.ctx p x.cmp
    | _ => s.serveStore x.part x.ctx p
  match r.1 with
  | .fault off w kind =>
    let s1 := r.2.xltRaise x.ctx off w kind x.accessor
    let s2 := s1.onRmt fun m => { m with parked := m.parked ++ [x] }
    (s2.bump Reg.RMT_PARKED).sendNeg p x.seq 0x11
  | .ok old =>
    if p.op = .atomicReq then
      (r.2.setCache p x.seq (.old old)).sendPkt (some x.ctx) { s.ctlPkt .atomicRsp p.job p.src with
        tag := p.tag, gen := p.gen, seq := x.seq, payload := leBytes 8 old }
    else if p.op.changes then ((r.2.setCache p x.seq .completion).countPacket x.ctx p).noteCompletion x.ctx p
    else r.2
  | .fail code keep =>
    let s1 := if !p.op.changes then r.2 else if keep then r.2.setCache p x.seq (.neg code) else r.2.dropCache p x.seq
    s1.sendNeg p x.seq code

/-- Whether an ordered packet must wait: an earlier ordered packet of the same source is parked (R255). -/
def State.mustWait (s : State) (p : Packet) : Bool :=
  p.ordered && s.rmt.parked.any fun y => y.pkt.ordered && y.pkt.src == p.src && y.pkt.job == p.job

/-- A request admitted: it is performed, or waits behind an earlier ordered packet of its pair (R255). -/
def State.startRequest (s : State) (x : Parked) : State :=
  let s1 := if x.pkt.op.changes then s.setCache x.pkt x.seq .busy else s
  if s1.mustWait x.pkt then s1.onRmt fun m => { m with parked := m.parked ++ [x] } else s1.perform x

/-- A GATHER_REQ: its elements in index order; a bad element is refused (R150, R156, R171). -/
def State.startGather (s : State) (part c : Nat) (p : Packet) : State :=
  let wait := s.mustWait p
  let s1 := (words64 p.payload).foldl (fun s v =>
    let x : Parked := { pkt := p, ctx := c, part := part, elem := (parseElem v).2.2, cmp := none }
    if wait then s.onRmt fun m => { m with parked := m.parked ++ [x] } else s.perform x) s
  if s1.rmt.parked.any (fun y => y.pkt == p) then s1 else s1.countPacket c p

/-- A parked packet or element leaves the parked list. -/
def State.unpark (s : State) (x : Parked) : State := s.onRmt fun m => { m with parked := dropFirst (· == x) m.parked }

/-- Whether an unanswered fault lists a parked entry. -/
def State.faultHolds (s : State) (x : Parked) : Bool := s.xlt.faults.any fun f => f.live && f.who.contains x.accessor

/-- The count of a GATHER_REQ whose last parked element has been answered. -/
def State.gatherOver (s : State) (x : Parked) : State :=
  if x.pkt.op = .gatherReq ∧ !s.rmt.parked.any (fun y => y.pkt == x.pkt) then s.countPacket x.ctx x.pkt else s

/-- Ordered packets whose turn has come are performed, `fuel` bounding how many (R255). -/
def State.runOrdered (s : State) : Nat → State
  | 0 => s
  | fuel + 1 =>
    let first (x : Parked) : Bool := x.pkt.ordered && !s.faultHolds x &&
      (s.rmt.parked.find? fun y => y.pkt.ordered && y.pkt.src == x.pkt.src && y.pkt.job == x.pkt.job) == some x
    match s.rmt.parked.find? first with
    | none => s
    | some x => (((s.unpark x).perform x).gatherOver x).runOrdered fuel

/-- A parked access whose fault the host has had served is performed again (R188). -/
def State.retryParked (s : State) (x : Parked) : State := ((s.unpark x).perform x).gatherOver x

/-- A parked access whose fault is refused is answered FAULT (R188). -/
def State.refuseParked (s : State) (x : Parked) : State :=
  let s1 := (s.unpark x).sendNeg x.pkt x.seq 0x12
  if x.pkt.op.changes then s1.dropCache x.pkt x.seq else s1

/-- A later copy of a request that the cache knows (R167). -/
def State.answerCached (s : State) (c : Nat) (p : Packet) (e : CacheEntry) : State :=
  let s1 := s.bump Reg.RMT_CACHE_HITS
  match e.result with
  | .busy => s
  | .completion => s1.noteCompletion c p
  | .old v => s1.sendPkt (some c) { s.ctlPkt .atomicRsp p.job p.src with
      tag := p.tag, gen := p.gen, seq := e.seq, payload := leBytes 8 v }
  | .neg code => s1.sendNeg p p.seq code

/-- A part of a 64-bit CAS: held alone, or executed with its other part (R155). -/
def State.takeCasPart (s : State) (part c : Nat) (p : Packet) : State :=
  let sibling (q : Packet) : Bool := q.src == p.src && q.tag == p.tag && q.gen == p.gen && (q.seq == 0) != (p.seq == 0)
  let same (q : Packet) : Bool := q.src == p.src && q.tag == p.tag && q.gen == p.gen && (q.seq == 0) == (p.seq == 0)
  match s.rmt.casParts.find? sibling with
  | none =>
    s.onRmt fun r => { r with casParts := r.casParts.filter (fun q => !same q) ++ [p] }
  | some q =>
    let s1 := s.onRmt fun r => { r with casParts := r.casParts.filter (fun x => !sibling x && !same x) }
    let value := if p.seq = 0 then p else q
    let compare := if p.seq = 0 then q else p
    if value.atomicFields.2.2.1 ≠ compare.atomicFields.2.2.1 ∨ value.atomicFields.1 % 8 ≠ 0 then s1.sendNeg value 0 0x13
    else s1.startRequest { pkt := value, ctx := c, part := part, elem := 0xFF, cmp := some compare }

/-- Whether two lone parts disagree on `ATOMIC_64`: a part of a pair that says 32 bits (R155). -/
def State.disagrees (s : State) (p : Packet) : Bool :=
  s.rmt.casParts.any fun q => q.src == p.src && q.tag == p.tag && q.gen == p.gen && (q.seq == 0) != (p.seq == 0) &&
    !p.atomicFields.2.2.1

/-- A request that changes memory, admitted to a slot (R155, R163, R167). -/
def State.takeChange (s : State) (part c : Nat) (p : Packet) (granted : Bool) : State :=
  let q := if p.isCasPart then 0 else p.seq
  match s.cached? p q with
  | some e => s.answerCached c p e
  | none =>
    if !granted && s.cacheFree == 0 then (s.sendBusy p).raise .rmtCacheFull .none c p.src
    else if p.op = .atomicReq ∧ s.disagrees p then
      (s.onRmt fun r => { r with casParts := r.casParts.filter fun x =>
        !(x.src == p.src && x.tag == p.tag && x.gen == p.gen) }).sendNeg p 0 0x13
    else if p.isCasPart then s.takeCasPart part c p
    else s.startRequest { pkt := p, ctx := c, part := part, elem := 0xFF, cmp := none }

/-- An arriving request packet of the six opcodes that act on memory (R154 to R171): its release, the reset of its
context, its slot, and its effect. -/
def State.takeRequest (s : State) (part : Nat) (p : Packet) : State :=
  match s.ctxOfJob? p.job with
  | none => s
  | some c =>
    let s1 := s.takeRelease p
    if s1.regAt Reg.CTX_STATE c = 3 then s1.sendNeg p p.seq 0x15
    else
      let a := s1.admitSlot p
      match a.1 with
      | none => a.2
      | some granted =>
        if p.op = .gatherReq then a.2.startGather part c p
        else if p.op.changes then a.2.takeChange part c p granted
        else a.2.startRequest { pkt := p, ctx := c, part := part, elem := 0xFF, cmp := none }

/-! ### Windows at the target -/

/-- Slots that may be granted to a source that asks `n` (R164). -/
def State.grantable (s : State) (src n : Nat) : Nat :=
  min (min n (s.slotsFree - s.reg Reg.RMT_BASE_RESERVE)) (min s.cacheFree (1024 - Table.get s.rmt.granted 0 src))

/-- A WINDOW_GRANT of slots (R156, R164). -/
def State.sendGrant (s : State) (job dest gen n : Nat) : State :=
  (s.onRmt fun r => { r with granted := Table.put r.granted 0 dest (Table.get r.granted 0 dest + n) }).sendPkt
    (s.ctxOfJob? job) { s.ctlPkt .windowGrant job dest with gen := gen, payload := leBytes 8 n }

/-- A WINDOW_REQ: its releases, then its grant; a grant of 0 leaves the request pending (R161, R164). -/
def State.takeWindowReq (s : State) (p : Packet) : State :=
  let asked := le 0 2 p.payload
  let s1 := (List.range (min 6 (le 2 1 p.payload))).foldl
    (fun s k => s.releaseTag p.src p.gen (le (4 + 2 * k) 2 p.payload)) s
  if asked = 0 ∨ s1.rmt.pendingReqs.any (fun e => e.1 == p.src) then s1
  else
    let n := s1.grantable p.src asked
    let s2 := s1.sendGrant p.job p.src p.gen n
    if n = 0 then s2.onRmt fun r => { r with pendingReqs := r.pendingReqs ++ [(p.src, p.job, asked)] } else s2

/-- WINDOW_GRANT_DEFERRED: a pending request is granted once slots are free (R164). -/
def State.grantDeferred (s : State) (chip : Nat) : State :=
  match s.rmt.pendingReqs.find? (fun e => e.1 == chip) with
  | none => s
  | some (_, job, asked) =>
    let n := s.grantable chip asked
    if n = 0 then s
    else (s.onRmt fun r => { r with pendingReqs := r.pendingReqs.filter (fun e => e.1 != chip) }).sendGrant job chip 0 n

/-- CACHE_HOLD_EXPIRE: the entries of a transaction are freed without a release (R167, R177). -/
def State.cacheExpire (s : State) (src tag gen : Nat) : State :=
  let mine := s.rmt.cache.filter fun e => e.src == src && e.tag == tag && e.gen == gen
  mine.foldl (fun s _ => s.raise .rmtCacheExpired .none 0xFF (src + 2 ^ 16 * tag)) (s.releaseTag src gen tag)

/-- CAS_PART_EXPIRE: a lone part is discarded without a reply (R155). -/
def State.casExpire (s : State) (src tag gen : Nat) : State :=
  s.onRmt fun r => { r with casParts := r.casParts.filter fun q => !(q.src == src && q.tag == tag && q.gen == gen) }

end Sys2Proof.Machine
end

