-- ==== Sys2Proof/Machine/ControlCore.lean ====
section
/-! DEFINITION. The control core: fetching, registers, its memory accesses in every space, and when an instruction stalls,
retires, or ends its task (R240 to R248, R290, R386 to R392, R516 to R518). -/
namespace Sys2Proof.Machine
open Sys2Proof Sys2Proof.Bits

/-! ### Registers -/

/-- Register X*n* of a core; X0 reads as zero (R290). -/
def CoreState.x (c : CoreState) (n : Nat) : Word64 := if n = 0 then 0 else Table.get c.regs 0 n

/-- A core with register X*n* written; writes of X0 are ignored (R290). -/
def CoreState.setX (c : CoreState) (n : Nat) (v : Word64) : CoreState :=
  if n = 0 then c else { c with regs := Table.put c.regs 0 n v }

/-- Register X*n* of core C*k*. -/
def State.x (s : State) (core n : Nat) : Word64 := (s.core core).x n

/-- A 16-bit immediate, sign-extended (R290). -/
def immSigned (imm : Nat) : Word64 := BitVec.ofInt 64 (signed 16 imm)

/-! ### Fetch -/

/-- What an instruction fetch gives. -/
inductive Fetched where
  /-- Beyond the code, or poisoned (CC_FETCH). -/
  | bad
  | word (w : Nat)
  deriving DecidableEq, Repr

/-- Local memory as a fetch sees it: none where a beat is poisoned or not answered OK, or the port is disabled. -/
def State.peek (s : State) (off len : Nat) : Option (List Byte) :=
  if (beatsOf off len).all (fun b => s.beatStatus b == .ok && !s.memPoison.contains b && !(s.port (s.portOf (128 * b))).disabled) then
    some ((List.range len).map fun i => memByte s.mem (off + i))
  else none

/-- The instruction at a core's program counter, read by local offset from the image home (R291, R292, R287). -/
def State.ccFetch (s : State) (core : Nat) : Fetched :=
  let x := s.core core
  match x.run with
  | none => .bad
  | some r =>
    if r.codeLen < x.pc + 4 then .bad
    else match s.peek (r.home + 256 + x.pc) 4 with
      | some bs => .word (leNat bs)
      | none => .bad

/-- Whether a core is about to execute an instruction: it runs a PROGRAM task that no error has ended, it has not
executed END, and neither a halt nor a translation fault holds it. -/
def State.ccReady (s : State) (core : Nat) : Bool :=
  s.powered && s.awake core && (s.core core).halt == .running && (s.core core).run.any (fun r => r.ended.isNone) &&
    (s.taskOf? core).any (fun t => t.kind == 0 && t.error.isNone) && !s.engineStalled core .control

/-- Whether a word is an instruction of R290, R388 or R516: its opcode is listed, and so is its function code. -/
def ccLegal (w : Nat) : Bool :=
  let fn := fld w 10 0
  match fld w 31 26 with
  | 0x00 => fn < 12
  | 0x04 | 0x05 => fld w 20 16 < 4
  | 0x10 => fn < 32 && fn % 16 < 10
  | 0x11 => fn < 4
  | 0x12 | 0x13 | 0x14 | 0x18 => fn < 3
  | 0x15 => fn < 32 && fn != 16 && fn != 24
  | 0x16 => fn < 32
  | 0x17 => fn < 256 && fn / 8 < 13
  | op => op == 0x01 || op == 0x02 || op == 0x03 || (0x08 ≤ op && op ≤ 0x0F) || (0x20 ≤ op && op ≤ 0x27) || op == 0x3F

/-- The fields of a machine word that an instruction uses: those given must hold these values (R290). -/
structure CcForm where
  op : Nat
  fn : Option Nat := none
  rd : Option Nat := none
  ra : Option Nat := none
  rb : Option Nat := none
  imm : Option Nat := none
  deriving DecidableEq, Repr

/-- Whether a field is free or holds its value. -/
def fieldIs (want : Option Nat) (v : Nat) : Bool := match want with | some x => x == v | none => true

/-- Whether a word is an instruction with these fields. -/
def CcForm.matches (f : CcForm) (w : Nat) : Bool :=
  fld w 31 26 == f.op && fieldIs f.fn (fld w 10 0) && fieldIs f.rd (fld w 25 21) && fieldIs f.ra (fld w 20 16) &&
    fieldIs f.rb (fld w 15 11) && fieldIs f.imm (fld w 15 0)

/-! ### Halting and retiring -/

/-- Whether a core's engines have nothing queued and nothing in progress (R517). -/
def State.enginesIdle (s : State) (core : Nat) : Bool :=
  let x := s.core core
  x.mq.isEmpty && x.vq.isEmpty && x.dq.isEmpty && x.mm.isNone && x.vp.isNone && x.copies.isEmpty &&
    !s.rmt.descs.any (fun d => d.core == core)

/-- Whether an engine of a core holds work (R439). -/
def State.engineHolds (s : State) (core : Nat) (e : Engine) : Bool :=
  let x := s.core core
  match e with
  | .matrix => !x.mq.isEmpty || x.mm.isSome
  | .vector => !x.vq.isEmpty || x.vp.isSome
  | .dma => !x.dq.isEmpty || !x.copies.isEmpty || s.rmt.descs.any (fun d => d.core == core) || s.serving core ||
      (x.run.any (fun r => r.arg.isSome) && (s.taskOf? core).any (fun t => t.kind == 1))
  | .control => x.run.any fun r => r.codeLen != 0
  | .reduction => false

/-- The core halts: Draining until its engines are idle (R517). -/
def State.haltCore (s : State) (core : Nat) : State :=
  let h := if s.enginesIdle core then Halt.halted else Halt.draining
  s.onCore core fun x => { x with halt := h, step := false, pass := false }

/-- The breakpoint of a core that the next instruction hits, the lowest (R517). -/
def State.bkptAt (s : State) (core : Nat) : Option Nat :=
  match (s.core core).run with
  | none => none
  | some r => (List.range 4).find? fun k =>
      let b := s.regAt (Reg.DBG_BKPT0 + k) core
      bit b 31 && fld b 29 24 == r.ctx && fld b 23 0 == (s.core core).pc

/-- A breakpoint hit: the halt, the type 3 record and the vector (R517). -/
def State.breakHit (s : State) (core k : Nat) : State :=
  ((s.haltCore core).traceRecord core 3 k 0).assertVector (s.reg Reg.DBG_VECTOR)

/-- An instruction retires with its next program counter: the counts, progress, and the halt after a step (R439, R510,
R518). -/
def State.ccRetire (s : State) (core pc : Nat) : State :=
  let c := s.ctxOfCore core
  let s1 := s.onCore core fun x => { x with pc := pc % 2 ^ 64, stall := .none, pass := false }
  let s2 := (s1.busy Reg.OBS_CC_RETIRED Reg.CTX_CC_RETIRED c 1).engineProgress core .control
  if (s.core core).step then s2.haltCore core else s2

/-- An instruction retires to the one after it. -/
def State.ccNext (s : State) (core : Nat) : State := s.ccRetire core ((s.core core).pc + 4)

/-- A register written, and the instruction retired. -/
def State.ccWrite (s : State) (core rd : Nat) (v : Word64) : State := (s.onCore core fun x => x.setX rd v).ccNext core

/-- The present instruction waits. -/
def State.ccStall (s : State) (core : Nat) (k : Stall) : State := s.onCore core fun x => { x with stall := k }

/-- One instruction of a core: it is fetched, and where it is the one that the command names, it has its effect. A
breakpoint at it hits first. An illegal word, or a failed fetch, ends the task (R287, R290, R517). -/
def State.ccRun (s : State) (core : Nat) (form : CcForm) (effect : State → State) : State :=
  if !s.ccReady core then s
  else
    match (if (s.core core).pass then none else s.bkptAt core) with
    | some k => s.breakHit core k
    | none =>
      match s.ccFetch core with
      | .bad => s.taskError core 0x61
      | .word w => if !ccLegal w then s.taskError core 0x60 else if form.matches w then effect s else s

/-! ### Memory accesses -/

/-- What an access of the control core came to. -/
inductive CcMem where
  | ok (bs : List Byte)
  /-- It waits; the instruction is executed again later. -/
  | wait (k : Stall)
  /-- It ends the task with a code of R245. -/
  | error (code : Nat)
  deriving DecidableEq, Repr

/-- The lines that a far range covers: line number, first byte and length in it. -/
def farParts (off len : Nat) : List (Nat × Nat × Nat) := (cutAt 64 off len).map fun p => (p.1 / 64, p.1 % 64, p.2)

/-- The chip that a far address names, through its window and the rank table; none where the rank is refused (R242,
R112). -/
def State.farChip (s : State) (core addr : Nat) : Option Nat × State :=
  s.rankChip (s.ctxOfCore core) (Table.get (s.core core).windows 0 (fld addr 51 48))

/-- A line of a core used: it is the most recently used, and its grant is performed (R258, R265). -/
def State.touchLine (s : State) (l : FarLine) : State := s.onFar fun f => f.put { l with fresh := false }

/-- The bytes of one line, or the wait for it; a poisoned line ends the task (R259, R271). -/
def State.farLoadPart (s : State) (core chip : Nat) (p : Nat × Nat × Nat) : CcMem × State :=
  let c := s.ctxOfCore core
  let n : LineName := { job := s.jobOf c, chip := chip, line := p.1 }
  match s.farLine? core n with
  | some l => if l.poison then (.error 0x52, s.touchLine l) else (.ok (slice p.2.1 p.2.2 l.data), s.touchLine l)
  | none => (.wait .far, s.askLine core c n false)

/-- Bytes stored in one owned line, or the wait for its ownership (R260). -/
def State.farStorePart (s : State) (core chip : Nat) (p : Nat × Nat × Nat) (bs : List Byte) : CcMem × State :=
  let c := s.ctxOfCore core
  let n : LineName := { job := s.jobOf c, chip := chip, line := p.1 }
  match (s.farLine? core n).filter (·.owned) with
  | some l =>
    let data := l.data.take p.2.1 ++ bs ++ l.data.drop (p.2.1 + bs.length)
    let dirty := l.dirty ||| ((2 ^ bs.length - 1) <<< p.2.1)
    (.ok [], s.touchLine { l with data := data, dirty := dirty })
  | none => (.wait .far, s.askLine core c n true)

/-- Local memory loaded through the context's translation (R178, R188, R271). -/
def State.ccLoadMem (s : State) (core off len : Nat) : CcMem × State :=
  let c := s.ctxOfCore core
  let r := s.translateRange (s.partOfCore core) c off len .read false
  match r.1 with
  | .error e => (.wait .fault, r.2.xltRaise c e.1 e.2 .read (.engine core .control))
  | .ok l =>
    let q := r.2.readPieces l
    if anyPoison q.1 then (.error 0x52, q.2) else (.ok (plain q.1), q.2)

/-- Local memory stored through the context's translation. -/
def State.ccStoreMem (s : State) (core off : Nat) (bs : List Byte) : CcMem × State :=
  let c := s.ctxOfCore core
  let r := s.translateRange (s.partOfCore core) c off bs.length .write false
  match r.1 with
  | .error e => (.wait .fault, r.2.xltRaise c e.1 e.2 .write (.engine core .control))
  | .ok l => (.ok [], (r.2.writePieces l (clean bs)).2)

/-- Scratchpad bytes loaded: an unwritten line gives all ones, a poisoned one ends the task (R268, R271, R278). -/
def State.ccLoadSpad (s : State) (core addr len : Nat) : CcMem × State :=
  if !s.inFootprint core addr len then (.error 0x50, s)
  else if s.spadPoisoned core addr len then (.error 0x52, s)
  else let r := s.spadRead core addr len; (.ok (plain r.1), r.2)

/-- A load of the control core in any space of R242. -/
def State.ccLoad (s : State) (core addr len : Nat) : CcMem × State :=
  match fld addr 63 62 with
  | 0 => if fld addr 61 21 ≠ 0 then (.error 0x50, s) else s.ccLoadSpad core (fld addr 20 0) len
  | 1 => if fld addr 61 48 ≠ 0 then (.error 0x50, s) else s.ccLoadMem core (fld addr 47 0) len
  | 2 =>
    if fld addr 61 52 ≠ 0 then (.error 0x50, s)
    else
      let r := s.farChip core addr
      match r.1 with
      | none => (.error 0x53, r.2)
      | some chip =>
        if chip = s.ownChip then r.2.ccLoadMem core (fld addr 47 0) len
        else (farParts (fld addr 47 0) len).foldl (fun q p => match q.1 with
          | .ok bs => let t := q.2.farLoadPart core chip p
                      (match t.1 with | .ok b => .ok (bs ++ b) | x => x, t.2)
          | x => (x, q.2)) (.ok [], r.2)
  | _ => (.error 0x50, s)

/-- A store of the control core in any space of R242. -/
def State.ccStore (s : State) (core addr : Nat) (bs : List Byte) : CcMem × State :=
  match fld addr 63 62 with
  | 0 =>
    if fld addr 61 21 ≠ 0 || !s.inFootprint core (fld addr 20 0) bs.length then (.error 0x50, s)
    else (.ok [], s.spadWrite core (fld addr 20 0) (clean bs))
  | 1 => if fld addr 61 48 ≠ 0 then (.error 0x50, s) else s.ccStoreMem core (fld addr 47 0) bs
  | 2 =>
    if fld addr 61 52 ≠ 0 then (.error 0x50, s)
    else
      let r := s.farChip core addr
      match r.1 with
      | none => (.error 0x53, r.2)
      | some chip =>
        if chip = s.ownChip then r.2.ccStoreMem core (fld addr 47 0) bs
        else
          let off := fld addr 47 0
          (farParts off bs.length).foldl (fun q p => match q.1 with
            | .ok _ => q.2.farStorePart core chip p (slice (64 * p.1 + p.2.1 - off) p.2.2 bs)
            | x => (x, q.2)) (.ok [], r.2)
  | _ => (.error 0x50, s)

/-- What follows an access: the rest of the instruction, a stall, or the end of the task. -/
def CcMem.andThen (r : CcMem × State) (core : Nat) (next : List Byte → State → State) : State :=
  match r.1 with
  | .ok bs => next bs r.2
  | .wait k => r.2.ccStall core k
  | .error code => r.2.taskError core code

/-- An access must be naturally aligned (R245). -/
def aligned (addr len : Nat) : Bool := addr % len == 0

/-- Whether an address names no space, or sets a bit marked zero (R242). -/
def badSpace (addr : Nat) : Bool :=
  match fld addr 63 62 with
  | 0 => fld addr 61 21 != 0 | 1 => fld addr 61 48 != 0 | 2 => fld addr 61 52 != 0 | _ => true

/-- LD (R244, R290). -/
def State.ccLd (s : State) (core len rd addr : Nat) : State :=
  if badSpace addr then s.taskError core 0x50
  else if !aligned addr len then s.taskError core 0x51
  else CcMem.andThen (s.ccLoad core addr len) core fun bs s => s.ccWrite core rd (BitVec.ofNat 64 (leNat bs))

/-- ST (R244, R290). -/
def State.ccSt (s : State) (core len rd addr : Nat) : State :=
  if badSpace addr then s.taskError core 0x50
  else if !aligned addr len then s.taskError core 0x51
  else CcMem.andThen (s.ccStore core addr (leBytes len (s.x core rd).toNat)) core fun _ s => s.ccNext core

/-! ### AMO -/

/-- AMO on local memory, in the atomic unit that serves arriving ATOMIC_REQ (R148, R244, R245). -/
def State.ccAmoMem (s : State) (core len rd off code operand cmp : Nat) : State :=
  let c := s.ctxOfCore core
  let r := s.translateRange (s.partOfCore core) c off len .atomic false
  match r.1 with
  | .error e => (r.2.xltRaise c e.1 e.2 .atomic (.engine core .control)).ccStall core .fault
  | .ok l =>
    let a := r.2.atomicAt ((l.head?.map (·.1)).getD 0) code len operand cmp
    match a.1 with
    | .old v => a.2.ccWrite core rd (BitVec.ofNat 64 v)
    | _ => a.2.taskError core 0x52

/-- AMO on bytes that a load and a store of the control core reach: the scratchpad, or an owned far line (R244, R260). -/
def State.ccAmoBytes (s : State) (core len rd addr code operand cmp : Nat) : State :=
  CcMem.andThen (s.ccLoad core addr len) core fun bs s =>
    let old := leNat bs
    match atomicNew code (8 * len) old operand cmp with
    | none => s.ccWrite core rd (BitVec.ofNat 64 old)
    | some v => CcMem.andThen (s.ccStore core addr (leBytes len v)) core fun _ s => s.ccWrite core rd (BitVec.ofNat 64 old)

/-- AMO in far space: the line is owned before the old value is read (R260). -/
def State.ccAmoFar (s : State) (core len rd addr code operand cmp : Nat) : State :=
  let r := s.farChip core addr
  match r.1 with
  | none => r.2.taskError core 0x53
  | some chip =>
    if chip = s.ownChip then r.2.ccAmoMem core len rd (fld addr 47 0) code operand cmp
    else
      let c := s.ctxOfCore core
      let n : LineName := { job := s.jobOf c, chip := chip, line := fld addr 47 0 / 64 }
      if ((r.2.farLine? core n).filter (·.owned)).isSome then r.2.ccAmoBytes core len rd addr code operand cmp
      else (r.2.askLine core c n true).ccStall core .far

/-- AMO (R244, R290): the address in RA, the operand in RB, the comparand of CAS in RD. -/
def State.ccAmo (s : State) (core code : Nat) (wide : Bool) (rd ra rb : Nat) : State :=
  let addr := (s.x core ra).toNat
  let len := if wide then 8 else 4
  let operand := (s.x core rb).toNat
  let cmp := (s.x core rd).toNat
  if badSpace addr then s.taskError core 0x50
  else if !aligned addr len then s.taskError core 0x51
  else match fld addr 63 62 with
    | 0 => s.ccAmoBytes core len rd addr code operand cmp
    | 1 => s.ccAmoMem core len rd (fld addr 47 0) code operand cmp
    | _ => s.ccAmoFar core len rd addr code operand cmp

/-! ### Releases, semaphores and counters -/

/-- A release by the control core: its dirty far lines are written back, and the rest follows once every write-back has
its COMPLETION (R247). -/
def State.ccRelease (s : State) (core : Nat) (k : Stall) (next : State → State) : State :=
  let s1 := s.flushFar core
  if s1.farQuiet core then next s1 else s1.ccStall core k

/-- A semaphore operation of the control core, where the context owns the semaphore (R278, R294). -/
def State.ccSem (s : State) (core ra : Nat) (next : Nat → State → State) : State :=
  let n := (s.x core ra).toNat
  if s.ownsSem (s.ctxOfCore core) n then next n s else s.taskError core 0x57

/-- A counter operation of the control core, where the context owns the counter (R278). -/
def State.ccCnt (s : State) (core ra : Nat) (next : Nat → State → State) : State :=
  let n := (s.x core ra).toNat
  if s.ownsCounter (s.ctxOfCore core) n then next n s else s.taskError core 0x57

/-- SIGNAL (R246). -/
def State.ccSignal (s : State) (core ra rb : Nat) : State :=
  s.ccSem core ra fun n s => s.ccRelease core .release fun s => (s.signal n (s.x core rb).toNat).ccNext core

/-- SET (R246). -/
def State.ccSet (s : State) (core ra rb : Nat) : State :=
  s.ccSem core ra fun n s => s.ccRelease core .release fun s =>
    (s.setSem n (BitVec.ofNat 32 (s.x core rb).toNat)).ccNext core

/-- WAIT (R246): it retires at once where the semaphore is at least the threshold. -/
def State.ccWait (s : State) (core ra rb : Nat) : State :=
  s.ccSem core ra fun n s =>
    let t := (s.x core rb).toNat
    if t ≤ (s.sem n).toNat then s.ccNext core else s.ccStall core (.waitSem n t)

/-- READ (R246). -/
def State.ccReadSem (s : State) (core rd ra : Nat) : State :=
  s.ccSem core ra fun n s => s.ccWrite core rd (BitVec.ofNat 64 (s.sem n).toNat)

/-- CSET (R251). -/
def State.ccCset (s : State) (core ra rb : Nat) : State :=
  s.ccCnt core ra fun n s => (s.setCounter n (s.x core rb)).ccNext core

/-- CREAD (R251). -/
def State.ccCread (s : State) (core rd ra : Nat) : State :=
  s.ccCnt core ra fun n s => s.ccWrite core rd (s.counter n)

/-- WAITC (R251). -/
def State.ccWaitc (s : State) (core ra rb : Nat) : State :=
  s.ccCnt core ra fun n s =>
    let t := s.x core rb
    if counterReached (s.counter n) t then s.ccNext core else s.ccStall core (.waitCnt n t.toNat)

/-- Whether what a stalled WAIT or WAITC waits for has come (R246, R251). -/
def State.waitOver (s : State) : Stall → Bool
  | .waitSem n t => decide (t ≤ (s.sem n).toNat)
  | .waitCnt n t => counterReached (s.counter n) (BitVec.ofNat 64 t)
  | _ => false

/-- WAIT_SATISFIED: a stalled WAIT or WAITC acquires and retires (R246). -/
def State.waitSatisfied (s : State) (core : Nat) : State :=
  if s.ccReady core && s.waitOver (s.core core).stall then s.ccNext core else s

/-! ### Far maintenance -/

/-- The far lines of a core that a range of a window overlaps. -/
def State.farRange (s : State) (core chip off len : Nat) : List FarLine :=
  s.far.lines.filter fun l => l.core == core && l.name.chip == chip && l.name.job == s.jobOf (s.ctxOfCore core) &&
    decide (l.name.line * 64 < off + len ∧ off < l.name.line * 64 + 64)

/-- Write-backs begun for FAR_FLUSH, FAR_DROP or FENCE: the instruction retires at once where none is outstanding
(R244). -/
def State.ccMaint (s : State) (core : Nat) : State :=
  if s.farQuiet core then s.ccNext core else s.ccStall core .maint

/-- FAR_FLUSH and FAR_DROP (R244). The address must lie in far space (R242). -/
def State.ccFar (s : State) (core ra rb : Nat) (drop : Bool) : State :=
  let addr := (s.x core ra).toNat
  if fld addr 63 62 ≠ 2 ∨ fld addr 61 52 ≠ 0 then s.taskError core 0x50
  else
    let r := s.farChip core addr
    match r.1 with
    | none => r.2.taskError core 0x53
    | some chip =>
      let lines := r.2.farRange core chip (fld addr 47 0) (s.x core rb).toNat
      (lines.foldl (fun s l => if drop then s.evict l else s.writeBack l) r.2).ccMaint core

/-- FENCE (R244, R247). -/
def State.ccFence (s : State) (core : Nat) : State := (s.flushFar core).ccMaint core

/-- FAR_MAINTENANCE_COMPLETE: every write-back of the core has its COMPLETION, and the instruction retires (R244). -/
def State.maintComplete (s : State) (core : Nat) : State :=
  if s.ccReady core && (s.core core).stall == .maint && s.farQuiet core then s.ccNext core else s

/-! ### Enqueuing, windows, masks, triggers -/

/-- ENQ: a descriptor of 64 bytes copied from the scratchpad into an engine's queue; it acts as a release (R205, R248,
R278). -/
def State.ccEnq (s : State) (core ra : Nat) (e : Engine) : State :=
  let addr := (s.x core ra).toNat
  if 16 ≤ ((s.core core).queue e).length then s.ccStall core .queueFull
  else s.ccRelease core .release fun s =>
    CcMem.andThen (s.ccLoadSpad core addr 64) core fun bs s =>
      let s1 := if s.engineHolds core e then s else s.engineProgress core e
      let s2 := s1.onCore core fun x => x.withQueue e (x.queue e ++ [bs])
      (if e = .matrix then s2.askRamp core else s2).ccNext core

/-- FAR_WINDOW_SET (R242, R290). -/
def State.ccWindow (s : State) (core window ra : Nat) : State :=
  let v := (s.x core ra).toNat
  (s.onCore core fun x => { x with windows := Table.put x.windows 0 window v }).ccNext core

/-- MASK_SET_COUNT: the first RA lanes of a mask (R226, R290). -/
def State.ccMaskCount (s : State) (core mask ra : Nat) : State :=
  let v := 2 ^ min 256 (s.x core ra).toNat - 1
  (s.onCore core fun x => { x with masks := Table.put x.masks 0 mask v }).ccNext core

/-- MASK_SET_SPAD: a mask from 32 bytes of the scratchpad (R226, R290). -/
def State.ccMaskSpad (s : State) (core mask ra : Nat) : State :=
  CcMem.andThen (s.ccLoadSpad core (s.x core ra).toNat 32) core fun bs s =>
    (s.onCore core fun x => { x with masks := Table.put x.masks 0 mask (leNat bs) }).ccNext core

/-- The trigger that a record of 16 bytes arms (R294). -/
def Trig.parse (bs : List Byte) : Trig :=
  { watched := le 0 4 bs, counter := bit (le 4 1 bs) 0, sem := le 5 3 bs % 2 ^ 17, thr := le 8 8 bs }

/-- Whether a slot is declared by the image of the core's task (R291, R294). -/
def State.declared (s : State) (core slot : Nat) : Bool := (s.core core).run.any fun r => r.decl.testBit slot

/-- TRIG with `FN`[4] 0 (R294). -/
def State.ccTrigArm (s : State) (core slot ra : Nat) : State :=
  if !s.declared core slot then s.taskError core 0x62
  else CcMem.andThen (s.ccLoadSpad core (s.x core ra).toNat 16) core fun bs s =>
    let t := Trig.parse bs
    let c := s.ctxOfCore core
    let watchedOk := if t.counter then s.ownsCounter c t.watched else s.ownsSem c t.watched
    if !watchedOk || !s.ownsSem c t.sem then s.taskError core 0x57
    else ((s.onCtx c fun x => { x with trigs := Table.insert x.trigs slot t }).syncChanged (some c)).ccNext core

/-- TRIG with `FN`[4] 1 (R294). -/
def State.ccTrigDisarm (s : State) (core slot : Nat) : State :=
  if !s.declared core slot then s.taskError core 0x62
  else (s.onCtx (s.ctxOfCore core) fun x => { x with trigs := Table.erase x.trigs slot }).ccNext core

/-! ### Check-value units -/

/-- Bytes of an algorithm's width (R386). -/
def cvWidth : Nat → Nat
  | 0 => 4 | 1 => 8 | _ => 2

/-- The initial register of an algorithm (R386). -/
def cvInitial : Nat → Nat
  | 0 => 0xFFFFFFFF | 1 => 0 | _ => 0xFFFF

/-- Bytes fed to an algorithm's register (R386). -/
def cvFeed (alg reg : Nat) (bs : List Byte) : Nat :=
  match alg with
  | 0 => Crc.feedReflected 0x82F63B78 reg bs
  | 1 => Crc.feedPlain 64 0x42F0E1EBA9EA3693 reg bs
  | _ => Crc.feedPlain 16 0x1021 reg bs

/-- The finalised value of a unit (R386, R388). -/
def CvUnit.final (u : CvUnit) : Nat := if u.alg = 0 then u.reg ^^^ 0xFFFFFFFF else u.reg

/-- A unit fed with bytes. -/
def CvUnit.feed (u : CvUnit) (bs : List Byte) : CvUnit := { u with reg := cvFeed u.alg u.reg bs }

/-- A unit with its register at its initial value. -/
def CvUnit.restart (u : CvUnit) : CvUnit := { u with reg := cvInitial u.alg }

/-- Unit U*n* of a core. -/
def State.cv (s : State) (core n : Nat) : CvUnit := ((s.core core).cvs[n]?).getD .reset

/-- Unit U*n* of a core replaced. -/
def State.setCv (s : State) (core n : Nat) (u : CvUnit) : State := s.onCore core fun x => { x with cvs := setAt x.cvs n u }

/-- CV_INIT (R388). -/
def State.ccCvInit (s : State) (core n rb : Nat) : State :=
  let v := (s.x core rb).toNat
  if v % 4 = 3 then s.taskError core 0x60
  else (s.setCv core n { s.cv core n with alg := v % 4, reg := cvInitial (v % 4), alive := bit v 8 }).ccNext core

/-- CV_FEED of the low bytes of a register, byte 0 first (R388). -/
def State.ccCvFeed (s : State) (core n len rb : Nat) : State :=
  (s.setCv core n ((s.cv core n).feed (leBytes len (s.x core rb).toNat))).ccNext core

/-- CV_PUT (R388). -/
def State.ccCvPut (s : State) (core n rb : Nat) : State :=
  let u := s.cv core n
  (s.setCv core n { u with reg := (s.x core rb).toNat % 2 ^ (8 * cvWidth u.alg) }).ccNext core

/-- The word of CV_GETA (R388). -/
def CvUnit.word (u : CvUnit) : Nat := u.alg + 256 * u.counter + 65536 * ofBool u.alive

/-- CV_PUTA (R388). -/
def State.ccCvPuta (s : State) (core n rb : Nat) : State :=
  let v := (s.x core rb).toNat
  let u := s.cv core n
  if v % 4 = 3 then s.taskError core 0x60
  else (s.setCv core n { alg := v % 4, reg := u.reg % 2 ^ (8 * cvWidth (v % 4)), counter := fld v 15 8, alive := bit v 16 }).ccNext
    core

/-- CV_APPEND (R390). -/
def State.ccCvAppend (s : State) (core n ra : Nat) : State :=
  let u := s.cv core n
  let count := if u.alive then (u.counter + 1) % 256 else u.counter
  let fed := if u.alive then u.feed [BitVec.ofNat 8 count] else u
  let bs := (if u.alive then [BitVec.ofNat 8 count] else []) ++ leBytes (cvWidth u.alg) fed.final
  CcMem.andThen (s.ccStore core (s.x core ra).toNat bs) core fun _ s =>
    (s.setCv core n { u.restart with counter := count }).ccNext core

/-- The result of CV_CHECK and the counter afterwards (R391). -/
def cvResult (good alive : Bool) (got counter : Nat) : Nat × Nat :=
  if !good then (1, counter)
  else if !alive then (0, counter)
  else if got = (counter + 1) % 256 then (0, got)
  else if got = counter then (2, counter)
  else (3, got)

/-- Whether a load of the scratchpad meets a line whose written bit is clear. -/
def State.meetsUnwritten (s : State) (core addr len : Nat) : Bool :=
  fld addr 63 62 == 0 && (spadLines core (fld addr 20 0) len).any fun l => !s.spadWritten.contains l

/-- CV_CHECK (R391). -/
def State.ccCvCheck (s : State) (core n rd ra : Nat) : State :=
  let u := s.cv core n
  let addr := (s.x core ra).toNat
  let len := cvWidth u.alg + ofBool u.alive
  let unwritten := s.meetsUnwritten core addr len
  CcMem.andThen (s.ccLoad core addr len) core fun bs s =>
    let got := if u.alive then le 0 1 bs else 0
    let fed := if u.alive then u.feed (bs.take 1) else u
    let sent := leNat (if u.alive then bs.drop 1 else bs)
    let r := cvResult (sent == fed.final && !unwritten) u.alive got u.counter
    (s.setCv core n { u.restart with counter := r.2 }).ccWrite core rd (BitVec.ofNat 64 r.1)

/-- CV_LEDGER (R374, R392). -/
def State.ccCvLedger (s : State) (core n ra rb : Nat) : State :=
  let v := (s.x core ra).toNat
  let step := ((s.core core).run.map (·.step)).getD 0
  (s.ledgerRecord (s.ctxOfCore core) step (fld v 31 0) (fld v 63 32) 0xFFFF0C00 (s.x core rb).toNat (s.cv core n).final).ccNext
    core

/-! ### Markers, branches, END -/

/-- MARK_BEGIN, MARK_END and MARK_POINT (R516). -/
def State.ccMark (s : State) (core kind ra : Nat) : State :=
  (s.traceRecord core 2 kind (fld (s.x core ra).toNat 31 0)).ccNext core

/-- The target of a branch: PC + 4 × IMM (R290). -/
def State.branchTo (s : State) (core imm : Nat) : Nat :=
  (BitVec.ofNat 64 (s.core core).pc + immSigned imm * 4).toNat

/-- A conditional branch (R290). -/
def State.ccBranch (s : State) (core imm : Nat) (taken : Bool) : State :=
  if taken then s.ccRetire core (s.branchTo core imm) else s.ccNext core

/-- A jump that links (R290). -/
def State.ccJump (s : State) (core rd target : Nat) : State :=
  let link := BitVec.ofNat 64 ((s.core core).pc + 4)
  (s.onCore core fun x => x.setX rd link).ccRetire core target

/-- END with a code: the instance waits for the end of its task, after the release of R247 (R287). -/
def State.ccEndInstance (s : State) (core code : Nat) : State :=
  s.ccRelease core .release fun s =>
    let mark (r : Running) : Running := { r with ended := some code }
    ((s.onCore core fun x => { x with run := x.run.map mark, step := false }).ccRetire core (s.core core).pc)

end Sys2Proof.Machine
end

