-- ==== Sys2Proof/Machine/Tasks.lean ====
section
/-! DEFINITION. Contexts, submissions and tasks: opening and closing, the dispatcher's reads, admission, start decisions
and the ends of tasks (R275 to R289). -/
namespace Sys2Proof.Machine
open Sys2Proof Sys2Proof.Bits

/-! ### Contexts -/

/-- The scratchpad range of a context, in 64 KiB units: first and one past the last (R296). -/
def State.spadRange (s : State) (c : Nat) : Nat × Nat :=
  let v := s.regAt Reg.CTX_SPAD c
  (fld v 4 0, fld v 4 0 + fld v 10 5)

/-- Whether two half-open ranges meet. -/
def rangesMeet (a b : Nat × Nat) : Bool := decide (a.1 < b.2 ∧ b.1 < a.2 ∧ a.1 < a.2 ∧ b.1 < b.2)

/-- The cores that a context owns: those of `CTX_CORES`, and those on which its task still runs (R277). -/
def State.ownedCores (s : State) (c : Nat) : Nat :=
  let busy := (List.range 64).filter fun n =>
    ((s.core n).run.any fun r => r.ctx == c) || (s.ctx c).services.any fun v => v.core == n
  s.regAt Reg.CTX_CORES c ||| maskOf busy

/-- The semaphores that barriers of a context name (R425). -/
def State.barSems (s : State) (c : Nat) : List Nat :=
  [s.regAt Reg.BAR_IN_SEM c, s.regAt Reg.BAR_STEP_SEM c, s.regAt Reg.BAR_OUT_SEM c]

/-- The first row of R275 that fails for a context, counted from 1; 0 where none does (R275, R425). -/
def State.openRow (s : State) (c : Nat) : Nat :=
  let others := (List.range 64).filter fun y => y != c && s.holdsResources y
  let cores := s.regAt Reg.CTX_CORES c
  let win (b n y : Nat) : Nat × Nat := (s.regAt b y, s.regAt b y + s.regAt n y)
  let sems := win Reg.CTX_SEM_BASE Reg.CTX_SEM_COUNT
  let cnts := win Reg.CTX_CNT_BASE Reg.CTX_CNT_COUNT
  let grant := s.regAt Reg.CTX_TRACKER_GRANT c
  let slots := s.regAt Reg.CTX_TASK_SLOTS c
  if 2 ^ s.build.cores ≤ cores then 1
  else if others.any (fun y => cores &&& s.ownedCores y != 0 && rangesMeet (s.spadRange c) (s.spadRange y)) then 2
  else if 131072 < (sems c).2 || others.any (fun y => rangesMeet (sems c) (sems y)) ||
      (s.barSems c).any (fun n => !s.ownsSem c n) then 3
  else if 65536 < (cnts c).2 || others.any (fun y => rangesMeet (cnts c) (cnts y)) then 4
  else if grant % 16 ≠ 0 ∨ 8192 < grant + (others.map (s.regAt Reg.CTX_TRACKER_GRANT)).sum then 5
  else if slots = 0 ∨ 4096 < slots + (others.map (s.regAt Reg.CTX_TASK_SLOTS)).sum then 6
  else if s.regAt Reg.CTX_ROUTE_STATE c ≠ 1 then 7
  else 0

/-- The semaphores and counters of a context's windows set to zero (R276, R445). -/
def State.zeroWindows (s : State) (c : Nat) : State :=
  { s with sems := s.sems.filter (fun e => !s.ownsSem c e.1), counters := s.counters.filter (fun e => !s.ownsCounter c e.1) }

/-- The generation of a context advanced (R276). -/
def State.nextGeneration (s : State) (c : Nat) : State := s.setRegAt Reg.CTX_GENERATION c ((s.genOf c + 1) % 256)

/-- The counters of index 0x7100+*c* set to zero (R510). -/
def State.zeroCtxCounters (s : State) (c : Nat) : State :=
  [Reg.CTX_MM_BUSY, Reg.CTX_VEC_BUSY, Reg.CTX_CC_RETIRED, Reg.CTX_DMA_BUSY, Reg.CTX_TASKS_ENDED].foldl
    (fun s k => s.setRegAt k c 0) s

/-- A context without submissions and tasks. -/
def CtxState.noWork (x : CtxState) : CtxState := { x with subs := [], tasks := [], read := 0, trigs := [] }

/-- `CTX_OPEN` (R275, R276, R499, R510). -/
def State.ctxOpenAct (s : State) (c : Nat) : Status × State :=
  if s.regAt Reg.CTX_STATE c ≠ 0 ∨ s.blk = .configure then (.busy, s)
  else
    let row := s.openRow c
    let s1 := s.setRegAt Reg.CTX_OPEN_ERROR c row
    if row ≠ 0 then (.outOfRange, s1)
    else
      let s2 := ((((s1.zeroWindows c).nextGeneration c).setRegAt Reg.CTX_RING_HEAD c 0).setRegAt Reg.JOB_STEP c 0).zeroCtxCounters c
      let s3 := (s2.onCtx c CtxState.noWork).onHcp fun h => { h with tails := Table.erase h.tails c }
      (.ok, (s3.setRegAt Reg.CTX_STATE c 1).progressed (contextKey c))

/-- The routing of a context unbound, and its references on chip numbers removed (R113). -/
def State.unbind (s : State) (c : Nat) : State :=
  let drop (t : Table Nat) (d : Nat) : Table Nat := Table.put t 0 d (Table.get t 0 d - 1)
  let s1 := s.onPkt fun p => { p with refs := (Table.get p.bound [] c).foldl drop p.refs, bound := Table.erase p.bound c,
                                      binding := setDel c p.binding }
  (s1.setRegAt Reg.CTX_ROUTE_STATE c 0).onCtx c fun x => { x with trees := [], alt := false }

/-- `CTX_CLOSE`: refused while a task of the context is admitted (R275, R113). -/
def State.ctxCloseAct (s : State) (c : Nat) : Status × State :=
  let st := s.regAt Reg.CTX_STATE c
  if st = 0 ∨ st = 3 ∨ !(s.ctx c).tasks.isEmpty then (.busy, s)
  else
    let s1 := (s.unbind c).onCtx c fun x => { x.noWork with arrived := none, arrivals := [], sentUp := false }
    (.ok, (s1.setRegAt Reg.BAR_STATE c 0).setRegAt Reg.CTX_STATE c 0)

/-- `CTX_RESUME`: a Halted context is Open again (R288). -/
def State.ctxResumeAct (s : State) (c : Nat) : Status × State :=
  if s.regAt Reg.CTX_STATE c ≠ 2 then (.busy, s)
  else (.ok, ((s.setRegAt Reg.CTX_STATE c 1).progressed (contextKey c)).syncChanged (some c))

/-! ### Completion records and failure -/

/-- The 32 bytes of a completion record (R289). -/
def State.completionBytes (s : State) (sub : Submission) : List Byte :=
  let e := sub.fail.getD { outcome := 0, reason := 0, code := 0, index := 0, taskId := 0, core := 0xFF, pc := 0 }
  leBytes 4 sub.index ++ leBytes 1 e.outcome ++ leBytes 1 e.reason ++ leBytes 2 e.code ++ leBytes 4 e.index ++
    leBytes 4 e.taskId ++ leBytes 1 e.core ++ zeros 3 ++ leBytes 4 e.pc ++ leBytes 8 s.stamp

/-- Whether a submission's record is due: all its tasks have ended, or it failed and no task of the context runs (R288,
R289). -/
def State.recordDue (s : State) (c : Nat) (sub : Submission) : Bool :=
  !sub.done && (if sub.fail.isSome then !(s.ctx c).tasks.any (·.running) else decide (sub.count ≤ sub.ended))

/-- A submission of a context changed by a function. -/
def State.onSub (s : State) (c index : Nat) (f : Submission → Submission) : State :=
  s.onCtx c fun x => { x with subs := updFirst (fun u => u.index == index) f x.subs }

/-- `CTX_RING_HEAD` past every record written, in ring order; `fuel` bounds the submissions (R280, R289). -/
def State.advanceHead (s : State) (c : Nat) : Nat → State
  | 0 => s
  | fuel + 1 =>
    match (s.ctx c).subs with
    | u :: rest =>
      if u.done then
        ((s.onCtx c fun x => { x with subs := rest }).setRegAt Reg.CTX_RING_HEAD c ((u.index + 1) % 2 ^ 32)).advanceHead c fuel
      else s
    | [] => s

/-- What follows a record that is performed, or lost: the ring head, TASK_ERROR of a failed submission, and the vector
(R288, R289). -/
def State.recordDone (s : State) (c : Nat) (sub : Submission) : State :=
  let s1 := (s.onSub c sub.index fun u => { u with done := true }).advanceHead c ((s.ctx c).subs.length + 1)
  let s2 := if sub.fail.any (fun e => e.outcome != 3) then s1.raiseCtx .taskError c sub.index else s1
  if sub.vector || sub.fail.any (fun e => e.outcome != 3) then s2.assertVector (s.regAt Reg.CTX_VECTOR c) else s2

/-- Whether an access of the dispatcher for a context waits for the host (R281). -/
def State.dispatcherStalled (s : State) (c : Nat) (write : Bool) : Bool :=
  s.xlt.faults.any fun f => f.live && f.ctx == c && f.write == write && f.who.contains .dispatcher

/-- One record written through the context's translation; on a fault it waits (R188, R289). -/
def State.writeRecord (s : State) (c : Nat) (sub : Submission) : State :=
  let r := s.translateRange 0 c sub.result 32 .write false
  match r.1 with
  | .error e => r.2.xltRaise c e.1 e.2 .write .dispatcher
  | .ok l => ((r.2.writePieces l (clean (s.completionBytes sub))).2).recordDone c sub

/-- The records of a context that are due, until one waits for the host. -/
def State.writeRecords (s : State) (c : Nat) : State :=
  (s.ctx c).subs.foldl (fun s u => if s.recordDue c u && !s.dispatcherStalled c true then s.writeRecord c u else s) s

/-- A submission fails: the context halts, its tasks that have not started are discarded, and so are submissions of which
nothing is admitted, which are read again (R288). -/
def State.failSub (s : State) (c index : Nat) (e : SubEnd) : State :=
  let x := s.ctx c
  let idle := (x.tasks.filter fun t => !t.running).map (·.sub)
  let mark (u : Submission) : Submission :=
    if u.fail.isSome || u.done then u
    else if u.index = index || idle.contains u.index || (decide (0 < u.next) && decide (u.next < u.count)) then { u with fail := some e }
    else u
  let kept := (x.subs.map mark).filter fun u => u.fail.isSome || u.done || decide (0 < u.next)
  let again := (x.subs.filter fun u => u.next == 0 && u.index != index && !u.done && u.fail.isNone).map (·.index)
  let s1 := s.onCtx c fun x =>
    { x with subs := kept, tasks := x.tasks.filter (·.running), read := (again.head?).getD x.read }
  (if s.regAt Reg.CTX_STATE c = 1 then s1.setRegAt Reg.CTX_STATE c 2 else s1).writeRecords c

/-! ### Reading submissions -/

/-- The set of partitions' core counts of a mask, the largest first: cores of the set in one partition (R283). -/
def State.maxCoresInPart (s : State) (mask : Nat) : Nat :=
  ((List.range 8).map fun p => popCount 64 (mask &&& maskOf (s.coresOfPart p))).foldl max 0

/-- Reserved bits of a task descriptor: high and low ends of each field (R282). -/
def taskReserved : List (Nat × Nat) :=
  [(7, 2), (23, 19), (223, 210), (287, 274), (351, 338), (383, 370), (511, 416)]

/-- A task of a submission, from its descriptor (R282). -/
def Task.parse (id sub index : Nat) (bs : List Byte) : Task :=
  let d := leNat (fit 64 bs)
  { id := id, sub := sub, index := index, kind := fld d 1 0, spadBase := fld d 12 8, spadLen := fld d 18 13,
    trackerMax := fld d 31 24, entry := fld d 63 32, cores := fld d 127 64, arg := fld d 191 128,
    ins := (if bit d 209 then [(fld d 208 192, fld d 255 224)] else []) ++
      (if bit d 273 then [(fld d 272 256, fld d 319 288)] else []),
    outs := (if bit d 337 then [fld d 336 320] else []) ++ (if bit d 369 then [fld d 368 352] else []),
    taskId := fld d 415 384, running := false, error := none, passed := 0 }

/-- The reason with which a task is refused at load; 0 for none (R283). -/
def State.taskReason (s : State) (c : Nat) (bs : List Byte) : Nat :=
  let t := Task.parse 0 0 0 bs
  let d := leNat (fit 64 bs)
  let r := s.spadRange c
  if 32 < t.spadBase + t.spadLen ∨ t.spadBase < r.1 ∨ r.2 < t.spadBase + t.spadLen then 1
  else if (t.ins.map (·.1) ++ t.outs).any (fun n => !s.ownsSem c n) then 2
  else if s.regAt Reg.CTX_TRACKER_GRANT c < t.trackerMax * 16 * s.maxCoresInPart t.cores then 3
  else if t.cores = 0 ∨ t.cores &&& s.ownedCores c ≠ t.cores then 4
  else if t.kind = 3 ∨ taskReserved.any (fun f => fld d f.1 f.2 != 0) ∨ t.entry % 4 ≠ 0 then 5
  else if t.kind = 0 ∧ !(s.ctx c).image.any (fun i => decide (t.entry < i.codeLen)) then 8
  else 0

/-- The end of a refused submission (R283, R289). -/
def refusedEnd (reason index taskId : Nat) : SubEnd :=
  { outcome := 1, reason := reason, code := 0, index := index, taskId := taskId, core := 0xFF, pc := 0 }

/-- The first refusal among a graph's tasks (R283). -/
def State.graphRefusal (s : State) (c : Nat) (descs : List (List Byte)) : Option SubEnd :=
  (descs.zip (List.range descs.length)).findSome? fun p =>
    let r := s.taskReason c p.1
    if r = 0 then none else some (refusedEnd r p.2 (Task.parse 0 0 0 p.1).taskId)

/-- A submission entered after the ring entries already read. -/
def State.addSub (s : State) (c : Nat) (entry : List Byte) (descs : List (List Byte)) (fail : Option SubEnd) : State :=
  let i := (s.ctx c).read
  let u : Submission := { index := i, descs := descs, count := le 8 4 entry, vector := bit (le 12 1 entry) 0,
                          result := le 16 8 entry, next := 0, ended := 0, fail := fail, done := false }
  s.onCtx c fun x => { x with subs := x.subs ++ [u], read := (i + 1) % 2 ^ 32 }

/-- The ring tail of a context (R39). -/
def State.ringTail (s : State) (c : Nat) : Nat := Table.get s.hcp.tails 0 c

/-- A graph cut into its task descriptors. -/
def graphDescs (count : Nat) (bs : List Byte) : List (List Byte) := (List.range count).map fun k => slice (64 * k) 64 bs

/-- SUBMISSION_READ: the next ring entry and its graph are read and checked (R280, R281, R283). -/
def State.submissionRead (s : State) (c : Nat) : State :=
  let x := s.ctx c
  if !s.isOpen c || s.blk != .run || s.ringTail c == x.read || s.dispatcherStalled c false then s
  else
    let r := s.memRead (s.regAt Reg.CTX_RING_BASE c + 64 * (x.read % 2 ^ s.regAt Reg.CTX_RING_SIZE_LOG2 c)) 64
    let e := plain r.1
    let count := le 8 4 e
    if anyPoison r.1 then r.2.addSub c e [] (some (refusedEnd 7 0 0))
    else if count = 0 ∨ 65536 < count then r.2.addSub c e [] (some (refusedEnd 6 0 0))
    else if s.regAt Reg.CTX_ROUTE_STATE c ≠ 1 then r.2.addSub c e [] (some (refusedEnd 9 0 0))
    else
      let t := r.2.translateRange 0 c (le 0 8 e) (64 * count) .read false
      match t.1 with
      | .error f => t.2.xltRaise c f.1 f.2 .read .dispatcher
      | .ok l =>
        let g := t.2.readPieces l
        let descs := graphDescs count (plain g.1)
        if anyPoison g.1 then g.2.addSub c e [] (some (refusedEnd 7 0 0))
        else g.2.addSub c e descs (g.2.graphRefusal c descs)

/-- The host refuses a fault of the dispatcher: a read refuses the submission with GRAPH_FAULT, and a record is lost
(R281, R188). -/
def State.refuseDispatcher (s : State) (c : Nat) (write : Bool) : State :=
  if write then
    match (s.ctx c).subs.find? (fun u => s.recordDue c u) with
    | some u => s.recordDone c u
    | none => s
  else
    let r := s.memRead (s.regAt Reg.CTX_RING_BASE c + 64 * ((s.ctx c).read % 2 ^ s.regAt Reg.CTX_RING_SIZE_LOG2 c)) 64
    r.2.addSub c (plain r.1) [] (some (refusedEnd 7 0 0))

/-! ### Admission and starts -/

/-- The submission whose tasks are admitted next (R284). -/
def State.admitting? (s : State) (c : Nat) : Option Submission :=
  (s.ctx c).subs.find? fun u => !u.done && (decide (u.next < u.count) || u.fail.any (fun e => e.outcome == 1)) &&
    (u.fail.isNone || u.fail.any (fun e => e.outcome == 1))

/-- TASK_ADMIT: the next task of a context in ring and index order takes a task slot; a refused submission halts the
context instead (R284, R288, R499). -/
def State.taskAdmit (s : State) (c : Nat) : State :=
  if !s.isOpen c then s
  else
    match s.admitting? c with
    | none => s
    | some u =>
      if !(s.blk == .run || (s.blk == .drain && decide (0 < u.next))) then s
      else
        match u.fail with
        | some e => s.failSub c u.index e
        | none =>
          if s.regAt Reg.CTX_TASK_SLOTS c ≤ (s.ctx c).tasks.length then s
          else
            let t := Task.parse s.disp.nextTask u.index u.next ((u.descs[u.next]?).getD [])
            let s1 := (s.onDisp fun d => { d with nextTask := d.nextTask + 1 }).onSub c u.index fun v => { v with next := v.next + 1 }
            (s1.onCtx c fun x => { x with tasks := x.tasks ++ [t] }).progressed (contextKey c)

/-- The lowest-numbered core of a mask. -/
def lowestCore (mask : Nat) : Nat := ((bitsOf 64 mask).head?).getD 0

/-- The cores on which a task runs: every core of a PROGRAM task's set, the lowest of any other's (R282). -/
def Task.runsOn (t : Task) : List Nat := if t.kind = 0 then bitsOf 64 t.cores else [lowestCore t.cores]

/-- Whether a task is ready: its inputs are satisfied and its cores are owned (R286). -/
def State.taskReady (s : State) (c : Nat) (t : Task) : Bool :=
  !t.running && t.ins.all (fun p => decide (p.2 ≤ (s.sem p.1).toNat)) && t.cores &&& s.ownedCores c == t.cores

/-- Whether every core of a task's set runs nothing. -/
def State.coresFree (s : State) (t : Task) : Bool :=
  (bitsOf 64 t.cores).all fun n => (s.core n).run.isNone && !s.serving n

/-- Whether a context's tasks may start (R272, R286, R288). -/
def State.mayStart (s : State) (c : Nat) : Bool := s.isOpen c && (s.ctx c).zero.isNone

/-- The ready tasks of a context, oldest first. -/
def State.readyTasks (s : State) (c : Nat) : List Task :=
  if s.mayStart c then (s.ctx c).tasks.filter (s.taskReady c) else []

/-- The cores that a unit of rung 2 or 3 takes in (R447, R448). -/
def State.unitCores (s : State) : UnitName → List Nat
  | .engine n _ | .core n => [n]
  | .reduction p | .partition p => s.coresOfPart p
  | _ => []

/-- The cores on probation (R453). -/
def State.probationMask (s : State) : Nat := (s.flt.probation.map fun p => maskOf (s.unitCores p.unit)).getD 0

/-- Whether probation keeps a context's work from a set of cores: it is not the context's turn (R454). -/
def State.probationBars (s : State) (c cores : Nat) : Bool :=
  cores &&& s.probationMask != 0 && !(s.flt.probation.any fun p => p.turn == some c)

/-- The oldest ready tasks that 64 decisions have passed over: their cores stay idle for them (R286); not on cores in
probation (R454). -/
def State.starving (s : State) : List Task :=
  (List.range 64).filterMap fun c => ((s.readyTasks c).head?).filter fun t =>
    decide (64 ≤ t.passed) && t.cores &&& s.probationMask == 0

/-- Whether a starving task keeps a core of another task's set: the one passed over longer, then the older. -/
def keepsFrom (v t : Task) : Bool :=
  v.id != t.id && v.cores &&& t.cores != 0 &&
    (decide (t.passed < v.passed) || (t.passed == v.passed && decide (v.id < t.id)))

/-- Whether a ready task of a context can start now (R286, R454). -/
def State.startable (s : State) (c : Nat) (t : Task) : Bool :=
  s.coresFree t && !s.probationBars c t.cores && !s.starving.any fun v => keepsFrom v t

/-- Whether a core may take a service of a context: it is free, serves attention for the context, is still owned, and no
starving task keeps it (R353). -/
def State.mayServe (s : State) (c core : Nat) : Bool :=
  (s.regAt Reg.ATT_CORES c &&& s.ownedCores c).testBit core && (s.core core).run.isNone && !s.serving core &&
    !s.probationBars c (2 ^ core) && !s.starving.any fun v => v.cores.testBit core

/-- The Queued slot that starts next: the oldest, where a core may take it (R353). -/
def State.slotReady (s : State) (c : Nat) : Option AttSlot :=
  let queued := (s.ctx c).slots.filter fun a => a.phase == .queued
  if s.mayStart c && (List.range 64).any (s.mayServe c) then
    queued.find? fun a => queued.all fun b => decide (a.order ≤ b.order)
  else none

/-- The start decision: the context, and the task, or none for a Queued slot, which ranks before the context's tasks
(R286, R353). -/
def State.decision (s : State) : Option (Nat × Option Task) :=
  ((List.range 64).map fun k => (s.disp.ptr + k) % 64).findSome? fun c =>
    if (s.slotReady c).isSome then some (c, none)
    else ((s.readyTasks c).find? (s.startable c)).map fun t => (c, some t)

/-- A core is woken for work: an idle core is Active at once; a sleeping one asks for a wake token (R474, R476). -/
def State.wakeCore (s : State) (core : Nat) : State :=
  match s.regAt Reg.PWR_CORE_STATE core with
  | 1 => s.setRegAt Reg.PWR_CORE_STATE core 0
  | 2 => (s.setRegAt Reg.PWR_CORE_STATE core 3).onPwr fun p => { p with wakes := p.wakes ++ [core] }
  | _ => s

/-- The local offset of an image's home (R292). -/
def State.homeOf (s : State) (c : Nat) (i : Image) : Nat :=
  s.regAt (if i.homeA then Reg.CTX_IMAGE_HOME_A else Reg.CTX_IMAGE_HOME_B) c

/-- A core set up for an instance of a task (R282, R290, R387). -/
def State.setUpCore (s : State) (c : Nat) (t : Task) (pos core : Nat) : State :=
  let img := if t.kind = 0 then (s.ctx c).image else none
  let run : Running := {
    ctx := c, task := t.id, home := (img.map (s.homeOf c)).getD 0, codeLen := (img.map (·.codeLen)).getD 0,
    decl := (img.map (·.decl)).getD 0, step := s.regAt Reg.JOB_STEP c, seed := s.regAt Reg.CTX_JOB_SEED c,
    spadBase := t.spadBase * 65536, spadLen := t.spadLen * 65536, ended := none,
    arg := if t.kind = 0 then none else some t.arg, mmStart := (s.core core).mmBusy }
  let regs := [(1, pos), (2, t.arg), (3, t.index), (4, core)].foldl
    (fun (r : Table Word64) p => Table.put r 0 p.1 (BitVec.ofNat 64 p.2)) []
  let set (x : CoreState) : CoreState :=
    { x with regs := regs, pc := t.entry, windows := [], masks := [], cvs := List.replicate 8 .reset, stall := .none,
             run := some run, halt := .running, step := false, pass := false }
  ((s.onCore core set).wakeCore core).engineProgress core (if t.kind = 0 then .control else .dma)

/-- A task starts (R286). -/
def State.startTask (s : State) (c : Nat) (t : Task) : State :=
  let s1 := s.onTask c t.id fun t => { t with running := true, passed := 0 }
  let on := t.runsOn
  ((on.zip (List.range on.length)).foldl (fun s p => s.setUpCore c t p.2 p.1) s1).progressed (contextKey c)

/-- The oldest ready tasks of other contexts, and of this one, are passed over by a decision (R286). -/
def State.passOver (s : State) (t : Task) : State :=
  (List.range 64).foldl (fun r c =>
    match (s.readyTasks c).head? with
    | some v => if v.id = t.id then r else r.onTask c v.id fun v => { v with passed := v.passed + 1 }
    | none => r) s

/-- TASK_START: one start decision of the dispatcher (R286). -/
def State.taskStart (s : State) : State :=
  if s.blk ≠ .run ∧ s.blk ≠ .drain then s
  else
    match s.decision with
    | some (c, some t) => (((s.passOver t).startTask c t).onDisp fun d => { d with ptr := (c + 1) % 64 })
    | _ => s

/-- The descriptor of a DMA task read from the context offset of `ARG`, once its core is awake (R282). -/
def State.fetchArg (s : State) (core : Nat) : State :=
  match (s.core core).run.bind (·.arg) with
  | none => s
  | some a =>
    if !s.awake core || s.engineStalled core .dma || !(s.taskOf? core).any (fun t => t.kind == 1) then s
    else
      let c := s.ctxOfCore core
      let r := s.translateRange (s.partOfCore core) c a 64 .read false
      match r.1 with
      | .error e => r.2.xltRaise c e.1 e.2 .read (.engine core .dma)
      | .ok l =>
        let q := r.2.readPieces l
        let read (r : Running) : Running := { r with arg := none }
        let s1 := q.2.onCore core fun x => { x with run := x.run.map read, dq := x.dq ++ [plain q.1] }
        if anyPoison q.1 then s1.taskError core 0x52 else s1

/-! ### The end of a task -/

/-- The end code of a task, with the core and the program counter it names: the engine error, or the first non-zero END
by core number (R287). -/
def State.endOf (s : State) (t : Task) : Nat × Nat × Nat :=
  match t.error with
  | some e => e
  | none =>
    let bad := t.runsOn.find? fun n => ((s.core n).run.bind (·.ended)).any (· != 0)
    match bad with
    | some n => (0x100 + (((s.core n).run.bind (·.ended)).getD 0), n, (s.core n).pc)
    | none => (0, 0xFF, 0)

/-- Whether a task is over: an error has ended it, or every instance has executed END, or its DMA descriptor has ended
(R287). A COLLECTIVE task ends by itself (R331). -/
def State.taskOver (s : State) (t : Task) : Bool :=
  t.error.isSome ||
    (match t.kind with
     | 0 => t.runsOn.all fun n => ((s.core n).run.bind (·.ended)).isSome
     | 1 => t.runsOn.all fun n => ((s.core n).run.bind (·.arg)).isNone
     | _ => t.runsOn.all (fun n => ((s.core n).run.bind (·.arg)).isNone) &&
        !(s.ctx (s.ctxOfCore (lowestCore t.cores))).colls.any fun k => k.task == t.id)

/-- Whether the writes of a task's engines are performed (R247). -/
def State.taskQuiet (s : State) (t : Task) : Bool := t.runsOn.all fun n => s.enginesIdle n && s.farQuiet n

/-- A core freed by a task; it is Idle where nothing is left on it (R474). -/
def State.freeCore (s : State) (core : Nat) : State :=
  let s1 := s.onCore core fun x => { x with run := none, stall := .none, halt := .running, step := false, pass := false }
  let s2 := s1.onXlt fun x => { x with faults := x.faults.map fun f =>
    { f with who := f.who.filter fun w => match w with
        | .engine n _ => n != core | .element n _ => n != core | _ => true } }
  if s2.enginesIdle core && (s2.core core).tiles.isEmpty && s2.awake core then s2.setRegAt Reg.PWR_CORE_STATE core 1 else s2

/-- The old image leaves its home once no running task uses it (R295). -/
def State.releaseOld (s : State) (c : Nat) : State :=
  match (s.ctx c).old with
  | none => s
  | some i =>
    if (List.range 64).any (fun n => (s.core n).run.any fun r => r.ctx == c && r.home == s.homeOf c i && r.codeLen != 0) then s
    else (s.onCtx c fun x => { x with old := none }).setRegAt Reg.CTX_IMAGE_STATE c 2

/-- Admitted tasks that name a core no longer owned end with TASK_CORES (R277). -/
def State.coresCheck (s : State) (c : Nat) : State :=
  match (s.ctx c).tasks.find? (fun t => !t.running && t.cores &&& s.ownedCores c != t.cores) with
  | none => s
  | some t =>
    (s.onCtx c fun x => { x with tasks := x.tasks.filter (fun v => v.id != t.id) }).failSub c t.sub
      { outcome := 2, reason := 0, code := 0x63, index := t.index, taskId := t.taskId, core := 0xFF, pc := 0 }

/-- The task removed from its cores and its context, and its end traced for probation (R453). -/
def State.removeTask (s : State) (c : Nat) (t : Task) : State :=
  let s1 := t.runsOn.foldl State.freeCore s
  let traces := t.runsOn.map fun n => { ctx := c, core := n, kind := t.kind, time := s.tclk : TaskTrace }
  ((s1.onCtx c fun x => { x with tasks := x.tasks.filter (fun v => v.id != t.id) }).onFlt fun f =>
    { f with traces := f.traces ++ traces }).bumpBy (unitKey Reg.CTX_TASKS_ENDED c) 64 1

/-- A task of the suspect on turn ends successfully on the unit (R454). -/
def State.noteTurn (s : State) (c : Nat) (t : Task) : State :=
  if s.flt.probation.any (fun p => p.turn == some c) && maskOf t.runsOn &&& s.probationMask != 0 then
    s.onFlt fun f => { f with probation := f.probation.map fun p => { p with success := true } }
  else s

/-- What a task's end sets off: its outputs, its submission's record, or the failure (R287 to R289). -/
def State.finishTask (s : State) (c : Nat) (t : Task) : State :=
  let e := s.endOf t
  let s1 := (((s.removeTask c t).releaseOld c).onSub c t.sub fun u => { u with ended := u.ended + 1 }).progressed (contextKey c)
  let s2 := if e.1 = 0 then (t.outs.foldl (fun s n => s.addSem n 1) (s1.noteTurn c t)).syncChanged (some c)
    else s1.failSub c t.sub
      { outcome := 2, reason := 0, code := e.1, index := t.index, taskId := t.taskId, core := e.2.1, pc := e.2.2 }
  (s2.coresCheck c).writeRecords c

/-- TASK_END: a task that is over and whose engines' writes are performed ends (R247, R287). -/
def State.taskEnd (s : State) (core : Nat) : State :=
  match s.taskOf? core with
  | none => s
  | some t =>
    if !s.taskOver t || s.regAt Reg.CTX_STATE (s.ctxOfCore core) == 3 then s
    else
      let s1 := t.runsOn.foldl State.flushFar s
      if s1.taskQuiet t then s1.finishTask (s.ctxOfCore core) t else s1

/-- `CTX_CORES` written (R275, R277). -/
def State.ctxCoresAct (s : State) (c mask : Nat) : Status × State :=
  match s.regAt Reg.CTX_STATE c with
  | 0 => (.ok, s.setRegAt Reg.CTX_CORES c mask)
  | 1 =>
    let added := mask - (mask &&& s.regAt Reg.CTX_CORES c)
    let clash := (List.range 64).any fun y => y != c && s.holdsResources y && added &&& s.ownedCores y != 0 &&
      rangesMeet (s.spadRange c) (s.spadRange y)
    if 2 ^ s.build.cores ≤ added || clash then (.busy, s)
    else (.ok, (s.setRegAt Reg.CTX_CORES c mask).coresCheck c)
  | _ => (.busy, s)

/-! ### Zero-filling a context's memory -/

/-- `MEM_ZERO_GO` (R272, R273). -/
def State.memZeroGoAct (s : State) (c : Nat) : Status × State :=
  if (s.ctx c).zero.isSome || (s.ctx c).tasks.any (·.running) then (.busy, s)
  else
    let a := s.regAt Reg.MEM_ZERO_START c
    let z := (a, a + 65536 * (s.regAt Reg.MEM_ZERO_PAGES_M1 c + 1))
    (.ok, (s.onCtx c fun x => { x with zero := some z }).setRegAt Reg.MEM_ZERO_STATE c 1)

/-- Pages zeroed in order until one faults, whose offset is answered (R272). -/
def State.zeroPages (s : State) (c : Nat) : List (Nat × Nat) → Option Nat × State
  | [] => (none, s)
  | p :: rest =>
    let r := if 2 ^ 48 ≤ p.1 then ((.error (p.1, ⟨.notPresent, 1, 0⟩) : Except (Nat × WalkFault) (List (Nat × Nat))), s)
      else s.translateRange 0 c p.1 p.2 .write false
    match r.1 with
    | .error e => (some e.1, r.2)
    | .ok l => (l.foldl (fun s q => s.memZero q.1 q.2) r.2).zeroPages c rest

/-- MEM_ZERO_COMPLETE: the fill runs to its end, or to the first translation fault (R272). -/
def State.memZeroComplete (s : State) (c : Nat) : State :=
  match (s.ctx c).zero with
  | none => s
  | some z =>
    let r := s.zeroPages c (pageParts z.1 (z.2 - z.1))
    let s1 := r.2.onCtx c fun x => { x with zero := none }
    match r.1 with
    | none => s1.setRegAt Reg.MEM_ZERO_STATE c 2
    | some off => (s1.setRegAt Reg.MEM_ZERO_STATE c 3).setRegAt Reg.MEM_ZERO_FAULT c off

end Sys2Proof.Machine
end

