-- ==== Sys2Proof/Machine/Coll.lean ====
section
/-! DEFINITION. Exact collectives: the descriptor, the chunk protocol at owner and member, the gather, aborts, and the
ledger and capture records they cause (R299 to R340, R374 to R385). -/
namespace Sys2Proof.Machine
open Sys2Proof Sys2Proof.Bits

/-! ### The descriptor -/

/-- The fields of a collective descriptor (R299). -/
structure CollDesc where
  op : Nat
  kind : Nat
  inFmt : Nat
  outFmt : Nat
  sr : Bool
  sat : Bool
  ledger : Bool
  group : Nat
  inAddr : Nat
  outAddr : Nat
  tensor : Nat
  elems : Nat
  depth : Nat
  /-- Bits [17:0], which the hash covers. -/
  low : Nat
  reserved : Bool
  deriving DecidableEq, Repr

/-- A collective descriptor read from its 64 bytes (R299). -/
def CollDesc.parse (bs : List Byte) : CollDesc :=
  let v := leNat (fit 64 bs)
  { op := fld v 3 0, kind := fld v 7 4, inFmt := fld v 11 8, outFmt := fld v 15 12, sr := bit v 16, sat := bit v 17,
    ledger := bit v 18, group := fld v 43 32, inAddr := fld v 111 64, outAddr := fld v 175 128, tensor := fld v 223 192,
    elems := fld v 319 256, depth := fld v 323 320 + 1, low := fld v 17 0,
    reserved := fld v 31 19 + fld v 63 44 + fld v 127 112 + fld v 191 176 + fld v 255 224 + fld v 511 324 != 0 }

/-- The descriptor of a running collective. -/
def Coll.d (k : Coll) : CollDesc := CollDesc.parse k.desc

/-- Whether the operation is REDUCE_SCATTER. -/
def CollDesc.reduces (d : CollDesc) : Bool := d.op == 1

/-- Whether the formats obey R306. -/
def CollDesc.formatsOk (d : CollDesc) : Bool :=
  if !d.reduces then decide (d.inFmt ≤ 0xB) && (Float.elemBits d.inFmt != 4 || d.elems % 2 == 0)
  else match d.kind with
    | 1 => decide (d.inFmt ≤ 3 ∧ d.outFmt ≤ 3)
    | 2 => [7, 9, 10].contains d.inFmt && [7, 9, 10].contains d.outFmt
    | 3 => decide (d.inFmt ≤ 1) && d.outFmt == d.inFmt
    | 4 => decide (d.inFmt ≤ 1) && d.outFmt == d.inFmt
    | 5 => d.inFmt == 10 && d.outFmt == 10
    | 6 => d.inFmt == 10 && d.outFmt == 10
    | 7 => d.inFmt == 10 && d.outFmt == 10
    | 8 => d.inFmt == 10 && d.outFmt == 10
    | 9 => d.inFmt == 10 && d.outFmt == 10
    | _ => false

/-- The hash of a descriptor for a job of `n` ranks (R301). -/
def CollDesc.hash (d : CollDesc) (n : Nat) : Nat :=
  Crc.crc32c 0 (leBytes 4 d.low ++ leBytes 4 d.tensor ++ leBytes 8 d.elems ++ leBytes 4 n)

/-- Chunks of the tensor: *C* (R302). -/
def CollDesc.chunks (d : CollDesc) : Nat := ceilDiv d.elems 4096

/-- Chunks that each owner but the last holds: *Q* (R302). -/
def CollDesc.share (d : CollDesc) (n : Nat) : Nat := ceilDiv d.chunks n

/-- The chunks of a rank: the first, and one past the last (R302). -/
def CollDesc.owned (d : CollDesc) (n r : Nat) : Nat × Nat :=
  (min (r * d.share n) d.chunks, min (r * d.share n + d.share n) d.chunks)

/-- Elements of a chunk (R302). -/
def CollDesc.chunkElems (d : CollDesc) (k : Nat) : Nat := min 4096 (d.elems - 4096 * k)

/-- Bytes of a number of elements of a format. -/
def fmtBytes (fmt n : Nat) : Nat := n * Float.elemBits fmt / 8

/-- The format of the output as it lies in memory. -/
def CollDesc.storeFmt (d : CollDesc) : Nat := if d.reduces then d.outFmt else d.inFmt

/-- First element and element count of a rank's owned chunks. -/
def CollDesc.shard (d : CollDesc) (n r : Nat) : Nat × Nat :=
  let o := d.owned n r
  (4096 * o.1, min (4096 * o.2) d.elems - min (4096 * o.1) d.elems)

/-- Bytes of the input and of the output of a rank (R302). -/
def CollDesc.lengths (d : CollDesc) (n r : Nat) : Nat × Nat :=
  let mine := (d.shard n r).2
  if d.reduces then (fmtBytes d.inFmt d.elems, fmtBytes d.outFmt mine) else (fmtBytes d.inFmt mine, fmtBytes d.inFmt d.elems)

/-- Whether a chunk is owned by the member. -/
def Coll.owns (k : Coll) (chunk : Nat) : Bool := let o := k.d.owned k.n k.rank; decide (o.1 ≤ chunk ∧ chunk < o.2)

/-- Byte offset of a chunk in the member's input (R302). -/
def Coll.inOff (k : Coll) (chunk : Nat) : Nat :=
  let first := if k.d.reduces then 0 else (k.d.shard k.n k.rank).1
  fmtBytes k.d.inFmt (4096 * chunk - first)

/-- Byte offset of a chunk in the member's output (R302). -/
def Coll.outOff (k : Coll) (chunk : Nat) : Nat :=
  let first := if k.d.reduces then (k.d.shard k.n k.rank).1 else 0
  fmtBytes k.d.storeFmt (4096 * chunk - first)

/-- Slices of a chunk: 128 elements each (R315). -/
def CollDesc.slices (d : CollDesc) (k : Nat) : Nat := ceilDiv (d.chunkElems k) 128

/-- Gather pieces of a chunk: 2,048 bytes each (R325). -/
def CollDesc.pieces (d : CollDesc) (k : Nat) : Nat := ceilDiv (fmtBytes d.inFmt (d.chunkElems k)) 2048

/-! ### Pinned ranges -/

/-- The part of a list of pinned pieces that a byte range covers. -/
def subPieces : List (Nat × Nat) → Nat → Nat → List (Nat × Nat)
  | [], _, _ => []
  | (a, n) :: t, off, len =>
    if len = 0 then []
    else if n ≤ off then subPieces t (off - n) len
    else (a + off, min len (n - off)) :: subPieces t 0 (len - min len (n - off))

/-- The member's own input of a chunk. -/
def State.collInput (s : State) (k : Coll) (chunk : Nat) : List MByte × State :=
  s.readPieces (subPieces k.inp (k.inOff chunk) (fmtBytes k.d.inFmt (k.d.chunkElems chunk)))

/-- The elements of a chunk's bytes, each a lane of 32 bits with its poison mark (R223). -/
def chunkLanes (fmt : Nat) (bs : List MByte) : List (Nat × Bool) :=
  let w := Float.elemBits fmt / 8
  (List.range (bs.length / w)).map fun i =>
    let e := slice (w * i) w bs
    (Float.loadLane fmt (leNat (plain e)), anyPoison e)

/-- A list cut into parts of `n`. -/
def partsOf {α : Type} (n : Nat) (l : List α) : List (List α) := (List.range (ceilDiv l.length n)).map fun i => slice (n * i) n l

/-- The block bytes of a chunk: the largest exponent byte of each 32 elements (R307). -/
def blockBytes (lanes : List (Nat × Bool)) : List Byte :=
  fit 128 ((partsOf 32 lanes).map fun b => BitVec.ofNat 8 ((b.map fun x => expByte x.1).foldl max 0))

/-- An element as a tally or a value of a kind on the grid of *B* (R309). -/
def toTally (kind b v : Nat) : Option Tally :=
  match kind with
  | 1 => Tally.ofFloat v b
  | 2 => some (.fin (signed 32 v))
  | _ => some (.fin v)

/-- A member's blocks of a chunk; none where an exponent byte exceeds the agreed one (R309). -/
def contribution (kind : Nat) (agreed : List Byte) (lanes : List (Nat × Bool)) : Option (List Block) :=
  let parts := partsOf 32 lanes
  ((List.range parts.length).zip parts).mapM fun p =>
    let b := if kind = 1 then (agreed.getD p.1 0).toNat else 0xFF
    (p.2.mapM fun x => toTally kind b x.1).map fun l => { b := b, poison := p.2.any (·.2), elems := l : Block }

/-- The check of a slice as its sender computes it (R324). -/
def checkOf (kind : Nat) (blocks : List Block) : Nat := if kind ≤ 2 then sliceCheck (blockElems blocks) else 0

/-! ### Collectives of a context -/

/-- The collective of a context on a group. -/
def State.coll? (s : State) (c group : Nat) : Option Coll := (s.ctx c).colls.find? fun k => k.group == group

/-- A collective changed by a function. -/
def State.onColl (s : State) (c group : Nat) (f : Coll → Coll) : State :=
  s.onCtx c fun x => { x with colls := updFirst (fun k => k.group == group) f x.colls }

/-- An open chunk of a collective changed by a function. -/
def State.onChunk (s : State) (c group chunk : Nat) (f : Chunk → Chunk) : State :=
  s.onColl c group fun k => { k with open_ := updFirst (fun h => h.k == chunk) f k.open_ }

/-- The partition whose reduction store a collective uses. -/
def State.collPart (s : State) (k : Coll) : Nat := s.partOfCore k.core

/-- Progress of a collective: its reduction unit and its context (R440). -/
def State.collProgress (s : State) (k : Coll) : State :=
  (s.progressed (reductionKey (s.collPart k))).progressed (contextKey k.ctx)

/-- A reduction unit converts, adds or rounds: for how many cycles the spec does not say (R510). -/
def State.redBusy (s : State) : State := let r := s.drawNat; r.2.bumpBy Reg.OBS_RED_BUSY 64 r.1

/-- Bytes of the reduction store that a chunk reserves (R314). -/
def CollDesc.reserve (d : CollDesc) : Nat := if d.kind ≤ 2 then 65536 else 16384

/-- Bytes of a partition's reduction store in use. -/
def State.storeUsed (s : State) (part : Nat) : Nat :=
  ((List.range 64).map fun c =>
    (((s.ctx c).colls.filter fun k => s.collPart k == part).map fun k => k.open_.length * k.d.reserve).sum).sum

/-! ### Packets -/

/-- A multicast TALLY_EXP of a collective (R320, R321). -/
def State.expMcast (s : State) (k : Coll) (phase chunk count : Nat) (bytes : List Byte) : State :=
  s.sendPkt (some k.ctx) { s.dataPkt .tallyExp (s.jobOf k.ctx) k.group with
    mcast := true, tag := k.group, gen := k.alive, seq := phase, destOffset := chunk,
    payload := leBytes 1 phase ++ [0] ++ leBytes 2 k.rank ++ leBytes 4 count ++ leBytes 4 k.hash ++ zeros 4 ++ bytes }

/-- An EXP_UP to a chunk's owner (R315, R321). -/
def State.sendExpUp (s : State) (k : Coll) (dest chunk : Nat) (bytes : List Byte) : State :=
  s.sendPkt (some k.ctx) { s.dataPkt .tallyExp (s.jobOf k.ctx) dest with
    tag := k.group, gen := k.alive, seq := 2, destOffset := chunk,
    payload := leBytes 1 2 ++ [0] ++ leBytes 2 k.rank ++ leBytes 4 1 ++ leBytes 4 k.hash ++ zeros 4 ++ bytes }

/-- The COLL_ABORT of a collective (R325, R330). -/
def State.sendCollAbort (s : State) (k : Coll) (cause : Nat) : State :=
  s.sendPkt (some k.ctx) { s.ctlPkt .collAbort (s.jobOf k.ctx) k.group with
    mcast := true, tag := k.group, gen := k.alive, payload := leBytes 1 cause ++ [0] ++ leBytes 2 k.rank ++ zeros 4 }

/-! ### Records -/

/-- The parts of a chunk's flags that do not depend on how it came about (R373). -/
def Coll.baseFlags (k : Coll) : Nat :=
  let d := k.d
  (if d.reduces then 8 * ofBool d.sr + d.outFmt * 2 ^ 12 else 2 ^ 10 + d.inFmt * 2 ^ 12)

/-- Whether a capture window covers a chunk (R383). -/
def State.captures (s : State) (k : Coll) (w chunk : Nat) : Bool :=
  let u := 4 * k.ctx + w
  let first := s.regAt Reg.CAP_CHUNK_FIRST u
  let count := s.regAt Reg.CAP_CHUNK_COUNT u
  decide (first ≤ chunk) && (count == 0 || decide (chunk < first + count)) && (k.d.reduces || k.owns chunk)

/-- The window that matches a collective at its start (R383). -/
def State.captureWindow (s : State) (c tensor step : Nat) : Option Nat :=
  (List.range 4).find? fun w =>
    let u := 4 * c + w
    s.regAt Reg.CAP_ARM u == 1 && s.regAt Reg.CAP_TENSOR_ID u == tensor &&
      decide (s.regAt Reg.CAP_STEP_FIRST u ≤ step ∧ step ≤ s.regAt Reg.CAP_STEP_LAST u)

/-- A capture that its window's area does not hold (R385). -/
def State.captureMiss (s : State) (c w : Nat) : State :=
  let s1 := s.bumpAt Reg.CAP_MISSED (4 * c + w)
  if (s.ctx c).capMissed.contains w then s1
  else (s1.onCtx c fun x => { x with capMissed := setIns w x.capMissed }).raiseCtx .captureFull c w

/-- The capture record of a chunk, where a window asks for it: the flag bits it sets, and the state (R383 to R385). -/
def State.capture (s : State) (k : Coll) (chunk : Nat) (data : List MByte) : Nat × State :=
  match k.window with
  | none => (0, s)
  | some w =>
    if !s.captures k w chunk then (0, s)
    else
      let u := 4 * k.ctx + w
      let pad := (64 - data.length % 64) % 64
      let used := s.regAt Reg.CAP_USED u
      if s.regAt Reg.CAP_SIZE u < used + 64 + data.length + pad then (2 ^ 9, s.captureMiss k.ctx w)
      else
        let d := k.d
        let head := leBytes 4 k.step ++ leBytes 4 d.tensor ++ leBytes 4 chunk ++ leBytes 4 data.length ++
          leBytes 8 (ledgerDigest k.step d.tensor chunk (plain data)) ++ leBytes 2 k.rank ++ leBytes 1 (d.inFmt + 16 * d.op) ++
          leBytes 1 (ofBool (anyPoison data)) ++ leBytes 1 k.alive ++ zeros 35
        let s1 := (s.memWrite (s.regAt Reg.CAP_BASE u + used) (clean head ++ data ++ clean (zeros pad))).2
        (2 ^ 8, (s1.setRegAt Reg.CAP_USED u (used + 64 + data.length + pad)).bumpAt Reg.CAP_RECORDS u)

/-- A ledger record of a collective, counted where it was written (R374). -/
def State.collRecord (s : State) (k : Coll) (chunk flags result contrib : Nat) : State :=
  if !k.d.ledger then s
  else
    let s1 := s.ledgerRecord k.ctx k.step k.d.tensor chunk flags result contrib
    if s1.regAt Reg.LDG_PRODUCER k.ctx = s.regAt Reg.LDG_PRODUCER k.ctx then s1
    else s1.onColl k.ctx k.group fun k => { k with records := k.records + 1 }

/-- The record of a chunk that the member does not own in a REDUCE_SCATTER, with its capture (R374, R381, R383). -/
def State.sentRecord (s : State) (k : Coll) (chunk : Nat) (data : List MByte) (untagged : Bool) : State :=
  let c := s.capture k chunk data
  let p := anyPoison data
  let flags := k.baseFlags + c.1 + 2 * ofBool p + 32 * ofBool untagged + (if p then k.rank else 0xFFFF) * 2 ^ 16
  c.2.collRecord k chunk flags 0 (ledgerDigest k.step k.d.tensor chunk (plain data))

/-! ### Ends -/

/-- The task of a collective ends with an error code (R287, R330). -/
def State.collTaskError (s : State) (c core task code : Nat) : State :=
  s.onTask c task fun t => { t with error := t.error.orElse fun _ => some (code, core, 0) }

/-- A collective ended: it leaves the context. -/
def State.dropColl (s : State) (k : Coll) : State :=
  s.onCtx k.ctx fun x => { x with colls := x.colls.filter fun y => y.group != k.group }

/-- What an abort leaves: the last cause, rank and group, the count, the task's end and the fault (R329, R330, R339,
R340). -/
def State.collAborted (s : State) (c core task cause rank group : Nat) : State :=
  (((((s.setRegAt Reg.COLL_LAST_CAUSE c cause).setRegAt Reg.COLL_LAST_RANK c rank).setRegAt Reg.COLL_LAST_GROUP c group).bump
    Reg.COLL_ABORTS).collTaskError c core task 0x70).raiseCtx .collAbort c (cause + 2 ^ 16 * rank)

/-- A member aborts a collective with a cause and an originating rank; its own abort is multicast once (R330, R334). -/
def State.collAbort (s : State) (k : Coll) (cause rank : Nat) (send : Bool) : State :=
  let s1 := if send then s.sendCollAbort k cause else s
  let s2 := s1.collRecord k 0xFFFFFFFF (k.baseFlags + 16 + 0xFFFF * 2 ^ 16) (cause + rank * 2 ^ 8 + k.alive * 2 ^ 24) k.records
  ((s2.dropColl k).collAborted k.ctx k.core k.task cause rank k.group).collProgress k

/-- A collective as it stands now, by its context and group. -/
def State.withColl (s : State) (c group : Nat) (f : Coll → State) : State :=
  match s.coll? c group with
  | none => s
  | some k => f k

/-- Gather pieces that other owners owe a member. -/
def Coll.piecesDue (k : Coll) : Nat :=
  (((List.range k.d.chunks).filter fun i => !k.owns i).map k.d.pieces).sum

/-- Whether a collective has ended successfully (R316). -/
def Coll.finished (k : Coll) : Bool :=
  let o := k.d.owned k.n k.rank
  if k.d.reduces then decide (k.sliceSent.length + (o.2 - o.1) = k.d.chunks ∧ k.dones.length = k.n)
  else k.ownSent && decide (k.landed.length = k.piecesDue)

/-- A collective that has ended successfully leaves its context (R316, R375). -/
def State.collCheckEnd (s : State) (c group : Nat) : State :=
  s.withColl c group fun k => if k.finished then (s.dropColl k).collProgress k else s

/-- DONE is multicast once every owned chunk is closed (R314). -/
def State.collDone (s : State) (c group : Nat) : State :=
  s.withColl c group fun k =>
    let o := k.d.owned k.n k.rank
    if k.d.reduces && !k.doneSent && k.closed == o.2 - o.1 then
      (s.onColl c group fun k => { k with doneSent := true, dones := setIns k.rank k.dones }).expMcast k 4 0 0 []
    else s

/-! ### The owner -/

/-- The bytes of an element rounded to the output (R311): code, NaN flag. -/
def Coll.roundElem (k : Coll) (i b : Nat) (t : Tally) : Nat × Bool :=
  let d := k.d
  match d.kind with
  | 1 =>
    let mode := if d.sr then Float.Mode.sr (Float.draw k.seed k.step d.tensor i) else .rne
    let r := t.round b d.outFmt d.sat mode
    (r.1, r.2.1)
  | 2 => ((t.round 255 d.outFmt true .rne).1, false)
  | _ =>
    let v := t.word.toNat % 2 ^ 32
    match Float.floatOf d.outFmt with
    | some g => (g.encode false .rne (Float.dec v), Float.isNan v)
    | none => (v, false)

/-- The output bytes of a chunk, and whether an element is NaN (R311, R336). -/
def Coll.output (k : Coll) (h : Chunk) : List MByte × Bool :=
  let blocks := h.slices.flatMap fun e => e.2.blocks
  let size := fmtBytes k.d.outFmt 1
  ((List.range blocks.length).zip blocks).foldl (fun r p =>
    ((List.range p.2.elems.length).zip p.2.elems).foldl (fun r e =>
      let v := k.roundElem (4096 * h.k + 32 * p.1 + e.1) p.2.b e.2
      (r.1 ++ (leBytes size v.1).map fun x => (x, p.2.poison), r.2 || v.2)) r) ([], false)

/-- Whether every slice of an open chunk is complete (R314). -/
def Coll.chunkFull (k : Coll) (h : Chunk) : Bool :=
  h.agreed && h.slices.length == k.d.slices h.k && h.slices.all fun e => e.2.contrib == k.n

/-- Whether the checks of a complete chunk agree (R324). -/
def Coll.checksOk (k : Coll) (h : Chunk) : Bool :=
  decide (2 < k.d.kind) || h.slices.all fun e => sliceCheck (blockElems e.2.blocks) == e.2.check

/-- The record of an owned chunk that has closed (R374, R381). -/
def State.closedRecord (s : State) (k : Coll) (h : Chunk) (out : List MByte × Bool) (data : List MByte) : State :=
  let c := s.capture k h.k data
  let pois := h.slices.any fun e => e.2.blocks.any (·.poison)
  let prank := if pois && h.poisonRank == 0xFFFF then 0xFFFE else h.poisonRank
  let flags := k.baseFlags + c.1 + ofBool pois + 2 * ofBool (anyPoison data) + 4 * ofBool out.2 + 32 * ofBool h.untagged +
    64 * ofBool h.mismatch + prank * 2 ^ 16
  let s1 := if h.mismatch && k.d.ledger then c.2.bump Reg.LDG_MISMATCH else c.2
  let s2 := if h.mismatch && k.d.ledger && !k.mismatch then
      (s1.onColl k.ctx k.group fun k => { k with mismatch := true }).raiseCtx .ledgerStepMismatch k.ctx k.d.tensor
    else s1
  s2.collRecord k h.k flags (ledgerDigest k.step k.d.tensor h.k (plain out.1)) (ledgerDigest k.step k.d.tensor h.k (plain data))

/-- A complete chunk checked, rounded, written and closed (R314, R324). -/
def State.closeChunk (s : State) (c group chunk : Nat) : State :=
  s.withColl c group fun k =>
    match k.open_.find? fun h => h.k == chunk with
    | none => s
    | some h =>
      if !k.chunkFull h then s
      else if !k.checksOk h then
        ((s.bump Reg.COLL_CHECK_FAILS).raiseCtx .collCheck c chunk).collAbort k 5 k.rank true
      else
        let out := k.output h
        let s1 := (s.writePieces (subPieces k.out (k.outOff chunk) out.1.length) out.1).2
        let r := s1.collInput k chunk
        let s2 := r.2.closedRecord k h out r.1
        let shut (k : Coll) : Coll := { k with open_ := k.open_.filter (fun y => y.k != chunk), closed := k.closed + 1 }
        ((s2.onColl c group shut).collDone c group).collCheckEnd c group

/-- The owner's own slices added to a chunk whose exponents are agreed (R314); an exponent byte above the agreed one
aborts (R309). -/
def State.addOwn (s : State) (c group chunk : Nat) : State :=
  s.withColl c group fun k =>
    match k.open_.find? fun h => h.k == chunk with
    | none => s
    | some h =>
      let r := s.collInput k chunk
      match contribution k.d.kind h.expBytes (chunkLanes k.d.inFmt r.1) with
      | none => r.2.collAbort k 4 k.rank true
      | some blocks =>
        let parts := partsOf 4 blocks
        let sums : Table SliceSum := ((List.range parts.length).zip parts).map fun p =>
          (p.1, { contrib := 1, check := checkOf k.d.kind p.2, blocks := p.2 })
        (r.2.redBusy.onChunk c group chunk fun h => { h with agreed := true, slices := sums }).closeChunk c group chunk

/-- The exponent step of a chunk ends once every member's bytes are in: EXP_DOWN goes out (R314). -/
def State.agree (s : State) (c group chunk : Nat) : State :=
  s.withColl c group fun k =>
    match k.open_.find? fun h => h.k == chunk with
    | none => s
    | some h =>
      if h.agreed || h.expContrib != k.n then s
      else (s.expMcast k 3 chunk 0 h.expBytes).addOwn c group chunk

/-- CHUNK_OPEN: an owner opens its next chunk (R314). -/
def State.chunkOpen (s : State) (c group chunk : Nat) : State :=
  s.withColl c group fun k =>
    let o := k.d.owned k.n k.rank
    if !k.d.reduces || chunk != o.1 + k.next || decide (o.2 ≤ chunk) || decide (k.d.depth ≤ k.open_.length) then s
    else if 1048576 < s.storeUsed (s.collPart k) + k.d.reserve then
      if k.waited then s else (s.onColl c group fun k => { k with waited := true }).bump Reg.COLL_STORE_WAITS
    else
      let r := s.collInput k chunk
      let poison := anyPoison r.1
      let h : Chunk := { k := chunk, expContrib := 1, expBytes := blockBytes (chunkLanes k.d.inFmt r.1), agreed := false, slices := [],
                         untagged := false, mismatch := false, poisonRank := if poison then k.rank else 0xFFFF }
      let s1 := r.2.onColl c group fun k => { k with next := k.next + 1, open_ := k.open_ ++ [h], waited := false }
      let s2 := (s1.expMcast k 1 chunk 1 []).collProgress k
      if k.d.kind = 1 then s2.agree c group chunk else s2.addOwn c group chunk

/-! ### The member -/

/-- The tag block of a slice (R379). -/
def Coll.tagBlock (k : Coll) (poison : Bool) : List Byte :=
  leBytes 4 k.step ++ leBytes 2 (if poison then k.rank else 0xFFFF) ++ zeros 2

/-- One slice sent to a chunk's owner, tagged where R379 has it; whether it went untagged. -/
def State.sendSlice (s : State) (k : Coll) (dest chunk index : Nat) (blocks : List Block) : Bool × State :=
  let elems := blockElems blocks
  let body := sliceBytes 1 elems.length k.d.kind (checkOf k.d.kind blocks) blocks
  let p : Packet := { s.dataPkt .tallyChunk (s.jobOf k.ctx) dest with
    tag := k.group, gen := k.alive, seq := index, destOffset := chunk, payload := body }
  let tagged : Packet := { p with ltag := true, payload := k.tagBlock (blocks.any (·.poison)) ++ body }
  let able := match s.path tagged with | .ports _ => true | _ => false
  if k.d.ledger && s.flag Reg.LDG_TAG_ENABLE && able then (false, s.sendPkt (some k.ctx) tagged)
  else (true, (if k.d.ledger then s.bump Reg.LDG_UNTAGGED else s).sendPkt (some k.ctx) p)

/-- The slices of a chunk sent to its owner, and the chunk's record (R315, R374). -/
def State.sendSlices (s : State) (c group chunk dest : Nat) (agreed : List Byte) : State :=
  s.withColl c group fun k =>
    if k.owns chunk || k.sliceSent.contains chunk then s
    else
      let r := s.collInput k chunk
      match contribution k.d.kind agreed (chunkLanes k.d.inFmt r.1) with
      | none => r.2.collAbort k 4 k.rank true
      | some blocks =>
        let parts := partsOf 4 blocks
        let sent := ((List.range parts.length).zip parts).foldl (fun (q : Bool × State) p =>
          let x := q.2.sendSlice k dest chunk p.1 p.2
          (q.1 || x.1, x.2)) (false, r.2.redBusy)
        let s1 := sent.2.onColl c group fun k => { k with sliceSent := setIns chunk k.sliceSent }
        ((s1.sentRecord k chunk r.1 sent.1).collProgress k).collCheckEnd c group

/-- A granted chunk: EXP_UP for FSUM, slices for any other kind (R315). -/
def State.takeGrantOf (s : State) (c group dest chunk : Nat) : State :=
  s.withColl c group fun k =>
    if k.owns chunk || k.expSent.contains chunk then s
    else if k.d.chunks ≤ chunk then s.collAbort k 4 k.rank true
    else
      let s1 := s.onColl c group fun k => { k with expSent := setIns chunk k.expSent }
      if k.d.kind = 1 then
        let r := s1.collInput k chunk
        (r.2.sendExpUp k dest chunk (blockBytes (chunkLanes k.d.inFmt r.1))).collProgress k
      else s1.sendSlices c group chunk dest []

/-- The chunks that a GRANT names (R321). -/
def grantChunks (p : Packet) (limit : Nat) : List Nat := (List.range (min (le 4 4 p.payload) limit)).map (· + p.destOffset)

/-- A GRANT applied to a running collective. -/
def State.applyGrant (s : State) (c : Nat) (p : Packet) : State :=
  s.withColl c (p.tag % 4096) fun k =>
    (grantChunks p (k.d.chunks + 1)).foldl (fun s i => s.takeGrantOf c k.group p.src i) s

/-! ### Arriving packets -/

/-- The hash that a collective packet carries (R321, R325); a slice and an abort carry none. -/
def Packet.collHash? (p : Packet) : Option Nat :=
  match p.op with
  | .tallyExp => some (le 8 4 p.payload)
  | .gatherChunk => some (le 0 4 p.payload)
  | _ => none

/-- A collective packet matched with its running collective: stale packets are counted, and another descriptor's hash
aborts (R301, R319). -/
def State.collPacket (s : State) (p : Packet) (f : Nat → Coll → State) : State :=
  match s.ctxOfJob? p.job with
  | none => s
  | some c =>
    match s.coll? c (p.tag % 4096) with
    | none => s.bump Reg.COLL_STALE
    | some k =>
      if k.alive ≠ p.gen then s.bump Reg.COLL_STALE
      else if p.collHash?.any (· != k.hash) then s.collAbort k 3 k.rank true
      else f c k

/-- Whether a TALLY_EXP is well formed for its phase (R321). -/
def Packet.expOk (p : Packet) (phase : Nat) : Bool := p.seq == phase && le 0 1 p.payload == phase

/-- Entries of the early-grant store of a partition: 1,024 (R318). -/
def State.earlyUsed (s : State) (part : Nat) : Nat := (s.disp.early.filter fun e => e.1 == part).length

/-- The partition that keeps a context's early GRANTs: that of its lowest core. -/
def State.earlyPart (s : State) (c : Nat) : Nat := s.partOfCore (lowestCore (s.regAt Reg.CTX_CORES c))

/-- Whether a GRANT is for the context's next collective on its group: `ALIVE` is one above the counter (R318). -/
def State.grantEarly (s : State) (c : Nat) (p : Packet) : Bool :=
  p.gen == (Table.get (s.ctx c).alives 0 (p.tag % 4096) + 1) % 256

/-- GRANT_RECEIVE (R315, R318). -/
def State.takeCollGrant (s : State) (p : Packet) : State :=
  match s.ctxOfJob? p.job with
  | none => s
  | some c =>
    if s.grantEarly c p then
      let part := s.earlyPart c
      if 1024 ≤ s.earlyUsed part then s.bump Reg.COLL_EARLY_DROPPED
      else if s.disp.early.contains (part, p) then s
      else s.onDisp fun d => { d with early := d.early ++ [(part, p)] }
    else
      s.collPacket p fun c k =>
        if !p.expOk 1 || !k.d.reduces then s.collAbort k 4 k.rank true else (s.collProgress k).applyGrant c p

/-- EXP_UP_RECEIVE (R314, R326). -/
def State.takeExpUp (s : State) (p : Packet) : State :=
  s.collPacket p fun c k =>
    match k.open_.find? fun h => h.k == p.destOffset with
    | none => s.collAbort k 4 k.rank true
    | some h =>
      let n := le 4 4 p.payload
      if !p.expOk 2 || k.d.kind != 1 || h.agreed || decide (k.n < h.expContrib + n) then s.collAbort k 4 k.rank true
      else
        let join (h : Chunk) : Chunk := { h with expContrib := h.expContrib + n, expBytes :=
          (h.expBytes.zip (fit 128 (p.payload.drop 16))).map fun e => if e.1.toNat < e.2.toNat then e.2 else e.1 }
        ((s.onChunk c k.group h.k join).collProgress k).agree c k.group h.k

/-- EXP_DOWN_RECEIVE (R315). -/
def State.takeExpDown (s : State) (p : Packet) : State :=
  s.collPacket p fun c k =>
    if !p.expOk 3 || !k.d.reduces || k.d.kind != 1 || decide (k.d.chunks ≤ p.destOffset) then s.collAbort k 4 k.rank true
    else (s.collProgress k).sendSlices c k.group p.destOffset p.src (fit 128 (p.payload.drop 16))

/-- DONE_RECEIVE (R316). -/
def State.takeDone (s : State) (p : Packet) : State :=
  s.collPacket p fun c k =>
    if !p.expOk 4 || !k.d.reduces || decide (k.n ≤ le 2 2 p.payload) then s.collAbort k 4 k.rank true
    else ((s.onColl c k.group fun k => { k with dones := setIns (le 2 2 p.payload) k.dones }).collProgress k).collCheckEnd c k.group

/-- TALLY_CHUNK_RECEIVE (R314, R323, R326, R381). -/
def State.takeSlice (s : State) (p : Packet) : State :=
  s.collPacket p fun c k =>
    let bad := s.collAbort k 4 k.rank true
    match k.open_.find? fun h => h.k == p.destOffset with
    | none => bad
    | some h =>
      let body := if p.ltag then p.payload.drop 8 else p.payload
      let want := min 128 (k.d.chunkElems h.k - 128 * p.seq)
      match List.find? (fun e : Nat × SliceSum => e.1 == p.seq) h.slices with
      | none => bad
      | some e =>
        let n := le 0 4 body
        let elems := le 4 1 body + 1
        if !h.agreed || elems != want || le 5 1 body != k.d.kind || decide (k.n < e.2.contrib + n) then bad
        else
          match addBlocks k.d.kind e.2.blocks (parseBlocks k.d.kind elems body) with
          | none => bad
          | some sum =>
            let x : SliceSum := { contrib := e.2.contrib + n, blocks := sum,
                                  check := if k.d.kind ≤ 2 then (e.2.check + le 8 8 body) % (2 ^ 64 - 1) else 0 }
            let join (h : Chunk) : Chunk :=
              { h with slices := Table.insert h.slices p.seq x, untagged := h.untagged || !p.ltag,
                       mismatch := h.mismatch || (p.ltag && le 0 4 p.payload != k.step),
                       poisonRank := if p.ltag then min h.poisonRank (le 4 2 p.payload) else h.poisonRank }
            ((s.redBusy.onChunk c k.group h.k join).collProgress k).closeChunk c k.group h.k

/-- The record of a gathered chunk, once all of it is in the output (R374). -/
def State.gatheredRecord (s : State) (k : Coll) (chunk : Nat) (data : Option (List MByte)) : State :=
  let r := s.readPieces (subPieces k.out (k.outOff chunk) (fmtBytes k.d.inFmt (k.d.chunkElems chunk)))
  let c := match data with | some d => r.2.capture k chunk d | none => (0, r.2)
  let p := data.any anyPoison
  let flags := k.baseFlags + c.1 + ofBool (anyPoison r.1) + 2 * ofBool p + (if p then k.rank else 0xFFFF) * 2 ^ 16
  c.2.collRecord k chunk flags (ledgerDigest k.step k.d.tensor chunk (plain r.1))
    ((data.map fun d => ledgerDigest k.step k.d.tensor chunk (plain d)).getD 0)

/-- GATHER_CHUNK_RECEIVE: a piece lands in the pinned output (R325). -/
def State.takeGather (s : State) (p : Packet) : State :=
  s.collPacket p fun c k =>
    let bytes := p.payload.drop 16
    let size := fmtBytes k.d.inFmt 4096
    let chunk := p.destOffset / size
    let piece := p.destOffset % size / 2048
    if k.d.reduces || decide (fmtBytes k.d.inFmt k.d.elems < p.destOffset + bytes.length) || bytes.isEmpty then
      s.collAbort k 4 k.rank true
    else
      let s1 := (s.writePieces (subPieces k.out p.destOffset bytes.length) (clean bytes)).2
      let key := 8 * chunk + piece
      if k.owns chunk || k.landed.contains key then s1
      else
        let now := setIns key k.landed
        let s2 := (s1.onColl c k.group fun k => { k with landed := now }).collProgress k
        let whole := (List.range (k.d.pieces chunk)).all fun i => now.contains (8 * chunk + i)
        (if whole then s2.gatheredRecord k chunk none else s2).collCheckEnd c k.group

/-- COLL_ABORT_RECEIVE: the received cause and rank are recorded, and nothing is sent (R330). -/
def State.takeCollAbort (s : State) (p : Packet) : State :=
  s.collPacket p fun _ k => s.collAbort k (le 0 1 p.payload) (le 2 2 p.payload) false

/-! ### The start -/

/-- The pieces of one owned chunk multicast (R320, R325). -/
def State.sendPieces (s : State) (k : Coll) (chunk : Nat) (data : List Byte) : State :=
  (List.range (k.d.pieces chunk)).foldl (fun s i =>
    s.sendPkt (some k.ctx) { s.dataPkt .gatherChunk (s.jobOf k.ctx) k.group with
      mcast := true, tag := k.group, gen := k.alive, seq := i, destOffset := k.outOff chunk + 2048 * i,
      payload := leBytes 4 k.hash ++ leBytes 2 k.rank ++ zeros 10 ++ slice (2048 * i) 2048 data }) s

/-- A member's own shard of an ALL_GATHER copied to its output and multicast (R302, R316). -/
def State.gatherOwn (s : State) (c group : Nat) : State :=
  s.withColl c group fun k =>
    let o := k.d.owned k.n k.rank
    let s1 := ((List.range (o.2 - o.1)).map (· + o.1)).foldl (fun s i =>
      let r := s.collInput k i
      let s2 := (r.2.writePieces (subPieces k.out (k.outOff i) r.1.length) r.1).2
      (s2.sendPieces k i (plain r.1)).gatheredRecord k i (some r.1)) s
    (s1.onColl c group fun k => { k with ownSent := true }).collCheckEnd c group

/-- The early GRANTs of a collective that has started are applied (R318). -/
def State.applyEarly (s : State) (k : Coll) : State :=
  let mine (e : Nat × Packet) : Bool := e.2.job == s.jobOf k.ctx && e.2.tag % 4096 == k.group && e.2.gen == k.alive
  let l := s.disp.early.filter mine
  let s1 := s.onDisp fun d => { d with early := d.early.filter fun e => !mine e }
  l.foldl (fun s e => s.takeCollGrant e.2) s1

/-- Whether a multicast entry serves a context's collectives (R300). -/
def State.groupOk (s : State) (c group : Nat) : Bool :=
  let e := s.mcastEntry group
  bit e 13 && bit e 12 && fld e 11 0 == s.jobOf c

/-- Whether every rank of a context is valid (R300). -/
def State.ranksOk (s : State) (c : Nat) : Bool × State :=
  let r := s.readRanks c
  (r.1.all fun e => rankValid e.1 && !e.2, r.2)

/-- Whether a descriptor is refused with cause DESC, the rank table and the group apart (R300). -/
def CollDesc.refused (d : CollDesc) (n r : Nat) : Bool :=
  d.reserved || (d.op != 1 && d.op != 2) || !d.formatsOk || d.elems == 0 || decide (2 ^ 40 < d.elems) ||
    decide (2 ^ 48 < d.inAddr + (d.lengths n r).1 ∨ 2 ^ 48 < d.outAddr + (d.lengths n r).2)

/-- A collective that has taken its `ALIVE` (R303). -/
def State.freshColl (s : State) (c core task : Nat) (bs : List Byte) (r : Running) : Coll :=
  let d := CollDesc.parse bs
  let n := s.regAt Reg.CTX_RANK_COUNT c
  { ctx := c, core := core, task := task, desc := fit 64 bs, group := d.group,
    alive := (Table.get (s.ctx c).alives 0 d.group + 1) % 256, hash := d.hash n, n := n, rank := s.regAt Reg.CTX_OWN_RANK c,
    step := r.step, seed := r.seed, inp := [], out := [], next := 0, closed := 0, open_ := [], waited := false, expSent := [],
    sliceSent := [], dones := [], doneSent := false, landed := [], ownSent := false, records := 0,
    window := s.captureWindow c d.tensor r.step, mismatch := false }

/-- The alive counter of a collective's group taken, and the task's descriptor read (R303). -/
def State.takeAlive (s : State) (k : Coll) : State :=
  ((s.onCtx k.ctx fun x => { x with alives := Table.put x.alives 0 k.group k.alive }).onCore k.core fun x =>
    { x with run := x.run.map fun r => { r with arg := none } }).bump Reg.COLL_STARTED

/-- A collective refused before it runs: it aborts, and its abort is multicast where its group allows (R300, R330). -/
def State.collRefused (s : State) (k : Coll) (cause : Nat) : State :=
  (s.takeAlive k).collAbort k cause k.rank (s.groupOk k.ctx k.group)

/-- A collective runs: its ranges are pinned (R305). -/
def State.collRun (s : State) (k : Coll) : State :=
  let s1 := (((s.takeAlive k).onCtx k.ctx fun x => { x with colls := x.colls ++ [k] }).collProgress k).applyEarly k
  if k.d.reduces then (s1.collDone k.ctx k.group).collCheckEnd k.ctx k.group else s1.gatherOwn k.ctx k.group

/-- The core of a COLLECTIVE task that runs and whose descriptor is still to be read, with its running task. -/
def State.collTask? (s : State) (c task : Nat) : Option (Nat × Running × Nat) :=
  match (s.ctx c).tasks.find? fun t => t.id == task && t.kind == 2 && t.running && t.error.isNone with
  | none => none
  | some t =>
    let core := lowestCore t.cores
    match (s.core core).run with
    | none => none
    | some r => r.arg.map fun a => (core, r, a)

/-- COLLECTIVE_START: the descriptor is read and checked, `ALIVE` taken and the ranges pinned; a collective in progress
on the group, or a fault, makes it wait (R299 to R305). -/
def State.collStart (s : State) (c task : Nat) : State :=
  match s.collTask? c task with
  | none => s
  | some (core, r, a) =>
    if !s.awake core || s.engineStalled core .reduction then s
    else
      let part := s.partOfCore core
      let who := Accessor.engine core .reduction
      let t := s.translateParts part c a 64 .read false
      match t.1 with
      | .error e => t.2.xltRaise c e.1 e.2 .read who
      | .ok l =>
        let q := t.2.readPieces l
        let k := q.2.freshColl c core task (plain q.1) r
        let d := k.d
        if (q.2.ctx c).colls.any (fun y => y.group == d.group) then s
        else
          let s1 := q.2.countRange part c a 64 .read
          let ranks := s1.ranksOk c
          if anyPoison q.1 || d.refused k.n k.rank || !ranks.1 || !s1.groupOk c d.group then ranks.2.collRefused k 2
          else
            let i := ranks.2.translateRange part c d.inAddr (d.lengths k.n k.rank).1 .read false
            match i.1 with
            | .error e => i.2.xltRaise c e.1 e.2 .read who
            | .ok inp =>
              let o := i.2.translateRange part c d.outAddr (d.lengths k.n k.rank).2 .write false
              match o.1 with
              | .error e => o.2.xltRaise c e.1 e.2 .write who
              | .ok out => o.2.collRun { k with inp := inp, out := out }

/-- A refused fault of a reduction unit: the collective that its core's task was starting aborts with FAULT (R305). -/
def State.collFault (s : State) (core : Nat) : State :=
  match (s.core core).run with
  | none => s
  | some r =>
    match s.collTask? r.ctx r.task with
    | none => s
    | some (_, _, a) =>
      let t := s.translateParts (s.partOfCore core) r.ctx a 64 .read false
      match t.1 with
      | .ok l => let q := t.2.readPieces l; q.2.collRefused (q.2.freshColl r.ctx core r.task (plain q.1) r) 8
      | .error _ =>
        (t.2.onCore core fun x => { x with run := x.run.map fun r => { r with arg := none } }).collAborted r.ctx core r.task 8
          (t.2.regAt Reg.CTX_OWN_RANK r.ctx) 0

/-- COLL_NOTICE_REPEAT: an owner's incomplete GRANTs and EXP_DOWNs, and the member's DONE, again (R317). -/
def State.collRepeat (s : State) (c group : Nat) : State :=
  s.withColl c group fun k =>
    let s1 := k.open_.foldl (fun s h =>
      let g := s.expMcast k 1 h.k 1 []
      if k.d.kind = 1 && h.agreed then g.expMcast k 3 h.k 0 h.expBytes else g) s
    if k.doneSent then s1.expMcast k 4 0 0 [] else s1

/-- COLL_TIMEOUT: the progress timer of a member expires (R328). -/
def State.collTimeout (s : State) (c group : Nat) : State := s.withColl c group fun k => s.collAbort k 1 k.rank true

/-- A failed packet of a collective, whether a NEG_COMPLETION or the derailleur answers it (R329, R331). -/
def State.collFailed (s : State) (job tag gen reason : Nat) : State :=
  match s.ctxOfJob? job with
  | none => s
  | some c =>
    match s.coll? c (tag % 4096) with
    | none => s
    | some k =>
      if k.alive ≠ gen then s
      else if reason = 1 ∨ reason = 2 then s.collAbort k 6 k.rank true
      else if reason = 3 ∨ reason = 4 then s.collAbort k 7 k.rank true
      else s

/-- Every collective of a context that is being reset aborts (R334). -/
def State.collReset (s : State) (c : Nat) : State := (s.ctx c).colls.foldl (fun s k => s.collAbort k 9 k.rank true) s

end Sys2Proof.Machine
end

