-- ==== Sys2Proof/Machine/Matrix.lean ====
section
/-! DEFINITION. The matrix engine: descriptors, the exact block sums and the accumulator banks (R213 to R219, R237). -/
namespace Sys2Proof.Machine
open Sys2Proof Sys2Proof.Bits

/-- The elements of packed bytes, for an element of `bits` bits (R208). -/
def unpack (bits : Nat) (bs : List Byte) : List Nat :=
  if bits = 4 then bs.flatMap fun b => [fld b.toNat 3 0, fld b.toNat 7 4]
  else go bs (bs.length + 1)
where
  /-- Elements of the rest. -/
  go : List Byte → Nat → List Nat
    | _, 0 => []
    | [], _ => []
    | b :: bs, f + 1 => leNat ((b :: bs).take (bits / 8)) :: go ((b :: bs).drop (bits / 8)) f

/-- A list cut into pieces of `n`. -/
def chunksOf {α : Type} (n : Nat) (l : List α) : List (List α) := go l (l.length + 1)
where
  /-- Pieces of the rest. -/
  go : List α → Nat → List (List α)
    | _, 0 => []
    | [], _ => []
    | x :: xs, f + 1 => (x :: xs).take n :: go ((x :: xs).drop n) f

/-- The class of a pair of formats (R215): 0 refused, 1 4-bit float, 2 4-bit integer, 3 8-bit float, 4 8-bit integer,
5 BF16. -/
def mmClass (a b : Nat) : Nat :=
  let f8 (x : Nat) : Bool := decide (2 ≤ x ∧ x ≤ 5)
  if a = 6 ∧ b = 6 then 1 else if a = 8 ∧ b = 8 then 2 else if f8 a && f8 b then 3 else if a = 7 ∧ b = 7 then 4
  else if a = 1 ∧ b = 1 then 5 else 0

/-- CCLK cycles that one *k* block occupies the array (R216). -/
def mmCycles (cls : Nat) : Nat := if cls ≤ 2 then 16 else if cls = 5 then 128 else 32

/-- One product of a block: its sign when it is infinite, or the exact integer at the base exponent; none for NaN. -/
inductive Prod where
  | nan
  | inf (neg : Bool)
  | fin (n : Int)
  deriving DecidableEq, Repr

/-- The product of two elements at a base exponent (R217, R218). -/
def mulVal (base : Int) : Float.Val → Float.Val → Prod
  | .nan, _ => .nan
  | _, .nan => .nan
  | .inf n, .inf m => .inf (n != m)
  | .inf n, .fin m x _ => if x = 0 then .nan else .inf (n != m)
  | .fin n x _, .inf m => if x = 0 then .nan else .inf (n != m)
  | .fin n x ex, .fin m y ey => .fin (Float.sig (n != m) (x * y) * 2 ^ (ex + ey - base).toNat)

/-- The block sum's products added: a NaN, an infinity of one sign, or the exact integer (R218). -/
def addProd : Prod → Prod → Prod
  | .nan, _ => .nan
  | _, .nan => .nan
  | .inf a, .inf b => if a = b then .inf a else .nan
  | .inf a, .fin _ => .inf a
  | .fin _, .inf b => .inf b
  | .fin a, .fin b => .fin (a + b)

/-- The exact sum of the products of a block of 32 (R217). -/
def blockSum (base : Int) (a b : List Float.Val) : Prod :=
  (a.zip b).foldl (fun r p => addProd r (mulVal base p.1 p.2)) (.fin 0)

/-- One step of a float accumulator: the block sum scaled exactly and added with one rounding (R217, R218). -/
def accStep (base : Int) (acc : Nat) (p : Prod) (sa sb : Nat) : Nat :=
  if Float.isNan acc ∨ sa = 255 ∨ sb = 255 then Float.nan32
  else match p with
    | .nan => Float.nan32
    | .inf neg => if Float.isInf acc && decide (acc ≠ Float.inf32 neg) then Float.nan32 else Float.inf32 neg
    | .fin n =>
      match Float.dec acc with
      | .fin k m e => let t := Float.addExact (Float.sig k m) e n (base + sa + sb - 254); Float.ofInt t.1 t.2 false
      | _ => acc

/-- One row or column of an operand: its blocks of 32 elements, each with its scale byte. -/
abbrev Blocks := List (List Float.Val × Nat)

/-- The blocks of a float operand's row. -/
def floatBlocks (fmt : Nat) (elems scales : List Nat) : Blocks :=
  match Float.floatOf fmt with
  | none => []
  | some g => ((chunksOf 32 elems).zip scales).map fun p => (p.1.map g.decode, p.2)

/-- One float output element (R217). -/
def floatCell (base : Int) (acc : Nat) (a b : Blocks) : Nat :=
  (a.zip b).foldl (fun r p => accStep base r (blockSum base p.1.1 p.2.1) p.1.2 p.2.2) acc

/-- One integer output element, with the saturation of R217. -/
def intCell (bits : Nat) (acc : Nat) (a b : List (List Nat)) : Nat × Bool :=
  (a.zip b).foldl (fun (r : Nat × Bool) p =>
    let n := (p.1.zip p.2).foldl (fun t q => t + signed bits q.1 * signed bits q.2) (0 : Int)
    let c := Float.clampInt 32 (signed 32 r.1 + n)
    (unsign 32 c.1, r.2 || c.2)) (acc, false)

/-- The fields of a MATMUL descriptor (R213). -/
structure MmDesc where
  aFmt : Nat
  bFmt : Nat
  clear : Bool
  sel : Nat
  emit : Bool
  doneEn : Bool
  m : Nat
  n : Nat
  kb : Nat
  aAddr : Nat
  bAddr : Nat
  aScale : Nat
  bScale : Nat
  doneSem : Nat
  reserved : Bool
  deriving DecidableEq, Repr

/-- A MATMUL descriptor read from its 32 bytes (R213). -/
def MmDesc.parse (bs : List Byte) : MmDesc :=
  let d := leNat (fit 32 bs)
  { aFmt := fld d 3 0, bFmt := fld d 7 4, clear := bit d 8, sel := fld d 9 9, emit := bit d 10, doneEn := bit d 11,
    m := fld d 23 16 + 1, n := fld d 31 24 + 1, kb := fld d 39 32 + 1, aAddr := fld d 84 64, bAddr := fld d 116 96,
    aScale := fld d 148 128, bScale := fld d 180 160, doneSem := fld d 208 192,
    reserved := fld d 15 12 + fld d 63 40 + fld d 95 85 + fld d 127 117 + fld d 159 149 + fld d 191 181 + fld d 255 209 != 0 }

/-- Bytes of `rows` rows of K elements (R214). -/
def MmDesc.area (d : MmDesc) (rows fmt : Nat) : Nat := rows * (32 * d.kb) * Float.elemBits fmt / 8

/-- The end code with which the matrix engine refuses a descriptor; none where it runs (R214, R215, R237, R278). -/
def State.mmRefusal (s : State) (core : Nat) (d : MmDesc) : Option Nat :=
  if d.reserved || mmClass d.aFmt d.bFmt == 0 then some 0x40
  else if d.aAddr % 64 ≠ 0 ∨ d.bAddr % 64 ≠ 0 ∨ !s.inFootprint core d.aAddr (d.area d.m d.aFmt) ∨
      !s.inFootprint core d.bAddr (d.area d.n d.bFmt) ∨
      (Float.isMx d.aFmt && !s.inFootprint core d.aScale (d.m * d.kb)) ∨
      (Float.isMx d.bFmt && !s.inFootprint core d.bScale (d.n * d.kb)) then some 0x41
  else if d.doneEn && !s.ownsSem (s.ctxOfCore core) d.doneSem then some 0x57
  else none

/-- An operand read: rows of elements, rows of scale bytes, and whether a line was poisoned or never written. -/
def State.readOperand (s : State) (core rows kb fmt addr scale : Nat) : (List (List Nat) × List (List Nat) × Bool) × State :=
  let bits := Float.elemBits fmt
  let r := s.spadRead core addr (rows * (32 * kb) * bits / 8)
  let es := chunksOf (32 * kb) (unpack bits (plain r.1))
  if Float.isMx fmt then
    let q := r.2.spadRead core scale (rows * kb)
    ((es, chunksOf kb ((plain q.1).map (·.toNat)), anyPoison r.1 || anyPoison q.1), q.2)
  else ((es, List.replicate rows (List.replicate kb 127), anyPoison r.1), r.2)

/-- The accumulator bank of a number. -/
def CoreState.bank (x : CoreState) (n : Nat) : Bank := if n = 0 then x.bank0 else x.bank1

/-- A core with a bank replaced. -/
def CoreState.withBank (x : CoreState) (n : Nat) (b : Bank) : CoreState :=
  if n = 0 then { x with bank0 := b } else { x with bank1 := b }

/-- An element of a bank. -/
def Bank.get (b : Bank) (m n : Nat) : Nat := (Table.get b.cells 0 (256 * m + n)).toNat

/-- The output elements of a MATMUL, by row and column, and whether an integer one saturated (R217). -/
def mmOutputs (d : MmDesc) (old : Nat → Nat → Nat) (a b : List (List Nat) × List (List Nat)) : List (Nat × Nat) × Bool :=
  let cells (cell : Nat → Nat → List Nat → List Nat → List Nat → List Nat → Nat × Bool) : List (Nat × Nat × Bool) :=
    (((a.1.zip a.2).zip (List.range d.m)).flatMap fun p =>
      ((b.1.zip b.2).zip (List.range d.n)).map fun q =>
        (256 * p.2 + q.2, cell p.2 q.2 p.1.1 p.1.2 q.1.1 q.1.2))
  let out := match Float.intBits d.aFmt, Float.floatOf d.aFmt, Float.floatOf d.bFmt with
    | some w, _, _ => cells fun m n x _ y _ => intCell w (old m n) (chunksOf 32 x) (chunksOf 32 y)
    | none, some f, some g =>
      cells fun m n x sx y sy =>
        (floatCell (f.emin + g.emin) (old m n) (floatBlocks d.aFmt x sx) (floatBlocks d.bFmt y sy), false)
    | _, _, _ => []
  (out.map fun p => (p.1, p.2.1), out.any fun p => p.2.2)

/-- A bank after a MATMUL (R217, R218, R219). -/
def mmBank (d : MmDesc) (b : Bank) (x y : List (List Nat) × List (List Nat)) (poison : Bool) : Bank :=
  let r := mmOutputs d (fun m n => if d.clear then 0 else b.get m n) x y
  { cells := r.1.foldl (fun t p => Table.put t 0 p.1 (BitVec.ofNat 32 p.2)) (if d.clear then [] else b.cells),
    accSat := r.2 || (b.accSat && !d.clear), poison := poison || (b.poison && !d.clear),
    int := (Float.intBits d.aFmt).isSome }

/-- Whether the core's matrix engine can take its next descriptor. -/
def State.mmReady (s : State) (core : Nat) (d : MmDesc) : Bool :=
  let x := s.core core
  s.powered && s.awake core && x.run.isSome && x.mm.isNone && !x.gated && !x.tiles.contains d.sel

/-- MATMUL: the descriptor at the queue head is checked, and its *k* blocks run into the bank (R217, R237). -/
def State.matmul (s : State) (core : Nat) : State :=
  match (s.core core).mq with
  | [] => s
  | bs :: _ =>
    let d := MmDesc.parse bs
    if !s.mmReady core d then s
    else
      match s.mmRefusal core d with
      | some code => s.taskError core code
      | none =>
        let a := s.readOperand core d.m d.kb d.aFmt d.aAddr d.aScale
        let b := a.2.readOperand core d.n d.kb d.bFmt d.bAddr d.bScale
        let cycles := d.kb * mmCycles (mmClass d.aFmt d.bFmt)
        let run : MmRun := { bank := d.sel, emit := d.emit, doneSem := if d.doneEn then some d.doneSem else none }
        let next (x : CoreState) : CoreState :=
          { (x.withBank d.sel (mmBank d (x.bank d.sel) (a.1.1, a.1.2.1) (b.1.1, b.1.2.1) (a.1.2.2 || b.1.2.2))) with
            mq := x.mq.drop 1, mm := some run, mmBusy := x.mmBusy + cycles }
        ((b.2.onCore core next).busy Reg.OBS_MM_BUSY Reg.CTX_MM_BUSY (s.ctxOfCore core) cycles).engineProgress core .matrix

/-- MATMUL_END: the bank enters the finished-tile queue if `EMIT` is set, and `DONE_SEM` is released (R219). -/
def State.matmulEnd (s : State) (core : Nat) : State :=
  match (s.core core).mm with
  | none => s
  | some r =>
    let fin (x : CoreState) : CoreState := { x with mm := none, tiles := if r.emit then x.tiles ++ [r.bank] else x.tiles }
    ((s.onCore core fin).descProgress core .matrix).release r.doneSem

end Sys2Proof.Machine
end

