-- ==== Sys2Proof/Machine/Vector.lean ====
section
/-! DEFINITION. The vector engine: streams, clause operations, masks, reductions, conversions and summaries
(R211, R212, R220 to R229, R313). -/
namespace Sys2Proof.Machine
open Sys2Proof Sys2Proof.Bits

/-- A stream field (R222). -/
structure Stream where
  addr : Nat
  fmt : Nat
  queue : Bool
  en : Bool
  stride : Nat
  scale : Nat
  reserved : Bool
  deriving DecidableEq, Repr

/-- A stream field read from its 64 bits (R222). -/
def Stream.parse (v : Nat) : Stream :=
  { addr := fld v 20 0, fmt := fld v 24 21, queue := bit v 25, en := bit v 26, stride := fld v 47 32,
    scale := 32 * fld v 63 48, reserved := fld v 31 27 != 0 }

/-- The fields of a vector pass descriptor (R221). -/
structure VpDesc where
  len : Nat
  clause : Nat
  rows : Nat
  rowMask : Nat
  lastMask : Nat
  redOp : Nat
  redRows : Bool
  sr : Bool
  sat : Bool
  sumInt : Bool
  s0 : Stream
  s1 : Stream
  s2 : Stream
  d : Stream
  redAddr : Nat
  sumAddr : Nat
  sumEn : Bool
  doneSem : Nat
  doneEn : Bool
  tensor : Nat
  elem : Nat
  reserved : Bool
  deriving DecidableEq, Repr

/-- A vector pass descriptor read from its 64 bytes (R221). -/
def VpDesc.parse (bs : List Byte) : VpDesc :=
  let v := leNat (fit 64 bs)
  let s0 := Stream.parse (fld v 127 64)
  let s1 := Stream.parse (fld v 191 128)
  let s2 := Stream.parse (fld v 255 192)
  let d := Stream.parse (fld v 319 256)
  { len := fld v 4 0 + 1, clause := fld v 28 8, rows := fld v 47 32 + 1, rowMask := fld v 50 48, lastMask := fld v 53 51,
    redOp := fld v 59 56, redRows := bit v 60, sr := bit v 61, sat := bit v 62, sumInt := bit v 63, s0 := s0, s1 := s1,
    s2 := s2, d := d, redAddr := fld v 340 320, sumAddr := fld v 372 352, sumEn := bit v 373, doneSem := fld v 400 384,
    doneEn := bit v 401, tensor := fld v 447 416, elem := fld v 511 448,
    reserved := fld v 7 5 + fld v 31 29 + fld v 55 54 + fld v 351 341 + fld v 383 374 + fld v 415 402 != 0 || s0.reserved ||
      s1.reserved || s2.reserved || d.reserved }

/-- Packed bytes of a row of 256 lanes. -/
def rowBytes (fmt : Nat) : Nat := 32 * Float.elemBits fmt

/-- Whether a stream reads a tile. -/
def VpDesc.useTile (d : VpDesc) : Bool := d.s0.en && d.s0.queue

/-- The enabled input streams that read the scratchpad. -/
def VpDesc.inputs (d : VpDesc) : List Stream :=
  (if d.s0.en && !d.s0.queue then [d.s0] else []) ++ (if d.s1.en then [d.s1] else []) ++ (if d.s2.en then [d.s2] else [])

/-! ### Clauses -/

/-- How many sources an operation uses; none for a reserved one (R225). -/
def opSources (op : Nat) : Option Nat :=
  if op = 0 then some 0
  else if (1 ≤ op ∧ op ≤ 5) ∨ (8 ≤ op ∧ op ≤ 0xD) ∨ (0x10 ≤ op ∧ op ≤ 0x12) ∨ op = 0x14 ∨ op = 0x15 ∨ op = 0x18 ∨ op = 0x19 ∨
      (0x30 ≤ op ∧ op ≤ 0x32) then some 2
  else if op = 0x13 ∨ op = 0x1A then some 3
  else if op = 0x20 ∨ op = 0x21 ∨ (0x28 ≤ op ∧ op ≤ 0x2C) then some 1
  else none

/-- Whether a source code is reserved (R224). -/
def reservedSource (c : Nat) : Bool := decide (14 ≤ c ∧ c ≤ 31)

/-- Whether a clause is refused with VP_CLAUSE (R220, R224, R225). -/
def clauseRefused (ws : List Nat) : Bool :=
  let op (w : Nat) : Nat := fld w 31 26
  ws.any (fun w =>
    match opSources (op w) with
    | none => true
    | some n => (decide (1 ≤ n) && reservedSource (fld w 22 17)) || (decide (2 ≤ n) && reservedSource (fld w 16 11)) ||
        (decide (3 ≤ n) && reservedSource (fld w 10 5))) ||
  decide (4 < (ws.filter fun w => decide (0x28 ≤ op w ∧ op w ≤ 0x2C)).length) ||
  decide (2 < (ws.filter fun w => decide (0x30 ≤ op w)).length)

/-- An integer result, wrapped or saturated (R225). -/
def intResult (isat : Bool) (i : Int) : Nat := if isat then unsign 32 (Float.clampInt 32 i).1 else unsign 32 i

/-- A lane-wise operation (R225). -/
def laneOp (op : Nat) (isat : Bool) (a b c : Nat) : Nat :=
  let i := signed 32 a
  let j := signed 32 b
  let truth (p : Bool) : Nat := if p then 0xFFFFFFFF else 0
  match op with
  | 0x01 => intResult isat (i + j)
  | 0x02 => intResult isat (i - j)
  | 0x03 => intResult isat (i * j)
  | 0x04 => if j < i then b else a
  | 0x05 => if i < j then b else a
  | 0x08 => a &&& b
  | 0x09 => a ||| b
  | 0x0A => a ^^^ b
  | 0x0B => (a <<< (b % 32)) % 2 ^ 32
  | 0x0C => a >>> (b % 32)
  | 0x0D => unsign 32 (Float.asr i (b % 32))
  | 0x10 => Float.fadd a b
  | 0x11 => Float.fsub a b
  | 0x12 => Float.fmul a b
  | 0x13 => Float.ffma a b c
  | 0x14 => Float.fmin a b
  | 0x15 => Float.fmax a b
  | 0x18 => truth (Float.flt a b)
  | 0x19 => truth (decide (i < j))
  | 0x1A => if c = 0 then b else a
  | 0x20 => Float.itof a
  | 0x21 => unsign 32 (Float.toInt 32 .rne a).1
  | 0x28 => Float.exp a
  | 0x29 => Float.exp2 a
  | 0x2A => Float.log a
  | 0x2B => Float.rcp a
  | 0x2C => Float.rsqrt a
  | _ => 0

/-- The flags of R228 that rows have set: NaN, infinity, saturation. -/
structure VpFlags where
  nan : Bool
  inf : Bool
  sat : Bool
  deriving DecidableEq, Repr

/-- Flags joined. -/
def VpFlags.join (a b : VpFlags) : VpFlags := ⟨a.nan || b.nan, a.inf || b.inf, a.sat || b.sat⟩

/-- No flag. -/
def VpFlags.none : VpFlags := ⟨false, false, false⟩

/-- The tally in a group of four lanes (R225). -/
def groupTally (g : List Nat) : Tally :=
  Tally.ofBits (g.getD 0 0 + 2 ^ 32 * g.getD 1 0 + 2 ^ 64 * g.getD 2 0 + 2 ^ 96 * g.getD 3 0)

/-- A tally as four lanes. -/
def tallyLanes (t : Tally) : List Nat :=
  let v := t.bits
  [fld v 31 0, fld v 63 32, fld v 95 64, fld v 127 96]

/-- The rounding draws of a pass: whether stochastic, `JOB_SEED`, STEP and `TENSOR_ID` (R235). -/
structure Draws where
  sr : Bool
  seed : Nat
  step : Nat
  tensor : Nat
  deriving DecidableEq, Repr

/-- The rounding mode of an element. -/
def Draws.mode (d : Draws) (elem : Nat) : Float.Mode :=
  if d.sr then .sr (Float.draw d.seed d.step d.tensor (elem % 2 ^ 64)) else .rne

/-- A tally operation on one group of four lanes, whose lane 4*j* is element `elem` (R313): the four lanes and flags. -/
def groupOp (op : Nat) (d : VpDesc) (dr : Draws) (elem : Nat) (a b : List Nat) : List Nat × VpFlags :=
  let grid := b.getD 0 0
  match op with
  | 0x30 => (tallyLanes ((groupTally a).add (groupTally b)), .none)
  | 0x31 =>
    let x := a.getD 0 0
    if grid = 255 then (tallyLanes (.fin (signed 32 x)), .none)
    else match Tally.ofFloat x grid with
      | some t => (tallyLanes t, .none)
      | none => (tallyLanes .nan, ⟨true, false, false⟩)
  | _ =>
    let fmt := if d.d.en then d.d.fmt else 0
    let r := (groupTally a).round grid fmt d.sat (dr.mode (elem / 4))
    ([Float.loadLane fmt r.1, 0, 0, 0], ⟨r.2.1, false, r.2.2⟩)

/-- One operation over the 256 lanes of a row whose lane 0 is element `base`; flags come from active lanes only. -/
def rowOp (w : Nat) (d : VpDesc) (dr : Draws) (base : Nat) (mask : List Bool) (a b c : List Nat) : List Nat × VpFlags :=
  let op := fld w 31 26
  if 0x30 ≤ op then
    let gs := ((chunksOf 4 a).zip (chunksOf 4 b)).zip ((chunksOf 4 mask).zip (List.range 64))
    let rs := gs.map fun g =>
      let r := groupOp op d dr (base + 4 * g.2.2) g.1.1 g.1.2
      (r.1, if g.2.1.getD 0 false then r.2 else .none)
    (rs.flatMap (·.1), rs.foldl (fun f r => f.join r.2) .none)
  else
    let flags := if op = 0x21 then
        (a.zip mask).foldl (fun f p =>
          let r := Float.toInt 32 .rne p.1
          if p.2 then f.join ⟨r.2.1, false, r.2.2⟩ else f) VpFlags.none
      else .none
    (((a.zip (b.zip c)).map fun p => laneOp op (bit w 4) p.1 p.2.1 p.2.2), flags)

/-- The 256 lanes of a source (R224). -/
def sourceLanes (slots : List (List Nat)) (ins : List (List Nat)) (row : Nat) (x : Nat → Nat) (c : Nat) : List Nat :=
  if c < 8 then slots.getD c []
  else if c < 11 then ins.getD (c - 8) []
  else if c = 12 then List.range 256
  else List.replicate 256 (if c = 13 then row else if 32 ≤ c then x (c - 32) else 0)

/-- The clause program run over a row: T0 and the flags. -/
def runClause (ws : List Nat) (d : VpDesc) (dr : Draws) (row : Nat) (mask : List Bool) (ins : List (List Nat)) (x : Nat → Nat) :
    List Nat × VpFlags :=
  let zero := List.replicate 8 (List.replicate 256 0)
  let r := ws.foldl (fun (r : List (List Nat) × VpFlags) w =>
    if fld w 31 26 = 0 then r
    else
      let src := sourceLanes r.1 ins row x
      let o := rowOp w d dr (d.elem + 256 * row) mask (src (fld w 22 17)) (src (fld w 16 11)) (src (fld w 10 5))
      (r.1.set (fld w 25 23) o.1, r.2.join o.2)) (zero, VpFlags.none)
  (r.1.getD 0 [], r.2)

/-! ### Reductions -/

/-- Two values combined by a reduction (R227). -/
def redCombine (op a b : Nat) : Nat :=
  match op with
  | 1 => Float.fadd a b
  | 2 => Float.fmax a b
  | 3 => Float.fmin a b
  | 4 => (a + b) % 2 ^ 32
  | 5 => if signed 32 a < signed 32 b then b else a
  | 6 => if signed 32 b < signed 32 a then b else a
  | 7 => a &&& b
  | 8 => a ||| b
  | _ => a ^^^ b

/-- The identity of a reduction (R227). -/
def redIdentity (op : Nat) : Nat :=
  match op with
  | 2 => 0xFF800000 | 3 => 0x7F800000 | 5 => 0x80000000 | 6 => 0x7FFFFFFF | 7 => 0xFFFFFFFF | _ => 0

/-- Two nodes of the tree, a masked one passing the other unchanged. -/
def redNode (op : Nat) : Option Nat → Option Nat → Option Nat
  | some a, some b => some (redCombine op a b)
  | some a, none => some a
  | none, b => b

/-- One level of the tree: neighbours combined. -/
def redLevel (op : Nat) : List (Option Nat) → List (Option Nat)
  | a :: b :: l => redNode op a b :: redLevel op l
  | l => l

/-- The fixed tree over 256 lanes (R227). -/
def redTree (op : Nat) (l : List (Option Nat)) : Nat :=
  let r := (List.range 8).foldl (fun l _ => redLevel op l) l
  (r.head?.getD none).getD (redIdentity op)

/-! ### Output -/

/-- Lanes as codes of a format, with the flags of R211; `isInt` tells that an integer target reads the lanes as INT32. -/
def convertLane (fmt : Nat) (sat isInt : Bool) (mode : Float.Mode) (v : Nat) : Nat × VpFlags :=
  match Float.intBits fmt, Float.floatOf fmt with
  | some w, _ =>
    if isInt then let r := Float.clampInt w (signed 32 v); (unsign w r.1, ⟨false, false, r.2⟩)
    else let r := Float.toInt w mode v; (unsign w r.1, ⟨r.2.1, false, r.2.2⟩)
  | none, some g => (g.encode sat mode (Float.dec v), .none)
  | none, none => (v, .none)

/-- ⌊log₂⌋ of a finite non-zero FP32 value. -/
def floorLog2 (v : Nat) : Int :=
  match Float.dec v with
  | .fin _ m e => e + m.log2
  | _ => 0

/-- A block of 32 lanes in an MX format: the scale byte, the element codes, the flags; masked lanes count as zero
(R212). -/
def mxBlock (fmt : Nat) (modes : List Float.Mode) (lanes : List Nat) : Nat × List Nat × VpFlags :=
  let nan := lanes.any Float.isNan
  let inf := lanes.any Float.isInf
  if nan || inf then (0xFF, lanes.map fun _ => 0, ⟨nan, inf, false⟩)
  else
    let mags := (lanes.map fun v => v % 2 ^ 31).foldl max 0
    if mags = 0 then (0, lanes.map fun _ => 0, .none)
    else
      let e : Int := match fmt with | 4 => 8 | 5 => 15 | _ => 2
      let x := max (-127) (min 127 (floorLog2 mags - e))
      let code (v : Nat) (mode : Float.Mode) : Nat :=
        match Float.floatOf fmt, Float.dec v with
        | some g, .fin neg m ex => g.encode true mode (.fin neg m (ex - x))
        | _, _ => 0
      ((x + 127).toNat, (lanes.zip modes).map fun p => code p.1 p.2, .none)

/-- Codes packed to bytes, some bytes absent: a byte is written when one of its lanes is active, and an inactive nibble
of it keeps `old`. -/
def packCodes (bits : Nat) (codes : List (Option Nat)) (old : Nat → Nat) : List (Option Byte) :=
  if bits = 4 then
    ((chunksOf 2 codes).zip (List.range codes.length)).map fun p =>
      let lo := p.1.getD 0 none
      let hi := p.1.getD 1 none
      if lo.isNone && hi.isNone then none
      else
        some (BitVec.ofNat 8 (lo.getD (fld (old p.2) 3 0) + 16 * hi.getD (fld (old p.2) 7 4)))
  else codes.flatMap fun c =>
    match c with
    | none => List.replicate (bits / 8) none
    | some v => (leBytes (bits / 8) v).map some

/-- The runs of present bytes: offset and bytes. -/
def byteRuns (l : List (Option Byte)) : List (Nat × List Byte) :=
  let r := l.foldl (fun (r : List (Nat × List Byte) × Nat × List Byte × Nat) b =>
    match b with
    | some x => (r.1, (if r.2.2.1.isEmpty then r.2.2.2 else r.2.1), r.2.2.1 ++ [x], r.2.2.2 + 1)
    | none => ((if r.2.2.1.isEmpty then r.1 else r.1 ++ [(r.2.1, r.2.2.1)]), 0, [], r.2.2.2 + 1)) ([], 0, [], 0)
  if r.2.2.1.isEmpty then r.1 else r.1 ++ [(r.2.1, r.2.2.1)]

/-- Bytes with one poison mark. -/
def marked (p : Bool) (bs : List Byte) : List MByte := bs.map fun b => (b, p)

/-- The byte that a bank holds for a write that keeps half of it: all ones on a line never written (R269). -/
def State.spadByte (s : State) (core addr : Nat) : Nat :=
  if s.spadWritten.contains (core * 2 ^ 15 + addr / 64) then (Table.get s.spad 0xFF (core * 2 ^ 21 + addr)).toNat else 0xFF

/-- A row of `D` written (R211, R212, R226, R229), and its flags. -/
def State.writeRow (s : State) (core : Nat) (d : VpDesc) (dr : Draws) (isInt : Bool) (row : Nat) (mask : List Bool)
    (t0 : List Nat) (poison : Bool) : VpFlags × State :=
  if !d.d.en then (.none, s)
  else
    let addr := d.d.addr + row * d.d.stride
    let modes := (List.range 256).map fun l => dr.mode (d.elem + 256 * row + l)
    if Float.isMx d.d.fmt then
      let lanes := (t0.zip mask).map fun p => if p.2 then p.1 else 0
      let bs := ((chunksOf 32 lanes).zip (chunksOf 32 modes)).map fun p => mxBlock d.d.fmt p.2 p.1
      let bytes := packCodes (Float.elemBits d.d.fmt) (bs.flatMap fun b => b.2.1.map some) (fun _ => 0)
      let s1 := s.spadWrite core addr (marked poison (bytes.filterMap id))
      (bs.foldl (fun f b => f.join b.2.2) VpFlags.none,
        s1.spadWrite core (d.d.scale + 8 * row) (marked poison (bs.map fun b => BitVec.ofNat 8 b.1)))
    else
      let cs := ((t0.zip mask).zip modes).map fun p =>
        if p.1.2 then some (convertLane d.d.fmt d.sat isInt p.2 p.1.1) else none
      let bytes := packCodes (Float.elemBits d.d.fmt) (cs.map fun c => c.map (·.1)) (fun i => s.spadByte core (addr + i))
      (cs.foldl (fun f c => match c with | some r => f.join r.2 | none => f) VpFlags.none,
        (byteRuns bytes).foldl (fun s r => s.spadWrite core (addr + r.1) (marked poison r.2)) s)

/-! ### The pass -/

/-- The end code with which the engine refuses a pass before its clause is read (R222, R227, R237, R278). -/
def State.vpRefusal (s : State) (core : Nat) (d : VpDesc) : Option Nat :=
  let fits (a n : Nat) : Bool := s.inFootprint core a n
  let bad (t : Stream) : Bool := decide (0xC ≤ t.fmt)
  if d.reserved || decide (10 ≤ d.redOp) || (d.useTile && (d.rows != 256 || (s.core core).tiles.isEmpty)) ||
      d.inputs.any (fun t => Float.isMx t.fmt || bad t) || (d.d.en && (d.d.fmt == 0xB || bad d.d ||
      decide (d.d.stride < rowBytes d.d.fmt))) then some 0x48
  else
    let streams := d.inputs ++ (if d.d.en then [d.d] else [])
    if d.clause % 128 ≠ 0 ∨ !fits d.clause (4 * d.len) ∨
        streams.any (fun t => t.addr % (max 1 (Float.elemBits t.fmt / 8)) != 0 ||
          !fits t.addr (t.stride * (d.rows - 1) + rowBytes t.fmt)) ∨
        (d.d.en && Float.isMx d.d.fmt && !fits d.d.scale (8 * d.rows)) ∨
        (d.redOp != 0 && (d.redAddr % 64 != 0 || !fits d.redAddr (if d.redRows then 1024 else 4 * d.rows))) ∨
        (d.sumEn && (d.sumAddr % 32 != 0 || !fits d.sumAddr 32)) then some 0x4A
    else if d.doneEn && !s.ownsSem (s.ctxOfCore core) d.doneSem then some 0x57
    else none

/-- A mask register (R226): M0 reads all ones. -/
def CoreState.mask (x : CoreState) (n : Nat) : Nat := if n = 0 then 2 ^ 256 - 1 else Table.get x.masks 0 n

/-- What a pass has gathered over the rows so far. -/
structure VpAcc where
  st : State
  flags : VpFlags
  poison : Bool
  lo : Option Nat
  hi : Option Nat
  set : Nat
  /-- Results along the lanes, row by row, with poison marks. -/
  rows : List (Nat × Bool)
  /-- Results along the rows, lane by lane. -/
  lanes : List (Option Nat)

/-- The smaller or larger of two values for the summary, as INT32 or FP32. -/
def sumPick (isInt lo : Bool) (a b : Nat) : Nat :=
  let less := if isInt then decide (signed 32 a < signed 32 b) else decide (Float.key a < Float.key b)
  if less = lo then a else b

/-- A row of an input stream: lanes and whether a line was poisoned or never written. -/
def State.readRow (s : State) (core : Nat) (t : Stream) (row : Nat) : (List Nat × Bool) × State :=
  if !t.en then ((List.replicate 256 0, false), s)
  else
    let r := s.spadRead core (t.addr + row * t.stride) (rowBytes t.fmt)
    (((unpack (Float.elemBits t.fmt) (plain r.1)).map (Float.loadLane t.fmt), anyPoison r.1), r.2)

/-- Row `row` of the tile that stands first in the finished-tile queue (R219). -/
def Bank.row (b : Bank) (row : Nat) : List Nat := (List.range 256).map fun n => b.get row n

/-- One row of a pass (R220 to R229). -/
def vpRow (core : Nat) (d : VpDesc) (dr : Draws) (ws : List Nat) (isInt : Bool) (tile : Option Bank) (x : CoreState) (a : VpAcc)
    (row : Nat) : VpAcc :=
  let r0 := match tile with
    | some b => ((b.row row, b.poison), a.st)
    | none => a.st.readRow core d.s0 row
  let r1 := r0.2.readRow core d.s1 row
  let r2 := r1.2.readRow core d.s2 row
  let poison := r0.1.2 || r1.1.2 || r2.1.2
  let m := x.mask d.rowMask &&& (if row + 1 = d.rows then x.mask d.lastMask else 2 ^ 256 - 1)
  let mask := (List.range 256).map m.testBit
  let xs (i : Nat) : Nat := (Table.get x.regs 0 i).toNat % 2 ^ 32
  let t := runClause ws d dr row mask [r0.1.1, r1.1.1, r2.1.1] xs
  let w := r2.2.writeRow core d dr isInt row mask t.1 poison
  let act := (t.1.zip mask).filterMap fun p => if p.2 then some p.1 else none
  let seen := if d.sumInt then act else act.filter fun v => !Float.isNan v
  let vis : VpFlags := if d.sumInt then .none else ⟨act.any Float.isNan, act.any Float.isInf, false⟩
  let fold (lo : Bool) (o : Option Nat) : Option Nat :=
    seen.foldl (fun o v => some (match o with | some y => sumPick d.sumInt lo v y | none => v)) o
  let opts := (t.1.zip mask).map fun p => if p.2 then some p.1 else none
  { st := w.2, flags := ((a.flags.join t.2).join w.1).join vis, poison := a.poison || poison, lo := fold true a.lo,
    hi := fold false a.hi, set := a.set + act.length,
    rows := if d.redOp != 0 && !d.redRows then a.rows ++ [(redTree d.redOp opts, poison)] else a.rows,
    lanes := if d.redOp != 0 && d.redRows then (a.lanes.zip opts).map fun p => redNode d.redOp p.1 p.2 else a.lanes }

/-- The summary record (R228). -/
def vpSummary (d : VpDesc) (a : VpAcc) (accSat : Bool) : List Byte :=
  leBytes 4 (a.lo.getD (if d.sumInt then 0x7FFFFFFF else 0x7F800000)) ++
    leBytes 4 (a.hi.getD (if d.sumInt then 0x80000000 else 0xFF800000)) ++ leBytes 4 a.set ++
    leBytes 4 (ofBool a.flags.nan + 2 * ofBool a.flags.inf + 4 * ofBool a.flags.sat + 8 * ofBool a.poison + 16 * ofBool accSat) ++
    leBytes 4 d.rows ++ zeros 12

/-- What a pass writes as its reduction (R227, R229). -/
def vpReduction (d : VpDesc) (a : VpAcc) : Option (Nat × List (Byte × Bool)) :=
  if d.redOp = 0 then none
  else if d.redRows then
    some (d.redAddr, marked a.poison (a.lanes.flatMap fun o => leBytes 4 (o.getD (redIdentity d.redOp))))
  else some (d.redAddr, a.rows.flatMap fun p => marked p.2 (leBytes 4 p.1))

/-- Whether an integer target reads T0 as INT32: the pass says so, or TRND wrote it last (R313). -/
def vpInt (d : VpDesc) (ws : List Nat) : Bool :=
  d.sumInt || (match (ws.filter fun w => fld w 31 26 != 0 && fld w 25 23 == 0).getLast? with
    | some w => fld w 31 26 == 0x32
    | none => false)

/-- VECTOR_PASS: the descriptor at the queue head is checked, and its rows stream through the clause chain (R221). -/
def State.vectorPass (s : State) (core : Nat) : State :=
  let x := s.core core
  match x.vq, x.run with
  | bs :: _, some run =>
    let d := VpDesc.parse bs
    if !s.powered || !s.awake core || x.vp.isSome then s
    else
      match s.vpRefusal core d with
      | some code => s.taskError core code
      | none =>
        let c := s.spadRead core d.clause (4 * d.len)
        let ws := unpack 32 (plain c.1)
        if clauseRefused ws then c.2.taskError core 0x49
        else
          let tile := if d.useTile then x.tiles.head? else none
          let bank := tile.map x.bank
          let dr : Draws := { sr := d.sr, seed := run.seed, step := run.step, tensor := d.tensor }
          let a0 : VpAcc := { st := c.2, flags := .none, poison := false, lo := none, hi := none, set := 0, rows := [],
                              lanes := List.replicate 256 none }
          let a := (List.range d.rows).foldl (vpRow core d dr ws (vpInt d ws) bank x) a0
          let vp : VpRun := { red := vpReduction d a,
                              summary := if d.sumEn then some (d.sumAddr, vpSummary d a (bank.any (·.accSat))) else none,
                              bank := tile, doneSem := if d.doneEn then some d.doneSem else none }
          ((a.st.onCore core fun x => { x with vq := x.vq.drop 1, vp := some vp }).busy Reg.OBS_VEC_BUSY Reg.CTX_VEC_BUSY
            run.ctx d.rows).engineProgress core .vector
  | _, _ => s

/-- VECTOR_PASS_END: the reduction and the summary are written, the tile bank and `DONE_SEM` are released (R219, R228). -/
def State.vectorPassEnd (s : State) (core : Nat) : State :=
  match (s.core core).vp with
  | none => s
  | some r =>
    let s1 := match r.red with | some p => s.spadWrite core p.1 p.2 | none => s
    let s2 := match r.summary with | some p => s1.spadWrite core p.1 (clean p.2) | none => s1
    let fin (x : CoreState) : CoreState := { x with vp := none, tiles := if r.bank.isSome then x.tiles.drop 1 else x.tiles }
    ((s2.onCore core fin).descProgress core .vector).release r.doneSem

end Sys2Proof.Machine
end

