-- ==== Sys2Proof/Machine/Attend.lean ====
section
/-! DEFINITION. Attention beside the memory: descriptors, admission, the service's arithmetic and the partials
(R341 to R360). -/
namespace Sys2Proof.Machine
open Sys2Proof Sys2Proof.Bits

/-! ### The attend header -/

/-- The fields of an attend header (R348). -/
structure AttHeader where
  qFmt : Nat
  kvFmt : Nat
  rows : Nat
  limits : Bool
  dim : Nat
  poison : Bool
  scale : Nat
  tokens : Nat
  firstPage : Nat
  kvTable : Nat
  vOff : Nat
  headOff : Nat
  imageLen : Nat
  pieces : Nat
  reserved : Bool
  deriving DecidableEq, Repr

/-- An attend header read from its 64 bytes (R348). -/
def AttHeader.parse (b : List Byte) : AttHeader :=
  { qFmt := le 0 1 b % 16, kvFmt := le 0 1 b / 16, rows := le 1 1 b % 128 + 1, limits := bit (le 1 1 b) 7,
    dim := 32 * (le 2 1 b % 8 + 1), poison := bit (le 2 1 b) 3, scale := le 4 4 b, tokens := le 8 4 b, firstPage := le 12 4 b,
    kvTable := le 16 6 b, vOff := le 24 4 b, headOff := le 28 4 b, imageLen := le 32 4 b, pieces := le 36 1 b,
    reserved := le 2 1 b / 16 + le 3 1 b + le 22 2 b + leNat (slice 37 27 b) != 0 }

/-- The 64 bytes of an attend header. -/
def AttHeader.bytes (h : AttHeader) : List Byte :=
  leBytes 1 (h.qFmt + 16 * h.kvFmt) ++ leBytes 1 (h.rows - 1 + 128 * ofBool h.limits) ++
    leBytes 1 (h.dim / 32 - 1 + 8 * ofBool h.poison) ++ [0] ++ leBytes 4 h.scale ++ leBytes 4 h.tokens ++ leBytes 4 h.firstPage ++
    leBytes 6 h.kvTable ++ leBytes 2 0 ++ leBytes 4 h.vOff ++ leBytes 4 h.headOff ++ leBytes 4 h.imageLen ++ leBytes 1 h.pieces ++
    zeros 27

/-- Bytes of an element of the query (R344). -/
def AttHeader.qSize (h : AttHeader) : Nat := Float.elemBits h.qFmt / 8

/-- The length of the query image (R347). -/
def AttHeader.wantLen (h : AttHeader) : Nat := h.rows * h.dim * h.qSize + (if h.limits then 4 * h.rows else 0)

/-- Whether the formats are those of R344, in a permitted pair (R345). -/
def attFormats (q kv : Nat) : Bool := decide (1 ≤ q ∧ q ≤ 3 ∧ 2 ≤ kv ∧ kv ≤ 6) && (q != 1 || kv == 6)

/-- Pages that a token count covers. -/
def attPages (tokens : Nat) : Nat := ceilDiv tokens 256

/-- Whether the token count and first page are in range (R345). -/
def attSize (tokens first : Nat) : Bool := decide (1 ≤ tokens ∧ tokens ≤ 16777216 ∧ first + attPages tokens ≤ 2 ^ 32)

/-- Whether a header obeys R345 and R348. -/
def AttHeader.ok (h : AttHeader) : Bool :=
  !h.reserved && attFormats h.qFmt h.kvFmt && attSize h.tokens h.firstPage && h.vOff % 128 == 0 && h.headOff % 128 == 0 &&
    h.kvTable % 8 == 0 && h.imageLen == h.wantLen && h.pieces == ceilDiv h.imageLen 4032

/-- Bytes of piece `k` of a query image (R347). -/
def AttHeader.pieceLen (h : AttHeader) (k : Nat) : Nat := min 4032 (h.imageLen - 4032 * k)

/-- The row pitch of the partial image (R349). -/
def AttHeader.pitch (h : AttHeader) : Nat := 64 * ceilDiv h.rows 16

/-- The length of the partial image (R349). -/
def AttHeader.partLen (h : AttHeader) : Nat := (3 + h.dim) * h.pitch

/-! ### The requester -/

/-- The fields of an attend descriptor that the header does not hold (R344). -/
structure AttDesc where
  head : AttHeader
  kind : Nat
  localCountEn : Bool
  statusEn : Bool
  rank : Nat
  localCounter : Nat
  qAddr : Nat
  stride : Nat
  outAddr : Nat
  limitAddr : Nat
  statusAddr : Nat
  reserved : Bool
  deriving DecidableEq, Repr

/-- An attend descriptor read from its 64 bytes (R344). -/
def AttDesc.parse (bs : List Byte) : AttDesc :=
  let d := leNat (fit 64 bs)
  let h0 : AttHeader := {
    qFmt := fld d 11 8, kvFmt := fld d 15 12, rows := fld d 22 16 + 1, limits := bit d 23,
    dim := 32 * (fld d 26 24 + 1), poison := false, scale := fld d 223 192, tokens := fld d 255 224, firstPage := fld d 351 320,
    kvTable := fld d 303 256, vOff := fld d 383 352, headOff := fld d 415 384, imageLen := 0, pieces := 0, reserved := false }
  let h1 := { h0 with imageLen := h0.wantLen, pieces := ceilDiv h0.wantLen 4032 }
  {
    head := h1, kind := fld d 7 0, localCountEn := bit d 27, statusEn := bit d 28, rank := fld d 47 32,
    localCounter := fld d 63 48, qAddr := fld d 84 64, stride := fld d 111 96, outAddr := fld d 148 128,
    limitAddr := fld d 180 160, statusAddr := fld d 436 416,
    reserved := fld d 31 29 + fld d 95 85 + fld d 127 112 + fld d 159 149 + fld d 191 181 + fld d 319 304 + fld d 511 437 != 0 }

/-- The status with which an attend descriptor is refused at issue, its rank apart (R345). -/
def AttDesc.refusal (d : AttDesc) : Option Nat :=
  let h := d.head
  if d.reserved || !attFormats h.qFmt h.kvFmt then some 0x33
  else if !attSize h.tokens h.firstPage then some 0x32
  else if d.qAddr % h.qSize ≠ 0 ∨ d.outAddr % 64 ≠ 0 ∨ (h.limits ∧ d.limitAddr % 4 ≠ 0) ∨ (d.statusEn ∧ d.statusAddr % 8 ≠ 0) ∨
      h.kvTable % 8 ≠ 0 ∨ d.stride < h.dim * h.qSize ∨ h.headOff % 128 ≠ 0 ∨ h.vOff % 128 ≠ 0 then some 0x31
  else none

/-- Whether an attend descriptor's areas lie in the task's footprint (R345). -/
def State.attInside (s : State) (core : Nat) (d : AttDesc) : Bool :=
  let h := d.head
  s.inFootprint core d.qAddr (d.stride * (h.rows - 1) + h.dim * h.qSize) && s.inFootprint core d.outAddr h.partLen &&
    (!h.limits || s.inFootprint core d.limitAddr (4 * h.rows))

/-- The query image of an attend descriptor (R347). -/
def State.queryImage (s : State) (core : Nat) (d : AttDesc) : List MByte × State :=
  let h := d.head
  let r := (List.range h.rows).foldl (fun (r : List MByte × State) i =>
    let q := r.2.spadRead core (d.qAddr + d.stride * i) (h.dim * h.qSize)
    (r.1 ++ q.1, q.2)) ([], s)
  if h.limits then let q := r.2.spadRead core d.limitAddr (4 * h.rows); (r.1 ++ q.1, q.2) else r

/-- The entry in the list of descriptors that an attend descriptor becomes. -/
def State.attEntry (s : State) (core c dest : Nat) (d : AttDesc) : Desc :=
  { id := s.rmt.nextDesc, core := core, ctx := c, op := 8, peer := dest, statusEn := d.statusEn, statusAddr := d.statusAddr,
    localCountEn := d.localCountEn, localCounter := d.localCounter, left := 1, donePkts := 0, fail := none, poisoned := false,
    att := some ([], d.head.partLen, d.outAddr, .spad), attTimer := false, attTag := 0 }

/-- An attend descriptor accepted: its packets wait for a tracker entry (R345, R347). -/
def State.attAccept (s : State) (core c dest : Nat) (d : AttDesc) : State :=
  let r := s.queryImage core d
  let h := { d.head with poison := anyPoison r.1 }
  let item (k : Nat) : PlanItem :=
    let body := h.bytes ++ plain (slice (4032 * k) 4032 r.1)
    { seq := k, addr := 0, len := 0, reads := false, pkt := { s.dataPkt .attendReq (s.jobOf c) dest with seq := k, payload := body } }
  let e := r.2.attEntry core c dest d
  let plan : TxnPlan := {
    ctx := c, part := s.partOfCore core, dest := dest, kind := .attend, owner := .attend core e.id, ord := 0,
    space := .spad, tag := none, items := (List.range h.pieces).map item, cas := none }
  (r.2.onRmt fun m => { m with descs := m.descs ++ [e], plans := m.plans ++ [plan], nextDesc := e.id + 1 }).popQueue core .dma

/-- An attend descriptor refused at issue: it ends at once with a status (R345, R346). -/
def State.attRefuse (s : State) (core c status : Nat) (d : AttDesc) : State :=
  let r := s.drawNat
  (r.2.popQueue core .dma).endDesc (r.2.attEntry core c (r.1 % 2 ^ 16) d) status 0

/-- ATTEND: the attend descriptor at the head of the DMA queue is checked and issued (R345, R278). -/
def State.attend (s : State) (core : Nat) : State :=
  match s.dmaHead? core with
  | none => s
  | some bs =>
    let d := AttDesc.parse bs
    let c := s.ctxOfCore core
    if d.kind ≠ 8 then s
    else if d.statusEn && !s.inFootprint core d.statusAddr 8 then s.taskError core 0x55
    else if d.localCountEn && !s.ownsCounter c d.localCounter then s.taskError core 0x57
    else
      match d.refusal with
      | some code => s.attRefuse core c code d
      | none =>
        if !s.attInside core d then s.taskError core 0x55
        else
          let r := s.rankChip c d.rank
          match r.1 with
          | none => r.2.attRefuse core c 0x30 d
          | some dest => r.2.attAccept core c dest d

/-- The attend entry and descriptor that a piece names, where they take it (R358, R166). -/
def State.attTarget? (s : State) (p : Packet) : Option (Txn × Desc × List Nat × Nat × Nat) :=
  match s.txn? p.tag with
  | none => none
  | some t =>
    match t.owner with
    | .attend _ id =>
      if t.quarantined ∨ p.gen ≠ s.txnGen t then none
      else (s.desc? id).bind fun d => d.att.bind fun a =>
        if a.1.contains p.seq || p.payload.length != min 4096 (a.2.1 - 4096 * p.seq) || p.payload.isEmpty then none
        else some (t, d, a.1, a.2.1, a.2.2.1)
    | _ => none

/-- ATTEND_PART_RECEIVE: a piece lands; the first marks every request `SEQ` done, the last ends the descriptor (R358). -/
def State.takeAttendPart (s : State) (p : Packet) : State :=
  match s.attTarget? p with
  | none => s.stale
  | some (t, d, got, len, out) =>
    let s1 := s.spadWrite d.core (out + 4096 * p.seq) (clean p.payload)
    let fin (x : SeqState) : SeqState := if x.phase.isOver then x else { x with phase := .done, outstanding := 0 }
    let s2 := (s1.onTxn p.tag fun t => { t with seqs := t.seqs.map fun e => (e.1, fin e.2) }).engineProgress d.core .dma
    let now := setIns p.seq got
    let s3 := s2.onDesc d.id fun d => { d with att := some (now, len, out, .spad), attTimer := false, donePkts := now.length }
    if now.length = ceilDiv len 4096 then
      match s3.txn? p.tag, s3.desc? d.id with
      | some t, some d => ((s3.retireTxn t).endDesc d 0 0).pump t.dest
      | _, _ => s3
    else s3.pump t.dest

/-- ATT_RESULT_TIMEOUT: no piece has come after every request `SEQ` was done (R358). -/
def State.attResultTimeout (s : State) (core id : Nat) : State :=
  let entry := s.rmt.txns.find? fun t => t.owner == .attend core id && !t.quarantined
  match s.desc? id, entry with
  | some d, some t =>
    if d.core != core || !(d.att.any fun a => a.1.isEmpty) || !t.complete || !t.seqs.all (fun e => e.2.phase == .done) then s
    else
      let s1 := (s.onTxn t.tag fun t => { t with tainted := true, quarantined := true }).endDesc d 0x22 0
      s1.raiseCtx .attResultLate d.ctx t.tag
  | _, _ => s

/-! ### Slots at the target -/

/-- A slot of a context changed by a function. -/
def State.onSlot (s : State) (c slot : Nat) (f : AttSlot → AttSlot) : State :=
  s.onCtx c fun x => { x with slots := updFirst (fun a => a.slot == slot) f x.slots }

/-- A slot freed: it leaves its service too. -/
def State.freeSlot (s : State) (c slot : Nat) : State :=
  s.onCtx c fun x => { x with slots := x.slots.filter (fun a => a.slot != slot),
                              services := x.services.map fun v => { v with slots := setDel slot v.slots } }

/-- The slot that a packet matches (R351). -/
def State.matchSlot (s : State) (c : Nat) (p : Packet) : Option AttSlot :=
  (s.ctx c).slots.find? fun a => a.src == p.src && a.tag == p.tag && a.gen == p.gen

/-- Local offset of a slot (R342). -/
def State.slotBase (s : State) (c slot : Nat) : Nat := s.regAt Reg.ATT_QUEUE_BASE c + 204800 * slot

/-- A COMPLETION for `SEQ` values of an attend request. -/
def State.attComplete (s : State) (c : Nat) (a : AttSlot) (seqs : List Nat) : State :=
  s.sendCompletion { src := a.src, tag := a.tag, gen := a.gen, job := a.job, ctx := c, seqs := seqs } seqs

/-- A negative completion for a `SEQ` of an attend request. -/
def State.attNeg (s : State) (c : Nat) (a : AttSlot) (seq reason : Nat) : State :=
  s.sendPkt (some c) { s.ctlPkt .negCompletion a.job a.src with
    tag := a.tag, gen := a.gen, seq := seq, payload := leBytes 8 reason }

/-- The ATTEND_PART packets of a Done slot (R350). -/
def State.sendParts (s : State) (c : Nat) (a : AttSlot) : State :=
  let h := AttHeader.parse a.header
  let r := s.memRead (s.slotBase c a.slot + 69632) h.partLen
  (List.range (ceilDiv h.partLen 4096)).foldl (fun s k =>
    s.sendPkt (some c) { s.dataPkt .attendPart a.job a.src with
      tag := a.tag, gen := a.gen, seq := k, payload := plain (slice (4096 * k) 4096 r.1) }) r.2

/-- A piece written to its Assembling slot; a complete one becomes Queued (R351). -/
def State.takePiece (s : State) (c : Nat) (a : AttSlot) (p : Packet) : State :=
  if a.pieces.contains p.seq then s
  else
    let h := AttHeader.parse a.header
    let w := s.memWrite (s.slotBase c a.slot + 4032 * p.seq) (clean (p.payload.drop 64))
    let now := setIns p.seq a.pieces
    let full := now.length == h.pieces
    let s1 := w.2.onSlot c a.slot fun a =>
      { a with pieces := now, poison := a.poison || w.1 != .ok, phase := if full then .queued else .assembling, order := w.2.disp.nextOrder }
    if full then
      ((s1.onDisp fun d => { d with nextOrder := d.nextOrder + 1 }).attComplete c a (List.range h.pieces)).progressed (contextKey c)
    else s1

/-- A BAD_REQ for a piece, which frees its slot (R352). -/
def State.attBadReq (s : State) (c : Nat) (p : Packet) : State :=
  let s1 := s.sendNeg p p.seq 0x13
  match s.matchSlot c p with
  | some a => s1.freeSlot c a.slot
  | none => s1

/-- An ATTEND_REQ admitted to a landing slot (R351, R352). -/
def State.attAdmit (s : State) (c : Nat) (p : Packet) : State :=
  let head := p.payload.take 64
  let h := AttHeader.parse head
  if s.regAt Reg.ATT_ENABLE c = 0 ∨ p.payload.length < 64 ∨ !h.ok ∨ h.pieces ≤ p.seq ∨
      p.payload.length ≠ 64 + h.pieceLen p.seq then s.attBadReq c p
  else
    match s.matchSlot c p with
    | some a =>
      if a.header ≠ head then s.attBadReq c p
      else match a.phase with
        | .assembling => s.takePiece c a p
        | .queued | .running => s.attComplete c a [p.seq]
        | .done => (s.bump Reg.ATT_RESENDS).sendParts c a
    | none =>
      let used := (s.ctx c).slots.map (·.slot)
      match (List.range (s.regAt Reg.ATT_SLOTS c)).find? fun n => !used.contains n with
      | none => (s.bump Reg.ATT_BUSY_SENT).sendNeg p p.seq 0x10
      | some n =>
        let a : AttSlot := { slot := n, src := p.src, tag := p.tag, gen := p.gen, job := p.job, header := head, pieces := [],
                             phase := .assembling, order := 0, poison := false }
        (s.onCtx c fun x => { x with slots := x.slots ++ [a] }).takePiece c a p

/-- ATTEND_REQ_RECEIVE (R158, R161, R163, R351). -/
def State.takeAttendReq (s : State) (p : Packet) : State :=
  match s.ctxOfJob? p.job with
  | none => s
  | some c =>
    let s1 := s.takeRelease p
    if s1.regAt Reg.CTX_STATE c = 3 then s1.sendNeg p p.seq 0x15
    else
      let a := s1.admitSlot p
      match a.1 with
      | none => a.2
      | some _ => a.2.attAdmit c p

/-- ATT_ASSEMBLY_TIMEOUT (R352). -/
def State.attAssemblyTimeout (s : State) (c slot : Nat) : State :=
  if (s.ctx c).slots.any fun a => a.slot == slot && a.phase == .assembling then
    ((s.freeSlot c slot).bump Reg.ATT_EXPIRED).raiseCtx .attAssemblyExpired c slot
  else s

/-- ATT_HOLD_EXPIRE (R357). -/
def State.attHoldExpire (s : State) (c slot : Nat) : State :=
  if (s.ctx c).slots.any fun a => a.slot == slot && a.phase == .done then s.freeSlot c slot else s

/-! ### The service -/

/-- Whether two requests may share a service (R353). -/
def AttSlot.pairs (a b : AttSlot) : Bool :=
  let h := AttHeader.parse a.header
  let g := AttHeader.parse b.header
  a.header.take 1 == b.header.take 1 && slice 2 1 a.header == slice 2 1 b.header && slice 4 28 a.header == slice 4 28 b.header &&
    !h.poison && !g.poison && decide (h.rows + g.rows ≤ 256)

/-- ATTEND_SERVICE_START: the dispatcher starts the context's oldest Queued slot on a free core, with a second slot where
R353 pairs them. -/
def State.serviceStart (s : State) (c core : Nat) : State :=
  if !(s.blk == .run || s.blk == .drain) || s.decision != some (c, none) || !s.mayServe c core then s
  else
    match s.slotReady c with
    | none => s
    | some a =>
      let rest := (s.ctx c).slots.filter fun b => b.phase == .queued && b.slot != a.slot && a.pairs b
      let mate := if s.regAt Reg.ATT_PAIRING c = 0 then none else rest.find? fun b => rest.all fun x => decide (b.order ≤ x.order)
      let ids := a.slot :: (mate.map (·.slot)).toList
      let s1 := ids.foldl (fun s n => s.onSlot c n fun a => { a with phase := .running }) s
      let s2 := s1.onCtx c fun x => { x with services := x.services ++ [{ core := core, slots := ids }] }
      let s3 := (s2.onDisp fun d => { d with ptr := (c + 1) % 64 }).wakeCore core
      ((if mate.isSome then s3.bump Reg.ATT_PAIRED else s3).progressed (contextKey c)).engineProgress core .dma

/-- A page of keys and values: K by token, V by dimension, each in blocks of 32 with scales; its first token; and whether
a line of it was poisoned. -/
structure KvPage where
  first : Nat
  keys : List Blocks
  vals : List Blocks
  poison : Bool

/-- A page area cut into vectors of `n` elements, each in blocks of 32; elements for which `past` holds, by vector and
element, read zero, and a block's scale reads 0x7F where `pastScale` holds, by vector and block. -/
def kvVectors (fmt count n : Nat) (bs : List Byte) (past pastScale : Nat → Nat → Bool) : List Blocks :=
  let bits := Float.elemBits fmt
  let size := count * n * bits / 8
  let elems := unpack bits (bs.take size)
  let scales := (bs.drop size).map (·.toNat)
  (List.range count).map fun v =>
    let es := (List.range n).map fun e => if past v e then 0 else elems.getD (v * n + e) 0
    let sc := (List.range (n / 32)).map fun b =>
      if !Float.isMx fmt || pastScale v b then 127 else scales.getD (v * (n / 32) + b) 127
    floatBlocks fmt es sc

/-- How a service ended. -/
inductive ServiceEnd where
  | ok
  /-- A translation fault: its offset, and the fault. -/
  | fault (off : Nat) (w : WalkFault)
  /-- A NEG reason of R356. -/
  | neg (reason : Nat)
  deriving DecidableEq, Repr

/-- Bytes of one area of a page, its scales included (R343). -/
def AttHeader.areaLen (h : AttHeader) : Nat :=
  256 * h.dim * Float.elemBits h.kvFmt / 8 + (if Float.isMx h.kvFmt then 8 * h.dim else 0)

/-- One page read through the context's translation (R343, R356). -/
def State.readPage (s : State) (part c : Nat) (h : AttHeader) (j : Nat) : (Except ServiceEnd KvPage) × State :=
  let stop := 256 * h.firstPage + h.tokens
  let g0 := 256 * (h.firstPage + j)
  let e := s.translateRange part c (h.kvTable + 8 * (h.firstPage + j)) 8 .read false
  match e.1 with
  | .error x => (.error (.fault x.1 x.2), e.2)
  | .ok l =>
    let t := e.2.readPieces l
    let k := fld (leNat (plain t.1)) 47 0 + h.headOff
    if anyPoison t.1 then (.error (.neg 0x14), t.2)
    else if k % 128 ≠ 0 then (.error (.neg 0x13), t.2)
    else
      let a := t.2.translateRange part c k h.areaLen .read false
      match a.1 with
      | .error x => (.error (.fault x.1 x.2), a.2)
      | .ok la =>
        let b := a.2.translateRange part c (k + h.vOff) h.areaLen .read false
        match b.1 with
        | .error x => (.error (.fault x.1 x.2), b.2)
        | .ok lb =>
          let ka := b.2.readPieces la
          let va := ka.2.readPieces lb
          let late (t : Nat) : Bool := decide (stop ≤ g0 + t)
          (.ok { first := g0,
                 keys := kvVectors h.kvFmt 256 h.dim (plain ka.1) (fun t _ => late t) (fun t _ => late t),
                 vals := kvVectors h.kvFmt h.dim 256 (plain va.1) (fun _ t => late t) (fun _ b => late (32 * b)),
                 poison := anyPoison ka.1 || anyPoison va.1 }, va.2)

/-- The pages of a request in ascending order, `n` from page `j`; they stop at the first that cannot be used. -/
def State.readPages (s : State) (part c : Nat) (h : AttHeader) (j : Nat) : Nat → (Except ServiceEnd (List KvPage)) × State
  | 0 => (.ok [], s)
  | n + 1 =>
    let p := s.readPage part c h j
    match p.1 with
    | .error e => (.error e, p.2)
    | .ok x =>
      let r := State.readPages p.2 part c h (j + 1) n
      match r.1 with
      | .error e => (.error e, r.2)
      | .ok l => (.ok (x :: l), r.2)

/-- The class format of a request (R354). -/
def AttHeader.classFmt (h : AttHeader) : Nat := if h.kvFmt = 6 then 6 else 4

/-- The format in which the query enters the product: as it stands for FP8 with 8-bit pages, quantised otherwise (R354). -/
def AttHeader.queryFmt (h : AttHeader) : Nat := if h.qFmt != 1 && h.kvFmt != 6 then h.qFmt else h.classFmt

/-- Lanes quantised to an MX format, round to nearest even (R212). -/
def quantise (fmt : Nat) (lanes : List Nat) : List (Nat × List Nat) :=
  (chunksOf 32 lanes).map fun b => let r := mxBlock fmt (b.map fun _ => .rne) b; (r.1, r.2.1)

/-- Quantised blocks as an operand. -/
def quantBlocks (fmt : Nat) (q : List (Nat × List Nat)) : Blocks := floatBlocks fmt (q.flatMap (·.2)) (q.map (·.1))

/-- The values that quantised blocks represent, as FP32 (R208). -/
def quantValues (fmt : Nat) (q : List (Nat × List Nat)) : List Nat :=
  q.flatMap fun b => b.2.map fun c =>
    if b.1 = 0xFF then Float.nan32
    else match (Float.floatOf fmt).map (fun g => g.decode c) with
      | some (Float.Val.fin n m e) => if m = 0 then Float.zero32 n else Float.enc (Float.Val.fin n m (e + b.1 - 127))
      | some v => Float.enc v
      | none => 0

/-- One row of a query as an operand (R354). -/
def AttHeader.queryRow (h : AttHeader) (codes : List Nat) : Blocks :=
  if h.queryFmt = h.qFmt then floatBlocks h.qFmt codes (List.replicate (h.dim / 32) 127)
  else quantBlocks h.classFmt (quantise h.classFmt (codes.map (Float.loadLane h.qFmt)))

/-- The weight of one unit in the last place of a product of two formats. -/
def mmBase (a b : Nat) : Int := ((Float.floatOf a).map (·.emin)).getD 0 + ((Float.floatOf b).map (·.emin)).getD 0

/-- A row's running values: maximum, denominator, outputs, and whether a token has been active. -/
structure RowAcc where
  m : Nat
  l : Nat
  o : List Nat
  active : Bool
  deriving DecidableEq, Repr

/-- One page applied to a row (R354). -/
def attPage (h : AttHeader) (limit : Option Nat) (q : Blocks) (a : RowAcc) (p : KvPage) : RowAcc :=
  let stop := 256 * h.firstPage + h.tokens
  let act := (List.range 256).map fun t => decide (p.first + t < stop) && limit.all fun x => decide (p.first + t < x)
  let s := p.keys.map fun k => Float.fmul (floatCell (mmBase h.queryFmt h.kvFmt) 0 q k) h.scale
  let mask (l : List Nat) : List (Option Nat) := (l.zip act).map fun e => if e.2 then some e.1 else none
  let mn := Float.fmax a.m (redTree 2 (mask s))
  let now := { a with active := a.active || act.any id }
  if mn = Float.inf32 true then now
  else
    let x := (s.zip act).map fun e => if e.2 then Float.exp (Float.fsub e.1 mn) else 0
    let pq := quantise h.classFmt x
    let ps := redTree 1 (mask (quantValues h.classFmt pq))
    let c := Float.exp (Float.fsub a.m mn)
    let pb := quantBlocks h.classFmt pq
    let o := (a.o.zip p.vals).map fun e => Float.ffma e.1 c (floatCell (mmBase h.classFmt h.kvFmt) 0 pb e.2)
    { now with m := mn, l := Float.ffma a.l c ps, o := o }

/-- A row's result over all pages (R354). -/
def attRow (h : AttHeader) (limit : Option Nat) (q : Blocks) (pages : List KvPage) : RowAcc :=
  pages.foldl (attPage h limit q) { m := Float.inf32 true, l := 0, o := List.replicate h.dim 0, active := false }

/-- The flags of a row (R349, R355). -/
def RowAcc.flags (r : RowAcc) (poison : Bool) : Nat :=
  ofBool (Float.isNan r.m || Float.isNan r.l || r.o.any Float.isNan) + 2 * ofBool poison + 4 * ofBool (!r.active)

/-- A line of the partial image: one value per row, and `pad` in the lanes beyond the rows. -/
def partLine (h : AttHeader) (pad : Nat) (l : List Nat) : List Byte :=
  ((List.range (h.pitch / 4)).map fun i => l.getD i pad).flatMap (leBytes 4)

/-- The partial image of a request (R349). -/
def partImage (h : AttHeader) (rows : List RowAcc) (poison : Bool) : List Byte :=
  partLine h 0xFF800000 (rows.map (·.m)) ++ partLine h 0 (rows.map (·.l)) ++ partLine h 0 (rows.map fun r => r.flags poison) ++
    ((List.range h.dim).flatMap fun d => partLine h 0 (rows.map fun r => r.o.getD d 0))

/-- The rows of a request computed over its pages, from its query image (R354, R355). -/
def serveImage (h : AttHeader) (image : List MByte) (pages : List KvPage) : List Byte :=
  let codes := unpack (8 * h.qSize) ((plain image).take (h.rows * h.dim * h.qSize))
  let limits := (plain image).drop (h.rows * h.dim * h.qSize)
  let rows := (List.range h.rows).map fun r =>
    attRow h (if h.limits then some (le (4 * r) 4 limits) else none) (h.queryRow (slice (h.dim * r) h.dim codes)) pages
  partImage h rows (h.poison || anyPoison image || pages.any (·.poison))

/-- Scratchpad bytes that a service overwrites, each left free (R342). -/
def State.scramble (s : State) (core addr len : Nat) : State :=
  let r := s.drawBytes len
  r.2.spadWrite core addr (clean r.1)

/-- The scratchpad range that attention may overwrite: first byte and length (R363). -/
def State.attSpad (s : State) (c : Nat) : Nat × Nat :=
  let v := s.regAt Reg.ATT_SPAD c
  (65536 * fld v 4 0, 65536 * fld v 10 5)

/-- A service removed, and its core free. -/
def State.endService (s : State) (c core : Nat) : State :=
  let r := s.attSpad c
  let s1 := (s.onCtx c fun x => { x with services := x.services.filter fun v => v.core != core }).scramble core r.1 r.2
  let s2 := (s1.progressed (contextKey c)).engineProgress core .dma
  if s2.enginesIdle core && s2.awake core && (s2.core core).run.isNone then s2.setRegAt Reg.PWR_CORE_STATE core 1 else s2

/-- One request of a service answered: its partial image in its slot, and its parts (R357). -/
def State.answerSlot (s : State) (c : Nat) (pages : List KvPage) (a : AttSlot) : State :=
  let h := AttHeader.parse a.header
  let q := s.memRead (s.slotBase c a.slot) h.imageLen
  let image := if a.poison then q.1.map (fun b => (b.1, true)) else q.1
  let w := q.2.memWrite (s.slotBase c a.slot + 69632) (clean (serveImage h image pages))
  ((w.2.onSlot c a.slot fun a => { a with phase := .done }).sendParts c a).bump Reg.ATT_SERVED

/-- The requests of a failed service answered at `SEQ` 0, and their slots freed (R356). -/
def State.failService (s : State) (c core reason : Nat) : State :=
  match (s.ctx c).services.find? fun v => v.core == core with
  | none => s
  | some v =>
    let l := (s.ctx c).slots.filter fun a => v.slots.contains a.slot
    (l.foldl (fun s a => (s.attNeg c a 0 reason).freeSlot c a.slot) s).endService c core

/-- ATTEND_SERVICE_END: the pages are read and the rows computed; a translation fault stalls the service (R354 to R357). -/
def State.serviceEnd (s : State) (c core : Nat) : State :=
  match (s.ctx c).services.find? fun v => v.core == core with
  | none => s
  | some v =>
    if !s.powered || !s.awake core || s.engineStalled core .dma then s
    else
      let l := (s.ctx c).slots.filter fun a => v.slots.contains a.slot
      match l with
      | [] => s.endService c core
      | a :: _ =>
        let h := AttHeader.parse a.header
        let r := s.readPages (s.partOfCore core) c h 0 (attPages h.tokens)
        match r.1 with
        | .error (.fault off w) => r.2.xltRaise c off w .read (.engine core .dma)
        | .error (.neg reason) => r.2.failService c core reason
        | .error .ok => r.2
        | .ok pages =>
          let order := v.slots.filterMap fun n => l.find? fun a => a.slot == n
          (order.foldl (fun s a => s.answerSlot c pages a) r.2).endService c core

/-- The attend slots of a context that is being reset: every unfinished one is answered CTX_RESET, and all are freed
(R360). -/
def State.attReset (s : State) (c : Nat) : State :=
  let s1 := (s.ctx c).slots.foldl (fun s a =>
    match a.phase with
    | .assembling => a.pieces.foldl (fun s k => s.attNeg c a k 0x15) s
    | .queued | .running => s.attNeg c a 0 0x15
    | .done => s) s
  let cores := (s.ctx c).services.map (·.core)
  (cores.foldl (fun s n => s.endService c n) s1).onCtx c fun x => { x with slots := [] }

/-! ### Settings -/

/-- `ATT_ENABLE` set TRUE (R341). -/
def State.attEnableAct (s : State) (c : Nat) : Status × State :=
  let cores := s.regAt Reg.ATT_CORES c
  let v := s.regAt Reg.ATT_SPAD c
  let r := s.spadRange c
  let slots := s.regAt Reg.ATT_SLOTS c
  if !s.isOpen c || cores == 0 || cores &&& s.regAt Reg.CTX_CORES c != cores || decide (fld v 4 0 < r.1) ||
      decide (r.2 < fld v 4 0 + fld v 10 5) || decide (fld v 10 5 < 12) || slots == 0 || decide (256 < slots) ||
      decide (2 ^ 40 < s.regAt Reg.ATT_QUEUE_BASE c + 204800 * slots) then (.outOfRange, s)
  else (.ok, s.setRegAt Reg.ATT_ENABLE c 1)

/-- `ATT_ENABLE` set FALSE: admission stops (R341). -/
def State.attDisableAct (s : State) (c : Nat) : Status × State := (.ok, s.setRegAt Reg.ATT_ENABLE c 0)

/-- Whether the attention settings of a context are locked (R341). -/
def State.attLocked (s : State) (c : Nat) : Bool := s.regAt Reg.ATT_ENABLE c != 0 || !(s.ctx c).slots.isEmpty

end Sys2Proof.Machine
end

