-- ==== Sys2Proof/Machine/Crypto.lean ====
section
/-! DEFINITION. SHA-384 and the check of an ECDSA signature on P-384, which the spec names and does not define (R291, R489):
PRESUMED from FIPS 180-4 and FIPS 186-5. -/
namespace Sys2Proof.Machine.Crypto
open Sys2Proof Sys2Proof.Bits

/-! ### SHA-384 -/

/-- The round constants of SHA-384. Words 0 to 19. -/
def roundWords0 : List Nat :=
  [0x428A2F98D728AE22, 0x7137449123EF65CD, 0xB5C0FBCFEC4D3B2F, 0xE9B5DBA58189DBBC, 0x3956C25BF348B538,
   0x59F111F1B605D019, 0x923F82A4AF194F9B, 0xAB1C5ED5DA6D8118, 0xD807AA98A3030242, 0x12835B0145706FBE,
   0x243185BE4EE4B28C, 0x550C7DC3D5FFB4E2, 0x72BE5D74F27B896F, 0x80DEB1FE3B1696B1, 0x9BDC06A725C71235,
   0xC19BF174CF692694, 0xE49B69C19EF14AD2, 0xEFBE4786384F25E3, 0x0FC19DC68B8CD5B5, 0x240CA1CC77AC9C65]

/-- The round constants of SHA-384. Words 20 to 39. -/
def roundWords1 : List Nat :=
  [0x2DE92C6F592B0275, 0x4A7484AA6EA6E483, 0x5CB0A9DCBD41FBD4, 0x76F988DA831153B5, 0x983E5152EE66DFAB,
   0xA831C66D2DB43210, 0xB00327C898FB213F, 0xBF597FC7BEEF0EE4, 0xC6E00BF33DA88FC2, 0xD5A79147930AA725,
   0x06CA6351E003826F, 0x142929670A0E6E70, 0x27B70A8546D22FFC, 0x2E1B21385C26C926, 0x4D2C6DFC5AC42AED,
   0x53380D139D95B3DF, 0x650A73548BAF63DE, 0x766A0ABB3C77B2A8, 0x81C2C92E47EDAEE6, 0x92722C851482353B]

/-- The round constants of SHA-384. Words 40 to 59. -/
def roundWords2 : List Nat :=
  [0xA2BFE8A14CF10364, 0xA81A664BBC423001, 0xC24B8B70D0F89791, 0xC76C51A30654BE30, 0xD192E819D6EF5218,
   0xD69906245565A910, 0xF40E35855771202A, 0x106AA07032BBD1B8, 0x19A4C116B8D2D0C8, 0x1E376C085141AB53,
   0x2748774CDF8EEB99, 0x34B0BCB5E19B48A8, 0x391C0CB3C5C95A63, 0x4ED8AA4AE3418ACB, 0x5B9CCA4F7763E373,
   0x682E6FF3D6B2B8A3, 0x748F82EE5DEFB2FC, 0x78A5636F43172F60, 0x84C87814A1F0AB72, 0x8CC702081A6439EC]

/-- The round constants of SHA-384. Words 60 to 79. -/
def roundWords3 : List Nat :=
  [0x90BEFFFA23631E28, 0xA4506CEBDE82BDE9, 0xBEF9A3F7B2C67915, 0xC67178F2E372532B, 0xCA273ECEEA26619C,
   0xD186B8C721C0C207, 0xEADA7DD6CDE0EB1E, 0xF57D4F7FEE6ED178, 0x06F067AA72176FBA, 0x0A637DC5A2C898A6,
   0x113F9804BEF90DAE, 0x1B710B35131C471B, 0x28DB77F523047D84, 0x32CAAB7B40C72493, 0x3C9EBE0A15C9BEBC,
   0x431D67C49C100D4C, 0x4CC5D4BECB3E42B6, 0x597F299CFC657E2A, 0x5FCB6FAB3AD6FAEC, 0x6C44198C4A475817]

/-- The round constants of SHA-384. -/
def roundWords : List Nat := roundWords0 ++ roundWords1 ++ roundWords2 ++ roundWords3

/-- The initial hash value of SHA-384. -/
def startWords : List Nat :=
  [0xCBBB9D5DC1059ED8, 0x629A292A367CD507, 0x9159015A3070DD17, 0x152FECD8F70E5939, 0x67332667FFC00B31,
   0x8EB44A8768581511, 0xDB0C2E0D64F98FA7, 0x47B5481DBEFA4FA4]

/-- A 64-bit word rotated right. -/
def ror (x n : Nat) : Nat := (x >>> n ||| x <<< (64 - n)) % 2 ^ 64

/-- The message words of one 128-byte block, most significant byte first, extended to 80. -/
def schedule (block : List Byte) : List Nat :=
  let w := (List.range 16).map fun i => beNat (slice (8 * i) 8 block)
  let step (r : List Nat) (_ : Nat) : List Nat :=
    let a := r.getD 1 0
    let b := r.getD 14 0
    let s0 := ror b 1 ^^^ ror b 8 ^^^ b >>> 7
    let s1 := ror a 19 ^^^ ror a 61 ^^^ a >>> 6
    (s1 + r.getD 6 0 + s0 + r.getD 15 0) % 2 ^ 64 :: r
  ((List.range 64).foldl step w.reverse).reverse

/-- One round of the compression. -/
def round (v : List Nat) (kw : Nat) : List Nat :=
  match v with
  | [a, b, c, d, e, f, g, h] =>
    let t1 := h + (ror e 14 ^^^ ror e 18 ^^^ ror e 41) + (e &&& f ^^^ (2 ^ 64 - 1 - e) &&& g) + kw
    let t2 := (ror a 28 ^^^ ror a 34 ^^^ ror a 39) + (a &&& b ^^^ a &&& c ^^^ b &&& c)
    [(t1 + t2) % 2 ^ 64, a, b, c, (d + t1) % 2 ^ 64, e, f, g]
  | _ => v

/-- The hash value after one block. -/
def compress (h : List Nat) (block : List Byte) : List Nat :=
  let v := ((schedule block).zip roundWords).foldl (fun v p => round v (p.1 + p.2)) h
  (h.zip v).map fun p => (p.1 + p.2) % 2 ^ 64

/-- A message with its padding. -/
def padded (m : List Byte) : List Byte := m ++ 0x80 :: zeros ((239 - m.length % 128) % 128) ++ beBytes 16 (8 * m.length)

/-- The hash over the blocks of a padded message; `fuel` bounds the blocks. -/
def blocks : Nat → List Nat → List Byte → List Nat
  | 0, h, _ => h
  | n + 1, h, m => blocks n (compress h (m.take 128)) (m.drop 128)

/-- SHA-384: 48 bytes. -/
def sha384 (m : List Byte) : List Byte :=
  let p := padded m
  ((blocks (p.length / 128) startWords p).take 6).flatMap (beBytes 8)

/-! ### P-384 -/

/-- The prime of the field. -/
def prime : Nat := 2 ^ 384 - 2 ^ 128 - 2 ^ 96 + 2 ^ 32 - 1

/-- The coefficient *b* of the curve; *a* is −3. -/
def curveB : Nat :=
  0xB3312FA7E23EE7E4988E056BE3F82D19181D9C6EFE8141120314088F5013875AC656398D8A2ED19D2A85C8EDD3EC2AEF

/-- The order of the base point. -/
def order : Nat :=
  0xFFFFFFFFFFFFFFFFFFFFFFFFFFFFFFFFFFFFFFFFFFFFFFFFC7634D81F4372DDF581A0DB248B0A77AECEC196ACCC52973

/-- The base point. -/
def base : Nat × Nat :=
  (0xAA87CA22BE8B05378EB1C71EF320AD746E1D3B628BA79B9859F741E082542A385502F25DBF55296C3A545E3872760AB7,
   0x3617DE4A96262C6F5D9E98BF9292DC29F8F41DBD289A147CE9DA3113B5F0B8C00A60B1CE1D7E819D7A431D7C90EA0E5F)

/-- A power modulo `m`; `n` bounds the exponent's bits. -/
def powMod (m : Nat) : Nat → Nat → Nat → Nat
  | 0, _, _ => 1 % m
  | n + 1, b, e => if e % 2 = 1 then b * powMod m n (b * b % m) (e / 2) % m else powMod m n (b * b % m) (e / 2)

/-- The inverse modulo a prime. -/
def inverse (m x : Nat) : Nat := powMod m 384 (x % m) (m - 2)

/-- A point of the curve in projective form (X : Y : Z) with x = X/Z² and y = Y/Z³; Z is 0 at infinity. -/
structure Point where
  x : Nat
  y : Nat
  z : Nat

/-- The point at infinity. -/
def Point.zero : Point := { x := 1, y := 1, z := 0 }

/-- A difference in the field. -/
def sub (a b : Nat) : Nat := (a + prime - b % prime) % prime

/-- A point doubled. -/
def Point.double (p : Point) : Point :=
  if p.z = 0 ∨ p.y = 0 then .zero
  else
    let yy := p.y * p.y % prime
    let s := 4 * p.x * yy % prime
    let zz := p.z * p.z % prime
    let m := 3 * (sub p.x zz * (p.x + zz) % prime) % prime
    let x := sub (m * m % prime) (2 * s)
    { x := x, y := sub (m * sub s x % prime) (8 * (yy * yy % prime)), z := 2 * p.y * p.z % prime }

/-- Two points added. -/
def Point.add (p q : Point) : Point :=
  if p.z = 0 then q
  else if q.z = 0 then p
  else
    let pz := p.z * p.z % prime
    let qz := q.z * q.z % prime
    let u1 := p.x * qz % prime
    let u2 := q.x * pz % prime
    let s1 := p.y * (qz * q.z % prime) % prime
    let s2 := q.y * (pz * p.z % prime) % prime
    if u1 = u2 then (if s1 = s2 then p.double else .zero)
    else
      let h := sub u2 u1
      let r := sub s2 s1
      let hh := h * h % prime
      let hhh := h * hh % prime
      let v := u1 * hh % prime
      let x := sub (sub (r * r % prime) hhh) (2 * v)
      { x := x, y := sub (r * sub v x % prime) (s1 * hhh % prime), z := h * (p.z * q.z % prime) % prime }

/-- A point times a number of at most `n` bits. -/
def Point.times : Nat → Nat → Point → Point
  | 0, _, _ => .zero
  | n + 1, k, p => let r := Point.times n (k / 2) p.double; if k % 2 = 1 then r.add p else r

/-- The affine x coordinate of a point that is not at infinity. -/
def Point.affineX (p : Point) : Nat := p.x * inverse prime (p.z * p.z % prime) % prime

/-- Whether a public key is a point of the curve. -/
def keyOk (x y : Nat) : Bool :=
  decide (x < prime ∧ y < prime) && y * y % prime == (x * x % prime * x + curveB + (prime - 3) * x) % prime

/-- Whether a signature *r*, *s* over a message verifies under a public key: ECDSA P-384 with SHA-384. -/
def verify (key sig message : List Byte) : Bool :=
  let x := beNat (key.take 48)
  let y := beNat (slice 48 48 key)
  let r := beNat (sig.take 48)
  let s := beNat (slice 48 48 sig)
  if !keyOk x y || r == 0 || decide (order ≤ r) || s == 0 || decide (order ≤ s) then false
  else
    let w := inverse order s
    let u1 := beNat (sha384 message) * w % order
    let u2 := r * w % order
    let p := (Point.times 384 u1 { x := base.1, y := base.2, z := 1 }).add (Point.times 384 u2 { x := x, y := y, z := 1 })
    p.z % prime != 0 && p.affineX % order == r

end Sys2Proof.Machine.Crypto
end

