-- ==== Sys2Proof/Machine/HostPort.lean ====
section
/-! DEFINITION. The host control port: its register window, its rings, answers to translation faults, and range
invalidation (R36 to R42, R188 to R200, R280). -/
namespace Sys2Proof.Machine
open Sys2Proof Sys2Proof.Bits

/-- Whether HCP runs: out of Off and Reset, with HCLK detected (R51, R53). -/
def State.hcpRuns (s : State) : Bool := s.blk != .off && s.blk != .reset && s.rst.hclk

/-- The state with the answer of the last target write noted: HCP_T_RERR (R40). -/
def State.answerHcp (s : State) (err : Bool) : State := s.onHcp fun h => { h with rerr := err }

/-! ### Rings and initiator writes -/

/-- Writes of a kind that wait on the initiator side. -/
def State.queuedWrites (s : State) (k : HcpKind) : Nat := (s.hcp.queue.filter fun w => w.kind == k).length

/-- The first waiting record of a ring given to the initiator side, where the ring has room for it (R191). -/
def HostRing.take (r : HostRing) (queued : Nat) (kind : HcpKind) : Option (HostRing × HcpWrite) :=
  match r.waiting with
  | [] => none
  | (_, bs) :: rest =>
    let at_ := (r.tail + queued) % 2 ^ 32
    if { r with tail := at_ }.room then
      some ({ r with waiting := rest }, { kind := kind, addr := r.base + 32 * (at_ % 2 ^ r.sizeLog2), data := bs })
    else none

/-- FAULT_RECORD_WRITE: the next waiting fault record goes to the initiator side, or waits for room (R191). -/
def State.faultRecordWrite (s : State) : State :=
  match s.hcp.fq.take (s.queuedWrites .faultRecord) .faultRecord with
  | none => s
  | some (r, w) => s.onHcp fun h => { h with fq := r, queue := h.queue ++ [w] }

/-- Completion records of invalidations go to the initiator side as far as their ring has room; `fuel` bounds them
(R195). -/
def State.pumpInv (s : State) : Nat → State
  | 0 => s
  | fuel + 1 =>
    match s.hcp.iq.take (s.queuedWrites .invRecord) .invRecord with
    | none => s
    | some (r, w) => (s.onHcp fun h => { h with iq := r, queue := h.queue ++ [w] }).pumpInv fuel

/-- Every completion record that fits. -/
def State.pumpIq (s : State) : State := s.pumpInv s.hcp.iq.waiting.length

/-- HCP_INITIATOR_WRITE: the oldest write transfers; a record's tail advances, and its vector is asserted (R36, R41,
R191, R195). -/
def State.initiatorWrite (s : State) : State :=
  match s.hcp.queue with
  | [] => s
  | w :: rest =>
    if !s.hcpRuns then s
    else
      let s1 := s.onHcp fun h => { h with queue := rest, last := some w, stallSeen := false }
      let step (r : HostRing) : HostRing := { r with tail := (r.tail + 1) % 2 ^ 32 }
      match w.kind with
      | .message => s1
      | .faultRecord => (s1.onHcp fun h => { h with fq := step h.fq }).assertVector s1.hcp.fq.vector
      | .invRecord => (s1.onHcp fun h => { h with iq := step h.iq }).assertVector s1.hcp.iq.vector

/-- HCP_STALL_TIMEOUT: one HCP_STALL for one continuous not-ready interval (R41). -/
def State.hcpStall (s : State) : State :=
  if s.hcp.queue.isEmpty || s.hcp.stallSeen then s
  else (s.onHcp fun h => { h with stallSeen := true }).raise .hcpStall .none 0xFF 0

/-- Whether a ring takes a head written to it: one that is neither ahead of the tail nor more than the ring size behind
it (R191). -/
def HostRing.takesHead (r : HostRing) (v : Nat) : Bool :=
  decide ((r.tail + 2 ^ 32 - v % 2 ^ 32) % 2 ^ 32 ≤ if r.sizeLog2 = 0 then 0 else 2 ^ r.sizeLog2)

/-- `FQ_HEAD` written (R191). -/
def State.fqHead (s : State) (v : Nat) : State :=
  if s.hcp.fq.takesHead v then (s.onHcp fun h => { h with fq := { h.fq with head := v % 2 ^ 32 } }).answerHcp false
  else s.answerHcp true

/-- `IQ_HEAD` written (R195). -/
def State.iqHead (s : State) (v : Nat) : State :=
  if s.hcp.iq.takesHead v then ((s.onHcp fun h => { h with iq := { h.iq with head := v % 2 ^ 32 } }).answerHcp false).pumpIq
  else s.answerHcp true

/-! ### Interrupt vectors -/

/-- `IV_ACK` of a vector written 1; an assertion in the same cycle prevails (R42). -/
def State.ackVector (s : State) (v : Nat) (asserted : Bool) : State :=
  if asserted then s.assertVector v else s.setVector v { s.vector v with pending := false }

/-- A vector unmasked: a pending one writes its one message (R42). -/
def State.unmaskVector (s : State) (v : Nat) : State :=
  let x := s.vector v
  let y := { x with mask := false }
  if x.pending then
    match s.build.irqMode with
    | .wires => s.setVector v y
    | .messages => (s.queueMessage x).setVector v { y with pending := false }
    | .both => if x.mask then (s.queueMessage x).setVector v y else s.setVector v y
  else s.setVector v y

/-! ### The doorbell -/

/-- A doorbell write (R39, R40, R280): refused where the context is not Open, or the tail lies too far ahead. -/
def State.doorbell (s : State) (c tail : Nat) : State :=
  let t := tail % 2 ^ 32
  let ahead := (t + 2 ^ 32 - s.regAt Reg.CTX_RING_HEAD c) % 2 ^ 32
  if !s.isOpen c || decide (2 ^ s.regAt Reg.CTX_RING_SIZE_LOG2 c < ahead) then
    (s.bumpAt Reg.CTX_DOORBELL_ERRORS c).raiseCtx .doorbellError c t
  else s.onHcp fun h => { h with tails := Table.put h.tails 0 c t }

/-! ### Answers to translation faults -/

/-- The item of a plan at which a core's DMA engine waits fails with LOCAL_FAULT: its `SEQ` fails, and the plan goes on
(R152, R170, R188). -/
def State.failItem (s : State) (core : Nat) (elem : Option Nat) : State :=
  let hit (p : TxnPlan) : Bool := p.core == core && p.tag.isSome && p.owner != .imagePush &&
    p.items.any fun i => elem.all fun e => i.seq == e
  match s.rmt.plans.find? hit with
  | none => s
  | some p =>
    match p.items.find? (fun i => elem.all fun e => i.seq == e) with
    | none => s
    | some i =>
      let tag := p.tag.getD 0
      let dead := { SeqState.fresh i.pkt with phase := .failed 0x34 }
      let rest := p.items.filter fun y => y != i
      let s1 := s.onTxn tag fun t => { t with seqs := t.seqs ++ [(i.seq, dead)], tainted := true }
      if rest.isEmpty then
        ((s1.onRmt fun r => { r with plans := dropFirst (· == p) r.plans }).onTxn tag fun t => { t with complete := true }).checkTxn tag
      else s1.onRmt fun r => { r with plans := updFirst (· == p) (fun y => { y with items := rest }) r.plans }

/-- Whether some plan of a core's DMA engine waits at an item. -/
def State.planWaits (s : State) (core : Nat) : Bool :=
  s.rmt.plans.any fun p => p.core == core && p.tag.isSome && p.owner != .imagePush

/-- An access refused by the host fails (R188). -/
def State.refuseAccess (s : State) (ctx : Nat) (write : Bool) : Accessor → State
  | .dispatcher => s.refuseDispatcher ctx write
  | .element core e => s.failItem core (some e)
  | .engine core .reduction => s.collFault core
  | .engine core .control => s.taskError core 0x64
  | .engine core .dma =>
    if s.serving core then s.failService ctx core 0x12
    else if s.planWaits core && !(s.core core).run.any (fun r => r.arg.isSome) then s.failItem core none
    else s.taskError core 0x56
  | .engine _ _ => s
  | .remote src tag gen q e =>
    match s.rmt.parked.find? (fun x => x.accessor == .remote src tag gen q e) with
    | some x => s.refuseParked x
    | none => s

/-- An access whose fault is served: a parked packet is performed again; an engine replays when it next runs (R188). -/
def State.retryAccess (s : State) (ctx : Nat) : Accessor → State
  | .dispatcher => s.writeRecords ctx
  | .remote src tag gen q e =>
    match s.rmt.parked.find? (fun x => x.accessor == .remote src tag gen q e) with
    | some x => s.retryParked x
    | none => s
  | _ => s

/-- An answer that names no unanswered fault: it is counted, and a held identifier is free again (R190, R191). -/
def State.staleAnswer (s : State) (id : Nat) : State :=
  ((s.onXlt fun x => { x with faults := x.faults.filter fun f => f.id != some id }).bump Reg.XLT_STALE_ANSWERS).assignIds

/-- The host answers RETRY: cached entries of the page leave, and every access that joined replays (R188, R189). -/
def State.resolveRetry (s : State) (id : Nat) : State :=
  match s.xlt.faults.find? (fun f => f.live && f.id == some id) with
  | none => s.staleAnswer id
  | some f =>
    let base := f.off / 65536 * 65536
    let s1 := (s.onXlt fun x => { x with faults := x.faults.filter fun y => y.id != some id }).invalidate (some f.ctx) base (base + 65536)
    (f.who.foldl (fun s w => s.retryAccess f.ctx w) s1.assignIds).runOrdered (s1.rmt.parked.length + 1)

/-- The host answers REFUSE: every access that joined fails, and XLT_REFUSED is raised (R188, R189). -/
def State.resolveRefuse (s : State) (id : Nat) : State :=
  match s.xlt.faults.find? (fun f => f.live && f.id == some id) with
  | none => s.staleAnswer id
  | some f =>
    let s1 := ((s.onXlt fun x => { x with faults := x.faults.filter fun y => y.id != some id }).assignIds).raiseCtx .xltRefused f.ctx id
    (f.who.foldl (fun s w => s.refuseAccess f.ctx f.write w) s1).runOrdered (s1.rmt.parked.length + 1)

/-- XLT_SERVICE_TIMEOUT of an unanswered fault: it is refused, and its identifier held (R190). The fault is named by its
context, offset and type, since it may have no identifier yet. -/
def State.serviceTimeout (s : State) (c off : Nat) (ty : XltType) : State :=
  let hit (f : XltFault) : Bool := f.live && f.ctx == c && f.off / 65536 == off / 65536 && f.ty == ty
  match s.xlt.faults.find? hit with
  | none => s
  | some f =>
    let faults := if f.id.isSome then updFirst hit (fun y => { y with live := false, who := [] }) s.xlt.faults
      else dropFirst hit s.xlt.faults
    let d := s.drawNat
    let s1 := (d.2.onXlt fun x => { x with faults := faults }).raiseCtx .xltServiceLate c (f.id.getD (d.1 % 4096))
    (f.who.foldl (fun s w => s.refuseAccess c f.write w) s1).runOrdered (s1.rmt.parked.length + 1)

/-- The end of the time for which an identifier without a live fault is held (R190). -/
def State.idHoldExpire (s : State) (id : Nat) : State :=
  (s.onXlt fun x => { x with faults := x.faults.filter fun f => f.live || f.id != some id }).assignIds

/-- XLT_ACC_FLUSH: the pending counts of every cached leaf are added to their arrays (R194). -/
def State.accFlush (s : State) : State :=
  (s.xlt.leaves.foldl State.flushLeaf s).onXlt fun x => { x with leaves := x.leaves.map fun l => { l with reads := 0, writes := 0 } }

/-- PAGE_WALK: an access of a context is translated in a partition's cache, by a walk where the cache misses; a fault is
raised for whoever makes it (R185, R187, R188). -/
def State.pageWalk (s : State) (part c off : Nat) (kind : AccessKind) (who : Accessor) : State :=
  let r := s.translate part c off kind who.isRemote
  match r.1 with
  | .error e => r.2.xltRaise c off e kind who
  | .ok _ => r.2

/-! ### Range invalidation -/

/-- `INV_GO` (R195, R196). -/
def State.invGo (s : State) (c : Nat) (all : Bool) (ticket : Nat) : State :=
  if 16 ≤ s.hcp.invs.length then s.answerHcp true
  else
    let start := s.hcp.invStart * 65536
    let stop := min (2 ^ 48) (start + 65536 * (s.hcp.invPagesM1 + 1))
    let ctx := if all then none else some c
    let x : Inval := { ctx := ctx, ticket := ticket % 2 ^ 16, start := start, stop := stop, pagesM1 := s.hcp.invPagesM1,
                       began := s.tclk }
    ((s.onHcp fun h => { h with invs := h.invs ++ [x] }).invalidate ctx start stop).answerHcp false

/-- Whether an invalidation concerns a context. -/
def Inval.touches (x : Inval) (c : Nat) : Bool := x.ctx.all fun y => y == c

/-- Whether something still holds an invalidation: an access stalled on a fault in its range (R196 step 3), or a pinned
landing that touches it (step 4). -/
def State.invHeld (s : State) (x : Inval) : Bool :=
  s.xlt.faults.any (fun f => f.live && x.touches f.ctx && decide (x.start ≤ f.off ∧ f.off < x.stop) &&
      f.who.any fun w => !w.isRemote) ||
    s.rmt.txns.any fun t => !t.quarantined && t.space == .mem && x.touches t.ctx &&
      t.pieces.any fun p => decide (p.addr < x.stop ∧ x.start < p.addr + p.len)

/-- INV_COMPLETE: the oldest invalidation, once nothing holds it, writes its record (R196, R197, R199). -/
def State.invComplete (s : State) : State :=
  match s.hcp.invs with
  | [] => s
  | x :: rest =>
    if s.invHeld x then s
    else
      let ns := (s.tclk - x.began) * 32 / 5
      let late := decide (4000 < ns)
      let bs := leBytes 2 x.ticket ++ leBytes 1 (x.ctx.getD 0xFF) ++ leBytes 1 (ofBool late) ++ leBytes 4 (min ns 0xFFFFFFFF) ++
        leBytes 4 (x.start / 65536) ++ leBytes 4 x.pagesM1 ++ zeros 8 ++ leBytes 8 s.stamp
      let s1 := if late then s.bump Reg.XLT_INV_LATE else s
      (s1.onHcp fun h => { h with invs := rest, iq := { h.iq with waiting := h.iq.waiting ++ [(none, bs)] } }).pumpIq

/-! ### The register window -/

/-- A word with the bytes that a strobe enables replaced. -/
def strobed (old new strobe : Nat) : Nat :=
  leNat ((List.range 8).map fun i => BitVec.ofNat 8 (if strobe.testBit i then new >>> (8 * i) else old >>> (8 * i)))

/-- A ring size accepted by its register: 0, or a power in a range (R191, R195). -/
def sizeOk (v lo hi : Nat) : Bool := v == 0 || (decide (lo ≤ v) && decide (v ≤ hi))

/-- A write to word 1 of a vector's entry: data, mask and acknowledgement (R42). -/
def State.vectorWord (s : State) (v value strobe : Nat) : State :=
  let x := s.vector v
  let w := strobed (x.data + 2 ^ 32 * ofBool x.mask) value strobe
  let s1 := s.setVector v { x with data := fld w 31 0, mask := bit w 32 || x.mask }
  let s2 := if bit w 32 then s1 else s1.unmaskVector v
  if strobe.testBit 4 && bit value 34 then s2.ackVector v false else s2

/-- A write of the fault queue control words (R191); none where the offset is unmapped. -/
def State.fqWord (s : State) (o value strobe : Nat) : State :=
  let r := s.hcp.fq
  let put (r : HostRing) : State := (s.onHcp fun h => { h with fq := r }).answerHcp false
  match o with
  | 0x00 => put { r with base := strobed r.base value strobe / 4096 * 4096 }
  | 0x08 => let v := strobed r.sizeLog2 value strobe; if sizeOk v 6 16 then put { r with sizeLog2 := v } else s.answerHcp true
  | 0x10 => s.answerHcp false
  | 0x18 => s.fqHead (strobed r.head value strobe)
  | 0x20 => put { r with vector := strobed r.vector value strobe % 64 }
  | 0x28 =>
    let v := strobed 0 value strobe
    (if bit v 16 then s.resolveRefuse (fld v 11 0) else s.resolveRetry (fld v 11 0)).answerHcp false
  | 0x30 => s.answerHcp false
  | _ => s.answerHcp true

/-- A write of the invalidation control words (R195). -/
def State.iqWord (s : State) (o value strobe : Nat) : State :=
  let r := s.hcp.iq
  let put (r : HostRing) : State := ((s.onHcp fun h => { h with iq := r }).answerHcp false).pumpIq
  match o with
  | 0x00 => put { r with base := strobed r.base value strobe / 4096 * 4096 }
  | 0x08 => let v := strobed r.sizeLog2 value strobe; if sizeOk v 4 12 then put { r with sizeLog2 := v } else s.answerHcp true
  | 0x10 => s.answerHcp false
  | 0x18 => s.iqHead (strobed r.head value strobe)
  | 0x20 => put { r with vector := strobed r.vector value strobe % 64 }
  | 0x28 => (s.onHcp fun h => { h with invStart := fld (strobed (s.hcp.invStart * 65536) value strobe) 47 16 }).answerHcp false
  | 0x30 => (s.onHcp fun h => { h with invPagesM1 := strobed s.hcp.invPagesM1 value strobe % 2 ^ 32 }).answerHcp false
  | 0x38 => let v := strobed 0 value strobe; s.invGo (fld v 5 0) (bit v 6) (fld v 31 16)
  | 0x40 => s.answerHcp false
  | _ => s.answerHcp true

/-- A host write to a word of the register window (R37 to R42, R191, R195). -/
def State.hcpWrite (s : State) (offset value strobe : Nat) : State :=
  if !s.hcpRuns then s
  else if offset % 8 ≠ 0 then s.answerHcp true
  else if offset ≤ 0x10 then s.answerHcp false
  else if 0x1000 ≤ offset ∧ offset < 0x2000 then
    if offset % 64 = 0 then
      let c := (offset - 0x1000) / 64
      (s.doorbell c (strobed (Table.get s.hcp.tails 0 c) value strobe)).answerHcp false
    else s.answerHcp true
  else if 0x2000 ≤ offset ∧ offset < 0x2400 then
    let v := (offset - 0x2000) / 16
    if offset % 16 = 0 then
      (s.setVector v { s.vector v with addr := strobed (s.vector v).addr value strobe / 4 * 4 }).answerHcp false
    else (s.vectorWord v value strobe).answerHcp false
  else if 0x3000 ≤ offset ∧ offset < 0x3100 then s.fqWord (offset - 0x3000) value strobe
  else if 0x3100 ≤ offset ∧ offset < 0x3200 then s.iqWord (offset - 0x3100) value strobe
  else s.answerHcp true

end Sys2Proof.Machine
end

