-- ==== Sys2Proof/Machine/Image.lean ====
section
/-! DEFINITION. Task images: their check, their load and exchange, and the image push (R291 to R295). -/
namespace Sys2Proof.Machine
open Sys2Proof Sys2Proof.Bits

/-- The largest image: header, code and data (R291, R293). -/
def maxImage : Nat := 33554688

/-- The error that an image's header shows; 0 for none (R291, R297). -/
def headerError (h : List Byte) : Nat :=
  let code := le 8 4 h
  if slice 0 4 h ≠ [0x49, 0x4D, 0x47, 0x35] then 1
  else if le 5 1 h ≠ 2 ∨ 1 < le 4 1 h then 2
  else if code % 4 ≠ 0 ∨ code < 4 ∨ 2 ^ 24 < code ∨ 2 ^ 24 < le 12 4 h then 3
  else if le 6 2 h ≠ 0 ∨ le 18 2 h ≠ 0 ∨ (slice 224 32 h).any (· != 0) then 6
  else 0

/-- Whether an image's key is fused and not revoked (R291, R507). -/
def State.imageKeyOk (s : State) (h : List Byte) : Bool :=
  let hash := beNat (Crypto.sha384 (slice 32 96 h))
  (List.range 4).any fun k => !s.revoked.testBit k && (s.build.imageKeys.getD k 0 != 0) && s.build.imageKeys.getD k 0 == hash

/-- Whether an image's signature verifies: over bytes 0 to 127 and every byte from 256 (R291). -/
def signatureOk (bs : List Byte) : Bool :=
  Crypto.verify (slice 32 96 bs) (slice 128 96 bs) (bs.take 128 ++ bs.drop 256)

/-- `CTX_IMAGE_LOAD`: the image is read once, copied to the home that is not in use, and its check begins (R292). An image
read poisoned, or not written whole, does not verify. -/
def State.imageLoadAct (s : State) (c : Nat) : Status × State :=
  let st := s.regAt Reg.CTX_IMAGE_STATE c
  if st = 1 ∨ st = 3 then (.busy, s)
  else
    let stage := s.regAt Reg.CTX_IMAGE_STAGE c
    let a := !((s.ctx c).image.any (·.homeA))
    let r := s.memRead stage 256
    let h := plain r.1
    let err := headerError h
    let img : Image := { homeA := a, codeLen := le 8 4 h, decl := le 16 2 h, serial := le 20 4 h }
    let begin_ (s : State) (e : Nat) : State :=
      (s.onCtx c fun x => { x with loading := some (img, e) }).setRegAt Reg.CTX_IMAGE_STATE c 1
    if err ≠ 0 then (.ok, begin_ r.2 err)
    else
      let q := r.2.memRead stage (256 + le 8 4 h + le 12 4 h)
      let bs := plain q.1
      let w := q.2.memWrite (s.homeOf c img) (clean bs)
      let e := if !s.imageKeyOk h then 4 else if anyPoison q.1 || w.1 != .ok || !signatureOk bs then 5 else 0
      (.ok, begin_ w.2 e)

/-- The exchange point of a valid image (R295): undeclared slots are disarmed, and the old image stays in use until its
last task ends. -/
def State.exchange (s : State) (c : Nat) (img : Image) : State :=
  let keep (t : Table Trig) : Table Trig := t.filter fun e => img.decl.testBit e.1
  let s1 := s.onCtx c fun x => { x with loading := none, old := x.image, image := some img, trigs := keep x.trigs }
  let s2 := ((s1.setRegAt Reg.CTX_IMAGE_SERIAL c img.serial).setRegAt Reg.CTX_TRIG_DECL c img.decl).setRegAt Reg.CTX_IMAGE_ERROR c 0
  (s2.setRegAt Reg.CTX_IMAGE_STATE c (if (s.ctx c).image.isSome then 3 else 2)).releaseOld c

/-- IMAGE_VERIFY_COMPLETE: an invalid image is rejected, and a valid one exchanged (R292, R295). -/
def State.imageVerified (s : State) (c : Nat) : State :=
  match (s.ctx c).loading with
  | none => s
  | some (img, e) =>
    if e = 0 then s.exchange c img
    else
      let s1 := (s.onCtx c fun x => { x with loading := none }).setRegAt Reg.CTX_IMAGE_ERROR c e
      (s1.setRegAt Reg.CTX_IMAGE_STATE c (if (s.ctx c).image.isSome then 2 else 0)).raiseCtx .imageRejected c e

/-! ### The push -/

/-- One packet of an image push (R293). -/
def State.pushItem (s : State) (k len src dest : Nat) : PlanItem :=
  let base : Packet := s.dataPkt .imageLoad 0 (fld dest 15 0)
  let pkt : Packet := { base with ordered := true, seq := k, destOffset := 4096 * k, opArg := fld dest 21 16 }
  { seq := k, addr := src + 4096 * k, len := min 4096 (len - 4096 * k), reads := true, pkt := pkt }

/-- `IMG_PUSH_GO` (R293). -/
def State.pushAct (s : State) : Status × State :=
  if s.disp.pushing ∨ s.ownChip = 0xFFFF then (.busy, s)
  else
    let len := s.reg Reg.IMG_PUSH_LEN
    let dest := s.reg Reg.IMG_PUSH_DEST
    let plan : TxnPlan := {
      ctx := 64, part := 0, dest := fld dest 15 0, kind := .image, owner := .imagePush, ord := 0, space := .mem, tag := none,
      items := (List.range (ceilDiv len 4096)).map fun k => s.pushItem k len (s.reg Reg.IMG_PUSH_SRC) dest, cas := none }
    let s1 := (s.setReg Reg.IMG_PUSH_STATE 1).setReg Reg.IMG_PUSH_STATUS 0
    (.ok, (s1.onDisp fun d => { d with pushing := true }).onRmt fun r => { r with plans := r.plans ++ [plan] })

/-- IMAGE_LOAD_RECEIVE (R293): a write through local offsets, and its COMPLETION. -/
def State.takeImage (s : State) (p : Packet) : State :=
  let c := fld p.opArg 5 0
  if s.regAt Reg.CTX_IMAGE_INBAND c = 0 ∨ maxImage < p.destOffset + p.payload.length then s.sendNeg p p.seq 0x13
  else if s.regAt Reg.CTX_IMAGE_STATE c = 1 then s.sendNeg p p.seq 0x10
  else
    let w := s.memWrite (s.regAt Reg.CTX_IMAGE_STAGE c + p.destOffset) (clean p.payload)
    match w.1 with
    | .ok => w.2.sendPkt none { s.ctlPkt .completion 0 p.src with tag := p.tag, gen := p.gen, seq := p.seq, payload := leBytes 8 1 }
    | .poison => w.2.sendNeg p p.seq 0x14
    | .address => w.2.sendNeg p p.seq 0x12

end Sys2Proof.Machine
end

