-- ==== Sys2Proof/Machine/Ports.lean ====
section
/-! DEFINITION. Memory ports, the I3C target and the test port (R24 to R30, R45, R47, R49, R506). -/
namespace Sys2Proof.Machine
open Sys2Proof Sys2Proof.Bits

/-! ### Memory ports -/

/-- Whether two requests touch a common beat and one of them writes (R243). -/
def GmpReq.conflicts (a b : GmpReq) : Bool :=
  (a.op != .read || b.op != .read) && decide (a.addr < b.addr + 128 * b.beats ∧ b.addr < a.addr + 128 * a.beats)

/-- Whether a request is one that the block may present on a port (R24). -/
def GmpReq.legal (r : GmpReq) : Bool :=
  decide (r.tag < 1024 ∧ r.addr % 128 = 0 ∧ r.addr < 2 ^ 40 ∧ 1 ≤ r.beats ∧ r.beats ≤ 32 ∧
    r.addr % 4096 + 128 * r.beats ≤ 4096) &&
    (if r.op = .write then r.data.length == r.beats && r.data.all (fun b => b.data.length == 128) else r.data.isEmpty)

/-- What a request delivers when it ends without its missing responses: all-ones bytes marked poisoned for each beat of
a read that is missing, and a write that fails (R27, R252). -/
def GmpReq.poisoned (r : GmpReq) : GmpResult :=
  let beat (k : Nat) : List Byte × Bool := ((r.got.find? fun g => g.1 == k).map (·.2)).getD (ones 128, true)
  { tag := r.tag, op := r.op, addr := r.addr, beats := if r.op = .read then (List.range r.beats).map beat else [], ok := false }

/-- A port with its state and its last result replaced. -/
def PortState.ended (p : PortState) (r : GmpReq) (x : GmpResult) : PortState :=
  { p with outstanding := p.outstanding.filter (fun y => y.tag != r.tag), last := some x }

/-- Requests held for an earlier one to the same beat are presented once none conflicts (R243). -/
def PortState.unhold (p : PortState) : PortState :=
  p.held.foldl (fun p r =>
    let earlier := p.outstanding ++ p.held.takeWhile (fun y => y != r)
    if earlier.any r.conflicts then p
    else { p with held := dropFirst (· == r) p.held, outstanding := p.outstanding ++ [r] }) p

/-- An access to a disabled port: poisoned data, and GMP_DISABLED naming the local offset (R29). -/
def State.disabledAccess (s : State) (k : Nat) (r : GmpReq) : State :=
  (s.onPort k fun p => { p with last := some r.poisoned }).raise .gmpDisabled (.port k) 0xFF (s.localOf k r.addr)

/-- A port becomes disabled: what is outstanding or held completes at once, and the tags are retired (R28). -/
def State.disablePort (s : State) (k : Nat) : State :=
  let p := s.port k
  if p.disabled then s
  else
    let off (p : PortState) : PortState :=
      { p with disabled := true, outstanding := [], held := [],
               retired := p.outstanding.foldl (fun l r => setIns r.tag l) p.retired,
               last := ((p.outstanding.getLast?).map GmpReq.poisoned).orElse fun _ => p.last }
    p.held.foldl (fun s r => s.disabledAccess k r) (s.onPort k off)

/-- GMP_REQUEST_ISSUE: a request is presented, and transfers when the controller is ready; a request that waits for the
controller transfers (R24, R243). Kickstand takes no new request (R459). -/
def State.gmpIssue (s : State) (k : Nat) (r : GmpReq) (ready : Bool) : State :=
  let p := s.port k
  let same (y : GmpReq) : Bool := y.tag == r.tag
  if !s.powered || decide (s.build.ports ≤ k) || !r.legal then s
  else if p.disabled then s.disabledAccess k r
  else if p.retired.contains r.tag || p.held.any same then s
  else if p.outstanding.any same then
    s.onPort k fun p => { p with outstanding := updFirst (fun y => same y && ready) (fun y => { y with accepted := true }) p.outstanding }
  else if (p.outstanding ++ p.held).any r.conflicts then s.onPort k fun p => { p with held := p.held ++ [{ r with accepted := false }] }
  else s.onPort k fun p => { p with outstanding := p.outstanding ++ [{ r with accepted := ready }] }

/-- GMP_WRITE_DATA_BEAT: the next write beat transfers, in request order (R24). -/
def State.gmpDataBeat (s : State) (k : Nat) : State :=
  let due (r : GmpReq) : Bool := r.accepted && decide (r.sent < r.data.length)
  s.onPort k fun p => { p with outstanding := updFirst due (fun r => { r with sent := r.sent + 1 }) p.outstanding }

/-- The bytes of a beat that a write changes, from memory and the byte enables. -/
def GmpBeat.mergeOnto (b : GmpBeat) (old : List Byte) : List Byte :=
  (List.range 128).map fun i => if b.strb.testBit i then (b.data[i]?).getD 0 else (old[i]?).getD 0

/-- A write performed by the controller: each beat by its enables, with its poison (R24). -/
def State.gmpPerform (s : State) (k : Nat) (r : GmpReq) : State :=
  (List.range r.beats).foldl (fun s i =>
    let off := s.localOf k (r.addr + 128 * i)
    match r.op with
    | .read => s
    | .writeZeros => { s with mem := storeBytes s.mem off (zeros 128), memPoison := setDel (off / 128) s.memPoison }
    | .write =>
      match r.data[i]? with
      | none => s
      | some b =>
        let old := (List.range 128).map fun j => memByte s.mem (off + j)
        let whole := b.strb % 2 ^ 128 == 2 ^ 128 - 1
        { s with mem := storeBytes s.mem off (b.mergeOnto old),
                 memPoison := if b.poison then setIns (off / 128) s.memPoison
                   else if whole then setDel (off / 128) s.memPoison else s.memPoison }) s

/-- A failed write: the bytes it named are left open (R252). -/
def State.gmpFailed (s : State) (k : Nat) (r : GmpReq) : State :=
  (List.range r.beats).foldl (fun s i =>
    let f := s.drawBytes 128
    { f.2 with mem := storeBytes f.2.mem (s.localOf k (r.addr + 128 * i)) f.1 }) s

/-- A request ends, and held ones may follow (R243). -/
def State.gmpEnd (s : State) (k : Nat) (r : GmpReq) (x : GmpResult) : State :=
  s.onPort k fun p => (p.ended r x).unhold

/-- One status of a response counted, and the fault of the first ADDRESS of a request raised (R30). -/
def State.gmpStatus (s : State) (k : Nat) (r : GmpReq) (beat status : Nat) : State :=
  if status = 0 then s
  else if status = 2 then
    let s1 := s.bumpAt Reg.GMP_ADDR_ERR k
    if r.addrErr then s1 else s1.raise .gmpAddress (.port k) 0xFF (s.localOf k (r.addr + 128 * beat))
  else s.bumpAt Reg.GMP_POISON_RSP k

/-- GMP_RESPONSE_BEAT: a read beat delivered, or a write's one response (R24, R25, R28, R30). -/
def State.gmpResponse (s : State) (k tag beat status : Nat) (data : List Byte) : State :=
  let p := s.port k
  if s.blk = .off ∨ s.blk = .reset ∨ !s.rst.mclk.testBit k then s
  else if p.disabled || p.retired.contains tag then s.bumpAt Reg.GMP_LATE_BEATS k
  else
    match p.outstanding.find? (fun r => r.tag == tag && r.accepted) with
    | none => s
    | some r =>
      if r.op = .read then
        if r.beats ≤ beat || r.got.any (fun g => g.1 == beat) then s
        else
          let s1 := s.gmpStatus k r beat status
          let g := (beat, if status = 2 then ones 128 else fit 128 data, status != 0)
          let r1 := { r with got := r.got ++ [g], addrErr := r.addrErr || status == 2 }
          if r1.got.length < r.beats then
            s1.onPort k fun p => { p with outstanding := updFirst (fun y => y.tag == tag) (fun _ => r1) p.outstanding }
          else s1.gmpEnd k r1 { r1.poisoned with ok := r1.got.all fun g => !g.2.2 }
      else if r.sent < r.data.length then s
      else
        let s1 := s.gmpStatus k r 0 status
        if status = 0 then (s1.gmpPerform k r).gmpEnd k r { r.poisoned with ok := true }
        else (s1.gmpFailed k r).gmpEnd k r r.poisoned

/-- GMP_STALL_TIMEOUT: the request completes poisoned, GMP_STALL is raised and the tag retired; the port is disabled at
the limit (R27, R28). -/
def State.gmpStall (s : State) (k tag : Nat) : State :=
  match (s.port k).outstanding.find? (fun r => r.tag == tag) with
  | none => s
  | some r =>
    let s1 := if r.op = .read then s else s.gmpFailed k r
    let s2 := s1.onPort k fun p => { (p.ended r r.poisoned).unhold with retired := setIns tag p.retired, stalled := p.stalled + 1 }
    let s3 := (s2.bumpBy (unitKey Reg.GMP_RETIRED k) 16 1).raise .gmpStall (.port k) 0xFF tag
    if s3.reg Reg.GMP_RETIRE_LIMIT ≤ (s3.port k).stalled then (s3.disablePort k).raise .gmpDisabled (.port k) 0xFF 0 else s3

/-- 0 written to a port's bit of `GMP_PORT_ENABLE` (R506). -/
def State.portOff (s : State) (k : Nat) : State :=
  if s.build.ports ≤ k then s
  else (s.setReg Reg.GMP_PORT_ENABLE (clearBit (s.reg Reg.GMP_PORT_ENABLE) k)).disablePort k

/-- 1 written to a port's bit of `GMP_PORT_ENABLE`: a disabled port is reset, unless its clock is missing (R506, R51). -/
def State.portOn (s : State) (k : Nat) : State :=
  if s.build.ports ≤ k then s
  else
    let s1 := s.setReg Reg.GMP_PORT_ENABLE (setBit (s.reg Reg.GMP_PORT_ENABLE) k)
    if (s.port k).disabled && s.rst.mclk.testBit k then s1.onPort k fun p => { PortState.idle with last := p.last } else s1

/-! ### The I3C target -/

/-- The bus address of the target: the dynamic address, or the strap (R45). -/
def State.i3cAddr (s : State) : Nat := s.i3c.dyn.getD s.rst.saddr

/-- Whether the I3C target answers bus traffic (R22, R45). -/
def State.i3cListens (s : State) : Bool := s.build.i3c && !s.i3c.hdr && s.blk != .off && s.blk != .reset

/-- A dynamic address taken by SETDASA, which names the static address, or by ENTDAA (R496). -/
def State.i3cAssign (s : State) (byStatic : Bool) (static addr : Nat) : State :=
  if s.i3cListens && (!byStatic || static == s.rst.saddr) && (byStatic || s.i3c.dyn.isNone) then
    s.onI3c fun x => { x with dyn := some (addr % 128) }
  else s

/-- The bus enters or leaves an HDR mode (R45). -/
def State.i3cHdr (s : State) (inHdr : Bool) : State :=
  if s.build.i3c && s.blk != .off && s.blk != .reset then s.onI3c fun x => { x with hdr := inHdr } else s

/-- SCL above 6.25 MHz: the transfer is not answered, and counted (R45). -/
def State.i3cFast (s : State) : State := if s.i3cListens then s.onI3c fun x => { x with fast := x.fast + 1 } else s

/-! ### The test port -/

/-- The IDCODE of the build (R47). -/
def Build.idcode (b : Build) : Nat := 2 * 2 ^ 28 + 0xE505 * 2 ^ 12 + b.mfrId % 2 ^ 12

/-- The TAP after TRST_N (R49): nothing is held, and IDCODE is selected (PRESUMED, IEEE 1149.1). -/
def TapState.reset : TapState := { sel := .idcode, out := 0, instruments := [] }

/-- Instruments 0 and 1 stand for identification and clock monitor: always open (R47). -/
def State.instrumentOpen (s : State) (n : Nat) : Bool := decide (n < 2) || (s.build.fullScope && s.flag Reg.SEC_1687_UNLOCK)

/-- A scan through the selected register: what leaves is the register's value, then what enters (R47). -/
def State.scan (s : State) (width value : Nat) : State :=
  match s.tap.sel with
  | .bypass => s.onTap fun t => { t with out := (2 * value) % 2 ^ width }
  | .idcode => s.onTap fun t => { t with out := (s.build.idcode + 2 ^ 32 * value) % 2 ^ width }
  | .instrument n =>
    if s.instrumentOpen n then
      let f := s.drawNat
      f.2.onTap fun t => { t with out := f.1 % 2 ^ width, instruments := Table.put t.instruments 0 n (value % 2 ^ width) }
    else s.onTap fun t => { t with out := 0 }

/-- TAP_SCAN: an instruction loaded, or a scan through what it selected (R47). Without power nothing shifts. -/
def State.tapScan (s : State) (x : TapScan) : State :=
  if s.blk = .off then s
  else match x with
    | .select sel => s.onTap fun t => { t with sel := sel }
    | .shift width value => s.scan width value

end Sys2Proof.Machine
end

