-- ==== Sys2Proof/Machine/Reset.lean ====
section
/-! DEFINITION. Resets, clocks and kickstand mode: how the block enters and leaves Reset (R49 to R53, R449), and how it
enters Kickstand (R459 to R463). -/
namespace Sys2Proof.Machine
open Sys2Proof Sys2Proof.Bits

/-! ### Entering Reset -/

/-- The reset and clock logic in Reset: nothing is detected, and the levels of the inputs and the strap remain. -/
def ResetState.held (r : ResetState) : ResetState :=
  { r with stage := .held, rung4 := false, cclk := false, fclk := false, hclk := false, lclk := 0, mclk := 0 }

/-- The state that a reset input leaves: everything as it is after reset but what survives every reset, which is the
build, the attached memory, revoked keys, the input levels, and the commands that wait. -/
def State.wiped (s : State) : State :=
  { State.cleared s.build with
    blk := .reset, rst := s.rst.held, tclk := s.tclk, free := s.free, revoked := s.revoked, mem := s.mem,
    memPoison := s.memPoison, memAnswers := s.memAnswers, links := [],
    pmi := { req := none, waiting := [], pgood := s.pmi.pgood, alert := s.pmi.alert, alertActive := false },
    pending := s.pending }

/-- What BLK_RST_N resets: everything but the Grave latch, the sticky record, the event sequence number and the request
of a power cycle (R49, R437). -/
def State.blkWiped (s : State) : State :=
  s.wiped.onFlt fun f =>
    { f with grave := s.flt.grave, stickyFirst := s.flt.stickyFirst, stickyGrave := s.flt.stickyGrave, seq := s.flt.seq,
             pcycReq := s.flt.pcycReq }

/-- POR_N low: everything is reset (R49). -/
def State.porReset (s : State) : State := s.wiped.onRst fun r => { r with porLow := true }

/-- BLK_RST_N low (R49). -/
def State.blkReset (s : State) : State := s.blkWiped.onRst fun r => { r with blkLow := true }

/-- The end of a reset input's low level: the stretcher starts once both are high; POR_N samples the strap (R49, R50). -/
def State.releaseReset (s : State) (i : ResetInput) : State :=
  if s.blk ≠ .reset then s
  else
    let s1 := match i with
      | .por => if s.rst.porLow then s.onRst fun r => { r with porLow := false, saddr := r.saddrPins } else s
      | .blk => s.onRst fun r => { r with blkLow := false }
    if s1.rst.stage = .held ∧ !s1.rst.porLow ∧ !s1.rst.blkLow then s1.onRst fun r => { r with stage := .stretching } else s1

/-- The end of the stretcher (R50). -/
def State.stretcherEnd (s : State) : State :=
  if s.blk = .reset ∧ s.rst.stage = .stretching then s.onRst fun r => { r with stage := .detecting } else s

/-! ### Kickstand -/

/-- The link that kickstand mode keeps: `FLT_KICK_LINK`, unless FCLK is missing (R461, R51). -/
def State.keptLink (s : State) : Option Nat :=
  if s.rst.fclk then some (s.reg Reg.FLT_KICK_LINK % s.build.links) else none

/-- A link set to train as a single lane (R98). -/
def State.trainSingle (s : State) (n : Nat) : State :=
  let s1 := if (s.link n).active && !(s.link n).single then s.goDown n .command else s
  s1.onLink n fun l =>
    if l.active then { l with offerSingle := true }
    else { l with offerSingle := true, heldDown := false, attempts := 0, trainDue := true, stage := .idle }

/-- Every link but the kept one flushes and goes down (R459). -/
def State.keepLink (s : State) (kept : Option Nat) : State :=
  (List.range s.build.links).foldl (fun s n => if kept = some n then s.trainSingle n else s.disableLink n) s

/-- Every engine stopped and every context Closed: work, semaphores and counters are lost (R459). -/
def State.stopAll (s : State) : State :=
  let z := State.cleared s.build
  let mgmt (w : Waiting) : Bool := w.pkt.job == 0
  let s1 := { s with cores := [], ctxs := [], sems := [], counters := [], rmt := { z.rmt with nextDesc := s.rmt.nextDesc },
                     far := z.far, xlt := z.xlt, disp := { z.disp with nextTask := s.disp.nextTask } }
  let s2 := (s1.onPkt fun p => { p with wait := p.wait.filter mgmt, drainHeld := p.drainHeld.filter mgmt, lost := [],
                                        refs := [], bound := [], binding := [], loading := false, drain := none }).onHcp fun h =>
    { h with fq := { h.fq with waiting := h.fq.waiting.filter fun r => r.1.isNone }, invs := [], tails := [] }
  let s3 := s2.onFlt fun f => { f with ctxResets := [], unitResets := [], probation := none, progress := [], unsynced := [] }
  let s4 := s3.onPwr fun p => { p with wakes := [], waking := [], ramping := [], ramps := [] }
  (List.range 64).foldl (fun s c => ((s.setRegAt Reg.CTX_STATE c 0).setRegAt Reg.CTX_ROUTE_STATE c 0).setRegAt Reg.BAR_STATE c 0) s4

/-- Kickstand entered; its cause is not given a code (R459). -/
def State.enterKickstand (s : State) : State :=
  if s.blk = .kickstand ∨ s.blk = .off then s
  else
    let kept := s.keptLink
    let f := (s.keepLink kept).stopAll.drawNat
    ({ f.2 with blk := .kickstand }.onFlt fun x => { x with kept := kept }).raise .kickstandEntered .none 0xFF f.1

/-- The kept link is Held Down: the next one is tried (R461). -/
def State.nextKept (s : State) : State :=
  match s.flt.kept with
  | some n =>
    if s.blk = .kickstand ∧ (s.link n).heldDown then
      let m := (n + 1) % s.build.links
      (s.onFlt fun f => { f with kept := some m }).trainSingle m
    else s
  | none => s

/-! ### Clocks -/

/-- A clock noted as detected, or as absent. -/
def ResetState.setClock (r : ResetState) (c : ClockId) (on : Bool) : ResetState :=
  let put (m n : Nat) : Nat := if on then Bits.setBit m n else clearBit m n
  match c with
  | .cclk => { r with cclk := on } | .fclk => { r with fclk := on } | .hclk => { r with hclk := on }
  | .lclk n => { r with lclk := put r.lclk n } | .mclk n => { r with mclk := put r.mclk n } | .tclk => r

/-- Whether the build has a clock. -/
def State.hasClock (s : State) : ClockId → Bool
  | .lclk n => decide (n < s.build.links)
  | .mclk n => decide (n < s.build.ports)
  | _ => true

/-- A bit of the clock-fault entries set or cleared (R53, R506). -/
def State.clockFault (s : State) (c : ClockId) (on : Bool) : State :=
  let put (key n : Nat) : State := s.setReg key (if on then Bits.setBit (s.reg key) n else clearBit (s.reg key) n)
  match c with
  | .cclk => put Reg.CLK_FAULT_BLOCK 0 | .fclk => put Reg.CLK_FAULT_BLOCK 1 | .hclk => put Reg.CLK_FAULT_BLOCK 2
  | .tclk => put Reg.CLK_FAULT_BLOCK 3 | .lclk n => put Reg.CLK_FAULT_LINKS n | .mclk n => put Reg.CLK_FAULT_PORTS n

/-- HCP held in reset: its registers return to their defaults; records that wait are kept (R51, R53). -/
def HcpState.held (h : HcpState) : HcpState :=
  let back (k : HcpKind) : List (Option Nat × List Byte) := (h.queue.filter fun w => w.kind == k).map fun w => (none, w.data)
  { h with vectors := [], queue := [], stallSeen := false, rerr := false, invStart := 0, invPagesM1 := 0,
           fq := { HostRing.reset with waiting := back .faultRecord ++ h.fq.waiting },
           iq := { HostRing.reset with waiting := back .invRecord ++ h.iq.waiting } }

/-- The cadence counter is not valid; a counter that was raises CADENCE_LOST (R405, R53). -/
def State.cadenceLost (s : State) (theta : Nat) : State :=
  let s1 := s.onCad fun x => { x with valid := false, good := 0, outHigh := 0 }
  if s.cad.valid then s1.raise .cadenceLost .none 0xFF theta else s1

/-- What the block does about a clock that is absent or out of range (R51, R53). -/
def State.loseClock (s : State) (c : ClockId) : State :=
  match c with
  | .cclk | .fclk =>
    ((s.onRst fun r => r.setClock c false).enterKickstand).onFlt fun f => { f with kickClock := f.kickClock || s.blk != .kickstand }
  | .lclk n => s.holdForClock n
  | .mclk n => (s.onRst fun r => r.setClock c false).disablePort n
  | .hclk => (s.onRst fun r => r.setClock c false).onHcp HcpState.held
  | .tclk => s.cadenceLost 0

/-- Whether a clock's count in a window of 1,024 TCLK cycles lies in its range of R52; TCLK is counted in PCLK (R53). -/
def clockInRange (c : ClockId) (count : Nat) : Bool :=
  let khz := count * 156250
  match c with
  | .cclk => decide (750000 * 1024 ≤ khz ∧ khz ≤ 1650000 * 1024)
  | .fclk => decide (1980000 * 1024 ≤ khz ∧ khz ≤ 2020000 * 1024)
  | .lclk _ => decide (1748250 * 1024 ≤ khz ∧ khz ≤ 1751750 * 1024)
  | .mclk _ => decide (800000 * 1024 ≤ khz ∧ khz ≤ 2000000 * 1024)
  | .hclk => decide (100000 * 1024 ≤ khz ∧ khz ≤ 1200000 * 1024)
  | .tclk => decide (98 * 65536 ≤ count * 10000 ∧ count * 10000 ≤ 102 * 65536)

/-- CLOCK_MONITOR_WINDOW: the end of a window of the clock monitor for one clock (R53). -/
def State.clockWindow (s : State) (c : ClockId) (count : Nat) : State :=
  if s.blk = .off ∨ s.blk = .reset ∨ !s.hasClock c then s
  else if clockInRange c count then (s.clockFault c false).onRst fun r => r.setClock c true
  else ((s.clockFault c true).raise .clkRange (.clock c) 0xFF count).loseClock c

/-! ### Leaving Reset -/

/-- A link starts to train on entry to Configure, unless its clock is missing (R85, R51). -/
def State.startLinks (s : State) : State :=
  { s with links := (List.range s.build.links).map fun n => (n, { LinkState.reset with trainDue := true }) }

/-- Units whose clocks are missing as the block leaves Reset (R51). -/
def State.missingClocks (s : State) : State :=
  let l := (List.range s.build.links).filter fun n => !s.rst.lclk.testBit n
  let m := (List.range s.build.ports).filter fun n => !s.rst.mclk.testBit n
  let s1 := l.foldl (fun s n => s.clockFault (.lclk n) true) s
  let s2 := m.foldl (fun s n => (s.clockFault (.mclk n) true).disablePort n) s1
  if s.rst.hclk then s2 else s2.clockFault .hclk true

/-- The first event after a block reset: RESET_BLOCK, with the source of the sticky record (R449). -/
def State.firstEvent (s : State) : State :=
  if s.rst.rung4 then
    (s.onRst fun r => { r with rung4 := false }).raise .resetBlock .none 0xFF ((s.flt.stickyFirst.map (·.code)).getD 0)
  else s

/-- Configure, or Kickstand where the Grave latch is set; there PCYC_REQ_N is driven for a request that stands (R50,
R437, R450). -/
def State.leaveReset (s : State) : State :=
  let s1 := ({ s with blk := .configure }.onRst fun r => { r with stage := .none }).startLinks.missingClocks.firstEvent
  if s1.flt.grave then
    s1.enterKickstand.onFlt fun f => { f with pcycLow := f.pcycLow || (f.pcycReq && s1.flag Reg.FLT_PCYC_AUTO) }
  else s1

/-- CLOCK_DETECTED: a clock is detected; a link or HCP whose clock comes late starts then (R50, R51). -/
def State.clockSeen (s : State) (c : ClockId) : State :=
  if s.blk = .off ∨ !s.hasClock c ∨ (s.blk = .reset ∧ s.rst.stage ≠ .detecting) then s
  else if s.blk = .reset then s.onRst fun r => r.setClock c true
  else (s.clockFault c false).onRst fun r => r.setClock c true

/-- TABLE_CLEAR_COMPLETE: the tables of the detected domains are clear, and the block leaves Reset (R50, R51). -/
def State.tablesClear (s : State) : State :=
  if s.blk = .reset ∧ s.rst.stage = .detecting ∧ s.rst.cclk ∧ s.rst.fclk then s.leaveReset else s

/-- CLK_ABSENT_TIMEOUT: CCLK or FCLK is still undetected, and the block enters Kickstand (R51). -/
def State.clocksAbsent (s : State) : State :=
  if s.blk ≠ .reset ∨ s.rst.stage ≠ .detecting ∨ (s.rst.cclk && s.rst.fclk) then s
  else
    let gone := (if s.rst.cclk then [] else [ClockId.cclk]) ++ (if s.rst.fclk then [] else [ClockId.fclk])
    let s1 := ({ s with blk := .configure }.onRst fun r => { r with stage := .none }).startLinks.missingClocks.firstEvent
    let s2 := gone.foldl (fun s c => (s.clockFault c true).raise .clkAbsent (.clock c) 0xFF 0) s1
    s2.enterKickstand.onFlt fun f =>
      { f with kickClock := true, pcycLow := f.pcycLow || (f.pcycReq && s2.flag Reg.FLT_PCYC_AUTO) }

/-- POWER_REMOVED: nothing is powered until POR_N acts (R450, R499). -/
def State.powerOff (s : State) : State := { s.wiped with blk := .off, rst := { s.rst.held with stage := .none } }

/-! ### Block reset -/

/-- A block reset: as BLK_RST_N, with the input high, so that the stretcher starts at once (R449). -/
def State.blockReset (s : State) : State :=
  s.blkWiped.onRst fun r => { r with rung4 := true, stage := if r.porLow || r.blkLow then .held else .stretching }

end Sys2Proof.Machine
end

