-- ==== Sys2Proof/Machine/Recovery.lean ====
section
/-! DEFINITION. Fault handling and recovery: actions, hang detection, the ladder's resets, samples, probation, epochs and
the power cycle (R431 to R463). -/
namespace Sys2Proof.Machine
open Sys2Proof Sys2Proof.Bits

/-! ### Units and the work they hold -/

/-- The number of a rung (R443); Kickstand is none. -/
def Rung.number : Rung → Nat
  | .context => 1 | .engine => 2 | .partition => 3 | .block => 4 | .kickstand => 0 | .pcyc => 5

/-- The partition that holds a unit (R436). -/
def State.partOfUnit (s : State) : UnitName → Option Nat
  | .core n | .engine n _ => some (s.partOfCore n)
  | .link n => some (s.partOfLink n)
  | .port n => some (partOfPort n)
  | .partition p | .reduction p => some p
  | _ => none

/-- The contexts whose collectives run on a partition's reduction unit. -/
def State.ctxsOnReduction (s : State) (p : Nat) : List Nat :=
  (List.range 64).filter fun c => (s.ctx c).colls.any fun k => s.collPart k == p

/-- The context whose task or service a core runs. -/
def State.ctxOnCore (s : State) (n : Nat) : List Nat :=
  (List.range 64).filter fun c => (s.core n).run.any (fun r => r.ctx == c) || (s.ctx c).services.any fun v => v.core == n

/-- The contexts that have work on a unit (R447, R448). -/
def State.ctxsOn (s : State) : UnitName → List Nat
  | .engine n e => if s.engineHolds n e then s.ctxOnCore n else []
  | .reduction p => s.ctxsOnReduction p
  | .partition p =>
    (List.range 64).filter fun c => (s.coresOfPart p).any (fun n => (s.ctxOnCore n).contains c) ||
      (s.ctxsOnReduction p).contains c ||
      s.rmt.txns.any fun t => t.ctx == c && decide (t.tag / 8192 = p) && !t.quarantined
  | .context c => [c]
  | _ => []

/-- Every engine of the build, and every reduction unit. -/
def State.allEngines (s : State) : List UnitName :=
  (List.range s.build.cores).flatMap (fun n =>
    [UnitName.engine n .matrix, .engine n .vector, .engine n .control, .engine n .dma]) ++
    (List.range 8).map UnitName.reduction

/-- Whether a unit holds work (R439, R440). -/
def State.unitHolds (s : State) : UnitName → Bool
  | .engine n e => s.engineHolds n e
  | .reduction p => !(s.ctxsOnReduction p).isEmpty
  | .context c => !(s.ctx c).tasks.isEmpty || !(s.ctx c).colls.isEmpty ||
      (s.ctx c).slots.any fun a => a.phase == .queued || a.phase == .running
  | _ => false

/-- The key of a unit in the progress table. -/
def UnitName.progressKey : UnitName → Nat
  | .engine n e => engineKey n e
  | .reduction p => reductionKey p
  | .context c => contextKey c
  | _ => 0

/-- The model time, in TCLK cycles, of a unit's last progress. -/
def State.lastProgress (s : State) (u : UnitName) : Nat := Table.get s.flt.progress 0 u.progressKey - 1

/-- Nanoseconds between two model times. -/
def State.nsSince (s : State) (t : Nat) : Nat := (s.tclk - t) * 32 / 5

/-! ### Context reset (rung 1) -/

/-- A parked request of a context that enters reset, answered CTX_RESET (R445, R158). -/
def State.resetParked (s : State) (x : Parked) : State :=
  let s1 := (s.unpark x).sendNeg x.pkt x.seq 0x15
  if x.pkt.op.changes then s1.dropCache x.pkt x.seq else s1

/-- A tracker entry ends without a further packet, and is quarantined (R168, R445). -/
def Txn.abandon (t : Txn) : Txn :=
  { t with seqs := t.seqs.map (fun e => (e.1, if e.2.phase.isOver then e.2 else { e.2 with phase := .failed 0x15, outstanding := 0 })),
           complete := true, tainted := true, quarantined := true }

/-- The tracker entries that a test selects are abandoned, and so are the plans that belong to them. -/
def State.abandonTxns (s : State) (p : Txn → Bool) (q : TxnPlan → Bool) : State :=
  s.onRmt fun r => { r with txns := r.txns.map (fun t => if p t && !t.quarantined then t.abandon else t),
                            plans := r.plans.filter fun x => !q x }

/-- A core's engines drop their work: what waits is discarded, and what is in progress ends without effect (R445). -/
def CoreState.dropWork (x : CoreState) : CoreState :=
  { x with mq := [], vq := [], dq := [], mm := x.mm.map (fun r => { r with emit := false, doneSem := none }),
           vp := x.vp.map (fun _ => { red := none, summary := none, bank := none, doneSem := none }),
           copies := x.copies.map (fun _ => { doneSem := none, counter := none, error := none }), stall := .none }

/-- The cores that run a task of a context. -/
def State.coresRunning (s : State) (c : Nat) : List Nat :=
  (List.range s.build.cores).filter fun n => (s.core n).run.any fun r => r.ctx == c

/-- The start of a context reset (R445): aborts, the next generation, requests answered, faults withdrawn, and the engines'
work dropped. A reset of a context that is Resetting is merged; a Closed one has nothing to reset. -/
def State.startCtxReset (s : State) (c cause core : Nat) : State :=
  if s.regAt Reg.CTX_STATE c = 0 ∨ s.regAt Reg.CTX_STATE c = 3 then s
  else
    let s1 := (((s.collReset c).attReset c).setRegAt Reg.CTX_STATE c 3).setRegAt Reg.RST_CTX_CAUSE c cause
    let s2 := (s1.nextGeneration c).abandonTxns (fun t => t.ctx == c && t.owner != .imagePush)
      (fun p => p.ctx == c && p.owner != .imagePush)
    let s3 := ((s2.rmt.parked.filter fun x => x.ctx == c).foldl State.resetParked s2).withdrawFaults c
    let s4 := (s3.coresRunning c).foldl (fun s n => (s.taskError n 0x65).onCore n CoreState.dropWork) s3
    let s5 := (s4.onFar fun f => { f with reqs := f.reqs.filter fun r => r.ctx != c }).onCtx c fun x =>
      { x with arrived := none, arrivals := [], sentUp := false }
    (s5.setRegAt Reg.BAR_STATE c 0).onFlt fun f => { f with ctxResets := f.ctxResets ++ [{ ctx := c, cause := cause, core := core }] }

/-- The end of a submission of a context that was reset (R289, R445). -/
def State.resetEnd (s : State) (c : Nat) (u : Submission) : SubEnd :=
  match (s.ctx c).tasks.find? (fun t => t.running && t.sub == u.index) with
  | some t => { outcome := 3, reason := 0, code := 0x65, index := t.index, taskId := t.taskId, core := lowestCore t.cores,
                pc := (s.core (lowestCore t.cores)).pc }
  | none => { outcome := 3, reason := 0, code := 0, index := 0, taskId := 0, core := 0xFF, pc := 0 }

/-- A core left by a reset: nothing runs on it, and its check-value units are reset (R387, R445). -/
def State.clearCore (s : State) (n : Nat) : State :=
  (s.onCore n fun x =>
    { x with mm := none, vp := none, copies := [], cvs := List.replicate 8 .reset, halt := .running, step := false,
             pass := false }).freeCore n

/-- Every submission already read ends with a CONTEXT_RESET record, and no task is left (R445). -/
def State.endSubs (s : State) (c : Nat) : State :=
  let mark (u : Submission) : Submission := if u.done then u else { u with fail := some (s.resetEnd c u) }
  (s.onCtx c fun x => { x with subs := x.subs.map mark, tasks := [] }).onRmt fun r =>
    { r with descs := r.descs.filter fun d => d.ctx != c }

/-- A rung completed on a unit (R444). -/
def State.rungDone (s : State) (u : UnitName) (r : Rung) : State :=
  s.onFlt fun f => { f with rungs := f.rungs.filter (fun x => x.unit != u) ++ [{ unit := u, rung := r, time := s.tclk }] }

/-- CONTEXT_RESET_COMPLETE: the state that the context owns is cleared, its records are written, and it is Halted (R445,
R455). -/
def State.ctxResetComplete (s : State) (c : Nat) : State :=
  match s.flt.ctxResets.find? (fun x => x.ctx == c) with
  | none => s
  | some x =>
    let owned := bitsOf 64 (s.ownedCores c)
    let spad := s.spadRange c
    let s1 := ((s.coresRunning c).foldl State.clearCore (s.endSubs c)).dropFarOf c (s.jobOf c)
    let s2 := owned.foldl (fun s n => s.spadUnwrite n (65536 * spad.1) (65536 * (spad.2 - spad.1))) s1
    let s3 := ((s2.zeroWindows c).onCtx c fun y => { y with trigs := [] }).onFlt fun f =>
      { f with ctxResets := f.ctxResets.filter fun y => y.ctx != c }
    let s4 := ((s3.setRegAt Reg.CTX_STATE c 2).releaseOld c).writeRecords c
    let s5 := (((s4.bumpAt Reg.RST_CTX_COUNT c).rungDone (.context c) .context).raiseCtx .resetContext c x.cause).assertVector
      (s4.regAt Reg.CTX_VECTOR c)
    if x.cause = 7 then s5.raiseCtx .suspectGuilty c x.core else s5

/-! ### Scratchpad samples -/

/-- The words and lines that a core's faults have named since its last sample, the most recent first (R451). -/
def State.namedLines (s : State) (n : Nat) : List Nat :=
  (((s.flt.named.filter fun e => e.1 == n).map (·.2)).eraseDups).take 8

/-- A scratchpad byte as the banks hold it. -/
def State.rawSpad (s : State) (n a : Nat) : Byte := Table.get s.spad 0xFF (n * 2 ^ 21 + a)

/-- The bits of the first 64 lines of a core that a set of lines holds. -/
def lineBits (n : Nat) (set : List Nat) : Nat := maskOf ((List.range 64).filter fun l => set.contains (n * 2 ^ 15 + l))

/-- The sample of a core before a reset of a rung (R451): 5,120 bytes. -/
def State.coreSample (s : State) (n rung engine seq : Nat) : List Byte :=
  let named := s.namedLines n
  let word (a : Nat) : Nat :=
    let l := n * 2 ^ 15 + a / 64
    a + 2 ^ 30 * ofBool (s.spadPoison.contains l) + 2 ^ 31 * ofBool (s.spadWritten.contains l)
  let bytes (a len : Nat) : List Byte := (List.range len).map fun i => s.rawSpad n (a + i)
  leBytes 8 s.stamp ++ leBytes 1 n ++ leBytes 1 rung ++ leBytes 1 engine ++ leBytes 1 named.length ++ leBytes 4 seq ++
    leBytes 8 (lineBits n s.spadWritten) ++ leBytes 8 (lineBits n s.spadPoison) ++
    fit 32 (named.flatMap fun a => leBytes 4 (word a)) ++ bytes 0 4096 ++ fit 512 (named.flatMap fun a => bytes a 64) ++ zeros 448

/-- The sample of a reduction unit: the contents of its store have no layout in the spec and are left free (R451). -/
def State.reductionSample (s : State) (p rung seq : Nat) : List Byte × State :=
  let f := s.drawBytes (16 + 4096)
  (leBytes 8 s.stamp ++ leBytes 1 (0x80 + p) ++ leBytes 1 rung ++ [4, 0] ++ leBytes 4 seq ++ f.1.take 16 ++ zeros 32 ++
    f.1.drop 16 ++ zeros 960, f.2)

/-- The core sampled no longer has named lines. -/
def State.clearNamed (s : State) (n : Nat) : State := s.onFlt fun f => { f with named := f.named.filter fun e => e.1 != n }

/-- A sample not written: SAMPLE_LOST (R452). -/
def State.sampleLost (s : State) (who : Nat) : State :=
  s.raise .sampleLost (if who < 0x80 then .core who else .partition (who - 0x80)) 0xFF 0

/-- A sample written to the next slot of the debug region, or lost (R452). -/
def State.writeSample (s : State) (x : Nat × List Byte) : State :=
  let slots := s.reg Reg.DBG_SLOTS
  let off := s.reg Reg.DBG_BASE + 5120 * (s.reg Reg.DBG_NEXT % slots)
  if slots = 0 ∨ (pieces off 5120).any (fun p => (s.port (s.portOf p.1)).disabled) then s.sampleLost x.1
  else
    let w := s.memWrite off (clean x.2)
    if w.1 = .ok then w.2.bump Reg.DBG_NEXT else w.2.sampleLost x.1

/-! ### Engine and partition resets (rungs 2 and 3) -/

/-- A core's epoch advanced: its far accesses and remote issues wait until it is resynchronised (R456, R457). -/
def State.advanceEpoch (s : State) (n : Nat) : State :=
  let old := s.regAt Reg.CORE_EPOCH n
  (s.setRegAt Reg.CORE_EPOCH n ((old + 1) % 256)).onFlt fun f => { f with unsynced := Table.put f.unsynced 256 n old }

/-- A core's far lines: those of contexts not being reset are written back, and all are invalidated (R447). -/
def State.loseFarLines (s : State) (n : Nat) : State :=
  let resetting (l : FarLine) : Bool := (s.ctxOfJob? l.name.job).any fun c => s.regAt Reg.CTX_STATE c == 3
  let kept := s.far.lines.filter fun l => l.core == n && !resetting l
  (kept.foldl State.evict s).onFar fun f => 
    { f with lines := f.lines.filter (fun l => l.core != n), fills := f.fills.filter fun x => x.core != n }

/-- One engine of a core cleared (R447). -/
def State.clearEngine (s : State) (n : Nat) : Engine → State
  | .matrix => s.onCore n fun x => { x with mq := [], mm := none, bank0 := .zero, bank1 := .zero, tiles := [] }
  | .vector => s.onCore n fun x => { x with vq := [], vp := none, masks := [] }
  | .control =>
    ((s.loseFarLines n).onCore n fun x =>
      { x with regs := [], windows := [], cvs := List.replicate 8 .reset, stall := .none }).advanceEpoch n
  | .dma =>
    ((s.onCore n fun x => { x with dq := [], copies := [] }).abandonTxns
      (fun t => t.owner != .imagePush && t.core == n && t.kind != .far)
      (fun p => p.owner != .imagePush && p.core == n && p.kind != .far)).onRmt fun r =>
      { r with descs := r.descs.filter fun d => d.core != n }
  | .reduction => s

/-- The reduction unit of a partition cleared: its collectives abort with cause RESET (R447). -/
def State.clearReduction (s : State) (p : Nat) : State :=
  let ks := (List.range 64).flatMap fun c => (s.ctx c).colls.filter fun k => s.collPart k == p
  (ks.foldl (fun s k => s.collAbort k 9 k.rank true) s).onDisp fun d => { d with early := d.early.filter fun e => e.1 != p }

/-- The contexts that ended a task on a unit from `HANG_WINDOW` before its last progress (R453). -/
def State.recentEnders (s : State) (u : UnitName) : List Nat :=
  let window := s.reg Reg.HANG_WINDOW * 5 / 32
  let on := s.unitCores u
  let last := match u with | .partition _ => s.tclk | _ => s.lastProgress u
  let red := match u with | .reduction _ => true | _ => false
  (s.flt.traces.filter fun t => on.contains t.core && (!red || t.kind == 2) && decide (last ≤ t.time + window)).map (·.ctx)

/-- The suspects of a reset, ascending (R453). -/
def State.suspectsOf (s : State) (u : UnitName) : List Nat :=
  let l := s.ctxsOn u ++ s.recentEnders u
  (List.range 64).filter l.contains

/-- Whether a reset of rung 2 or 3 in progress covers a unit (R438). -/
def State.unitCovered (s : State) (u : UnitName) : Bool :=
  s.flt.unitResets.any fun r => r.unit == u ||
    (match r.unit with | .partition p => (s.partOfUnit u) == some p | _ => false)

/-- A reset of rung 2 or 3 noted, with its suspects and samples; a partition reset replaces those it covers (R438). -/
def State.noteUnitReset (s : State) (r : UnitReset) : State :=
  s.onFlt fun f => { f with unitResets := (match r.unit with
    | .partition p => f.unitResets.filter fun x => s.partOfUnit x.unit != some p
    | _ => f.unitResets) ++ [r] }

/-- An engine reset, rung 2 (R447). -/
def State.engineReset (s : State) (u : UnitName) (seq : Nat) : State :=
  if s.unitCovered u then s
  else
    let ctxs := s.ctxsOn u
    let suspects := s.suspectsOf u
    match u with
    | .engine n e =>
      let sample := (n, s.coreSample n 2 e.code seq)
      let s1 := ctxs.foldl (fun s c => s.startCtxReset c 4 n) ((s.clearNamed n).noteUnitReset { unit := u, suspects := suspects, samples := [sample] })
      s1.clearEngine n e
    | .reduction p =>
      let r := s.reductionSample p 2 seq
      let s1 := ctxs.foldl (fun s c => s.startCtxReset c 4 0) (r.2.noteUnitReset { unit := u, suspects := suspects, samples := [(0x80 + p, r.1)] })
      s1.clearReduction p
    | _ => s

/-- A partition reset, rung 3 (R448). -/
def State.partitionReset (s : State) (p seq : Nat) : State :=
  let u : UnitName := .partition p
  if s.unitCovered u then s
  else
    let ctxs := s.ctxsOn u
    let cores := s.coresOfPart p
    let samples := cores.map fun n => (n, s.coreSample n 3 15 seq)
    let s1 := (cores.foldl State.clearNamed s).noteUnitReset { unit := u, suspects := s.suspectsOf u, samples := samples }
    let s2 := ctxs.foldl (fun s c => s.startCtxReset c 5 0) s1
    let clear (s : State) (n : Nat) : State :=
      (((s.clearEngine n .matrix).clearEngine n .vector).clearEngine n .control).clearEngine n .dma
    let s3 := (cores.foldl clear s2).clearReduction p
    let s4 := (s3.abandonTxns (fun t => decide (t.tag / 8192 = p)) (fun x => x.part == p && x.owner != .imagePush)).onFar fun f =>
      { f with wbs := f.wbs.map fun w => if cores.contains w.core && w.ended.isNone then { w with ended := some 0x15 } else w }
    s4.dropLeaves fun l => l.part == p

/-- A block reset, rung 4: every core is sampled, and the block goes to Reset (R449, R451). -/
def State.blockResetBy (s : State) (seq : Nat) : State :=
  let samples := (List.range s.build.cores).map fun n => (n, s.coreSample n 4 15 seq)
  (samples.foldl State.writeSample s).blockReset

/-! ### Probation -/

/-- The next turn of a probation; with no suspect left it ends (R454). -/
def State.nextTurn (s : State) (u : UnitName) : List Nat → State
  | [] => (s.unitCores u).foldl (fun s n => s.setRegAt Reg.CORE_PROBATION n 0) (s.onFlt fun f => { f with probation := none })
  | c :: rest => (s.setRegAt Reg.RST_SUSPECT c 2).onFlt fun f =>
      { f with probation := some { unit := u, waiting := rest, turn := some c, success := false, hung := false } }

/-- Probation after a reset of rung 2 or 3; a rung taken in probation starts none (R453). -/
def State.startProbation (s : State) (u : UnitName) (suspects : List Nat) : State :=
  if s.flt.probation.isSome || suspects.isEmpty then s
  else
    let s1 := suspects.foldl (fun s c => s.setRegAt Reg.RST_SUSPECT c 1) s
    ((s.unitCores u).foldl (fun s n => s.setRegAt Reg.CORE_PROBATION n 1) s1).nextTurn u suspects

/-- Whether a suspect has an admitted task that names the unit's cores. -/
def State.hasWorkOn (s : State) (c : Nat) (u : UnitName) : Bool :=
  (s.ctx c).tasks.any fun t => t.cores &&& maskOf (s.unitCores u) != 0

/-- PROBATION_TURN_END: the turn of a suspect ends with an outcome that the turn allows (R454, R455). -/
def State.turnEnd (s : State) (o : TurnEnd) : State :=
  match s.flt.probation with
  | none => s
  | some p =>
    match p.turn with
    | none => s
    | some c =>
      let go (code : Nat) : State := (s.setRegAt Reg.RST_SUSPECT c code).nextTurn p.unit p.waiting
      match o with
      | .cleared => if p.success then go 3 else s
      | .untested => if s.hasWorkOn c p.unit then s else go 4
      | .guilty => if p.hung then (go 5).startCtxReset c 7 (((s.unitCores p.unit).head?).getD 0) else s

/-! ### The ends of rungs 2 and 3 -/

/-- The mask of suspects, contexts 0 to 63 (R430). -/
def suspectMask (l : List Nat) : Nat := maskOf l

/-- A reset of rung 2 or 3 over: its samples are written, and probation starts (R447, R448, R453). -/
def State.unitOver (s : State) (r : UnitReset) (rung : Rung) : State :=
  let s1 := r.samples.foldl State.writeSample
    (s.onFlt fun f => { f with unitResets := f.unitResets.filter fun x => x.unit != r.unit })
  (s1.rungDone r.unit rung).startProbation r.unit r.suspects

/-- ENGINE_RESET_IDLE: the engine that was reset is idle (R447). -/
def State.engineIdle (s : State) (u : UnitName) : State :=
  match s.flt.unitResets.find? (fun r => r.unit == u) with
  | none => s
  | some r =>
    match u with
    | .engine n _ => (((s.unitOver r .engine).bumpAt Reg.CORE_ENG_RESETS n)).raise .resetEngine u 0xFF (suspectMask r.suspects)
    | .reduction _ => (s.unitOver r .engine).raise .resetEngine u 0xFF (suspectMask r.suspects)
    | _ => s

/-- PARTITION_RESET_IDLE: the partition that was reset is idle; each of its cores has had four engines reset (R448). -/
def State.partitionIdle (s : State) (p : Nat) : State :=
  match s.flt.unitResets.find? (fun r => r.unit == .partition p) with
  | none => s
  | some r =>
    let s1 := (s.coresOfPart p).foldl (fun s n => s.bumpBy (unitKey Reg.CORE_ENG_RESETS n) 32 4) (s.unitOver r .partition)
    s1.raise .resetPartition (.partition p) 0xFF (suspectMask r.suspects)

/-- RST_SAMPLE_LIMIT: the samples of a reset that are not yet written are abandoned (R452). -/
def State.sampleLimit (s : State) (u : UnitName) : State :=
  match s.flt.unitResets.find? (fun r => r.unit == u) with
  | none => s
  | some r =>
    r.samples.foldl (fun s x => s.sampleLost x.1)
      (s.onFlt fun f => { f with unitResets := updFirst (fun x => x.unit == u) (fun x => { x with samples := [] }) f.unitResets })

/-! ### The ladder -/

/-- A rung above `FLT_LADDER_MAX` is withheld: LADDER_STOPPED, and Quarantine (R444, R500). -/
def State.ladderStop (s : State) (u : UnitName) (ctx rung : Nat) : State :=
  let s1 := s.raise .ladderStopped u ctx rung
  if s1.blk = .ready ∨ s1.blk = .run ∨ s1.blk = .drain then { s1 with blk := .quarantine } else s1

/-- Rung 5 (R450): PCYC_REQUESTED, with the source that led to it. -/
def State.powerCycle (s : State) (src : Nat) : State := s.raise .pcycRequested .none 0xFF src

/-- The engines that still hold a context's work (R443). -/
def State.enginesOf (s : State) (c : Nat) : List UnitName :=
  s.allEngines.filter fun u => s.unitHolds u &&
    (match u with | .engine n _ => (s.ctxOnCore n).contains c | .reduction p => (s.ctxsOnReduction p).contains c | _ => false)

/-- One automatic rung taken for a unit, unless `FLT_LADDER_MAX` withholds it (R444). -/
def State.takeRung (s : State) (rung : Nat) (u : UnitName) (ctx cause src seq : Nat) : State :=
  if s.reg Reg.FLT_LADDER_MAX < rung then s.ladderStop (if 4 ≤ rung then .none else u) ctx rung
  else if rung = 5 then s.powerCycle src
  else if s.blk = .kickstand then s
  else
    match rung with
    | 1 => s.startCtxReset ctx cause (((s.unitCores u).head?).getD 0)
    | 2 => s.engineReset u seq
    | 3 => match s.partOfUnit u with | some p => s.partitionReset p seq | none => s
    | _ => s.blockResetBy seq

/-- Rung 2 on each engine that still holds a context's work; or the rung above, on those units (R443). -/
def State.takeOnEngines (s : State) (rung c src seq : Nat) : State :=
  (s.enginesOf c).foldl (fun s u => s.takeRung rung u c 4 src seq) s

/-- The rung at which the ladder starts for a hang: the one above a rung completed on the unit within `HANG_RECUR`
(R444); in probation, rung 1 (R454). -/
def State.firstRung (s : State) (t : EscTimer) : Nat :=
  if s.flt.probation.isSome then 1
  else
    let same (x : RungDone) : Bool := x.unit == t.unit || x.unit == .context t.ctx ||
      (match x.unit with | .partition p => s.partOfUnit t.unit == some p | _ => false)
    let recent := s.flt.rungs.filter fun x => same x && decide (x.time ≤ t.time ∧ (t.time - x.time) * 32 / 5 ≤ s.reg Reg.HANG_RECUR)
    (recent.map fun x => x.rung.number + 1).foldl max 1

/-- The ladder for a context or an engine (R436, R444). -/
def State.ladder (s : State) (t : EscTimer) : State :=
  let rung := s.firstRung t
  let turn := s.flt.probation.any fun p => p.turn == some t.ctx && (s.unitCores p.unit).any fun n => (s.unitCores t.unit).contains n
  match t.unit with
  | .context c => if rung = 1 ∨ 4 ≤ rung then s.takeRung rung t.unit c 2 t.src.code t.seq else s.takeOnEngines rung c t.src.code t.seq
  | u =>
    if rung = 1 ∧ 64 ≤ t.ctx then s.takeRung 2 u 0xFF 2 t.src.code t.seq
    else s.takeRung rung u t.ctx (if turn then 7 else 2) t.src.code t.seq

/-- The action of a source taken on the unit of its event (R436, R438). -/
def State.takeAction (s : State) (t : EscTimer) : State :=
  match s.regAt Reg.SRC_ACTION t.src.code with
  | 1 => (match t.unit with | .context c => s.takeRung 1 t.unit c 3 t.src.code t.seq | _ => s)
  | 2 => s.takeRung 2 t.unit t.ctx 4 t.src.code t.seq
  | 3 => (match s.partOfUnit t.unit with | some p => s.takeRung 3 (.partition p) t.ctx 5 t.src.code t.seq | none => s)
  | 4 => s.takeRung 4 .none t.ctx 0 t.src.code t.seq
  | 5 => s.enterKickstand
  | 6 => if s.blk = .kickstand ∧ s.firstRung t < 5 then s else s.ladder t
  | _ => s

/-- ESCALATION_TIMEOUT: a source's timer for a unit expires, and its action is taken (R436). -/
def State.escalate (s : State) (x : Source) (u : UnitName) : State :=
  match s.flt.timers.find? (fun t => t.src == x && t.unit == u) with
  | none => s
  | some t => (s.onFlt fun f => { f with timers := dropFirst (· == t) f.timers }).takeAction t

/-- The rank of an action that fell due (R438). -/
def State.actionRank (s : State) (t : EscTimer) : Nat :=
  match s.regAt Reg.SRC_ACTION t.src.code with
  | 6 => s.firstRung t | n => n

/-- The actions that fell due in this command, the highest rank first (R436, R438); `fuel` bounds them. -/
def State.takeDue (s : State) : Nat → State
  | 0 => s
  | fuel + 1 =>
    match s.flt.due.find? (fun t => s.flt.due.all fun y => decide (s.actionRank y ≤ s.actionRank t)) with
    | none => s
    | some t => ((s.onFlt fun f => { f with due := dropFirst (· == t) f.due }).takeAction t).takeDue fuel

/-- RST_CTX_LIMIT: a context reset still incomplete is replaced by rung 2 on each engine that holds its work (R443). -/
def State.ctxLimit (s : State) (c : Nat) : State :=
  if s.flt.ctxResets.any (fun x => x.ctx == c) then s.takeOnEngines 2 c 0 ((s.flt.seq + 2 ^ 32 - 1) % 2 ^ 32) else s

/-- RST_ENGINE_LIMIT: an engine reset still incomplete is replaced by rung 3 (R443). -/
def State.engineLimit (s : State) (u : UnitName) : State :=
  match s.flt.unitResets.find? (fun r => r.unit == u), s.partOfUnit u with
  | some r, some p =>
    if r.unit = .partition p then s else s.takeRung 3 (.partition p) 0xFF 5 0 ((s.flt.seq + 2 ^ 32 - 1) % 2 ^ 32)
  | _, _ => s

/-- RST_PARTITION_LIMIT: a partition reset still incomplete is replaced by rung 4 (R443). -/
def State.partitionLimit (s : State) (p : Nat) : State :=
  if s.flt.unitResets.any (fun r => r.unit == .partition p) then
    s.takeRung 4 .none 0xFF 0 0 ((s.flt.seq + 2 ^ 32 - 1) % 2 ^ 32)
  else s

/-- BLOCK_RESET_CONFIGURE_LIMIT: a block reset that has not reached Configure is replaced by rung 5 (R443). -/
def State.blockLimit (s : State) : State :=
  if s.blk = .reset ∧ s.rst.rung4 then s.takeRung 5 .none 0xFF 0 Source.resetBlock.code 0 else s

/-! ### Hang detection -/

/-- Whether a wait that another rule bounds counts as progress of a DMA engine (R439). -/
def State.boundedWait (s : State) : UnitName → Bool
  | .engine n .dma =>
    s.rmt.txns.any (fun t => t.owner != .imagePush && t.core == n && !t.quarantined && t.seqs.any fun e => e.2.phase == .parked) ||
      s.rmt.descs.any fun d => d.core == n && d.attTimer
  | _ => false

/-- Whether a hang of a unit is not raised again: its timer runs, or its reset is in progress (R441). -/
def State.hangHeld (s : State) (u : UnitName) : Bool :=
  s.flt.timers.any (fun t => t.unit == u && (t.src == .hangEngine || t.src == .hangContext)) || s.unitCovered u ||
    (match u with | .context c => s.regAt Reg.CTX_STATE c == 3 | _ => false)

/-- Whether a halt keeps a unit from the examination: a halted control core, and its context (R519). -/
def State.debugHeld (s : State) : UnitName → Bool
  | .engine n .control => (s.core n).halt != .running
  | .context c => (List.range s.build.cores).any fun n => s.ctxOfCore n == c && (s.core n).halt != .running
  | _ => false

/-- Whether the examination finds a unit hung (R441). -/
def State.hung (s : State) (u : UnitName) : Bool :=
  s.unitHolds u && !s.debugHeld u && !s.boundedWait u && !s.hangHeld u && decide (s.reg Reg.HANG_WINDOW ≤ s.nsSince (s.lastProgress u))

/-- The cadence time of a unit's last progress: all ones when the counter is not valid (R430). -/
def State.progressStamp (s : State) (u : UnitName) : Nat :=
  if s.cad.valid then s.cad.ns - s.nsSince (s.lastProgress u) else 2 ^ 64 - 1

/-- An engine found hung (R441); a hang of a unit in probation is noted for its turn (R454). -/
def State.raiseEngineHang (s : State) (u : UnitName) : State :=
  let c := match u with
    | .engine n _ => ((s.ctxOnCore n).head?).getD 0xFF
    | .reduction p => ((s.ctxsOnReduction p).head?).getD 0xFF
    | _ => 0xFF
  let s1 := s.raise .hangEngine u c (s.progressStamp u)
  if s.flt.probation.any (fun p => (s.unitCores p.unit).any fun n => (s.unitCores u).contains n) then
    s1.onFlt fun f => { f with probation := f.probation.map fun p => { p with hung := true } }
  else s1

/-- HANG_EXAMINE: the examination that comes once per millisecond (R441). Engines that wait under a bound make progress. -/
def State.hangExamine (s : State) : State :=
  if s.reg Reg.HANG_WINDOW = 0 ∨ !s.powered then s
  else
    let engines := s.allEngines.filter s.hung
    let blamed := engines.flatMap fun u => match u with
      | .engine n _ => s.ctxOnCore n | .reduction p => s.ctxsOnReduction p | _ => []
    let ctxs := (List.range 64).filter fun c => s.hung (.context c) && !blamed.contains c
    let waits := s.allEngines.filter fun u => s.unitHolds u && s.boundedWait u
    let s1 := waits.foldl (fun s u => s.progressed u.progressKey) s
    let s2 := engines.foldl State.raiseEngineHang s1
    ctxs.foldl (fun s c => s.raiseCtx .hangContext c (s.progressStamp (.context c))) s2

/-! ### Epochs -/

/-- EPOCH_RESYNC_COMPLETE: the directory has removed the core from its entries, and takes the new epoch; messages of the
old epoch are discarded (R457). -/
def State.resync (s : State) (n : Nat) : State :=
  let old := Table.get s.flt.unsynced 256 n
  if old = 256 then s
  else
    let stale := (s.far.reqs.filter fun r => r.core == n).length
    let s1 := (s.onFar fun f => { f with lines := f.lines.filter (fun l => l.core != n), reqs := f.reqs.filter fun r => r.core != n }).onFlt
      fun f => { f with unsynced := Table.erase f.unsynced n }
    (List.range stale).foldl (fun s _ => s.raise .epochRefused (.core n) 0xFF old) s1

/-! ### Clearing, and the power cycle -/

/-- A source cleared (R432). -/
def State.clearSource (s : State) (x : Source) : State :=
  ((s.setRegAt Reg.SRC_UNCLEARED x.code 0).setRegAt Reg.SRC_CLASS x.code x.defaultClass.code).onFlt fun f =>
    { f with timers := f.timers.filter (fun t => t.src != x), due := f.due.filter (fun t => t.src != x),
             windows := Table.erase f.windows x.code }

/-- `SRC_CLEAR` (R432, R466). -/
def State.srcClearAct (s : State) (code : Nat) : Status × State :=
  match Source.ofCode? code with
  | none => (.noSuchEntry, s)
  | some x => if s.srcClass x = .grave then (.busy, s) else (.ok, s.clearSource x)

/-- `FLT_CLEAR_ALL`: every source whose class is not Grave (R432). -/
def State.clearAllAct (s : State) : Status × State :=
  (.ok, Source.all.foldl (fun s x => if s.srcClass x = .grave then s else s.clearSource x) s)

/-- `RST_CTX` (R445): refused for a Closed context. -/
def State.rstCtxAct (s : State) (c : Nat) : Status × State :=
  if s.regAt Reg.CTX_STATE c = 0 then (.busy, s) else (.ok, s.startCtxReset c 1 0)

/-- `FLT_BLOCK_RESET` (R449). No event led to it: the sample's sequence number is left free. -/
def State.blockResetAct (s : State) : Status × State :=
  let f := s.drawNat
  (.ok, f.2.blockResetBy (f.1 % 2 ^ 32))

/-- `FLT_KICK_EXIT` (R463). -/
def State.kickExitAct (s : State) : Status × State :=
  if s.blk ≠ .kickstand ∨ s.flt.grave ∨ (s.flt.kickClock && s.reg Reg.CLK_FAULT_BLOCK % 4 != 0) then (.busy, s)
  else
    let f := s.drawNat
    (.ok, f.2.blockResetBy (f.1 % 2 ^ 32))

/-- PCYC_KICKSTAND: `FLT_ESCALATION_TIMEOUT` after the request, Kickstand, and PCYC_REQ_N where it is automatic
(R450). -/
def State.pcycKick (s : State) : State :=
  if !s.flt.pcycTimer || s.blk == .off || s.blk == .reset then s
  else s.enterKickstand.onFlt fun f => { f with pcycTimer := false, pcycLow := f.pcycLow || s.flag Reg.FLT_PCYC_AUTO }

end Sys2Proof.Machine
end

