-- ==== Sys2Proof/Machine/Hier.lean ====
section
/-! DEFINITION. The hierarchy: the cadence counter's exchanges, barriers, broadcasts and the standby manager (R397 to
R426). -/
namespace Sys2Proof.Machine
open Sys2Proof Sys2Proof.Bits

/-! ### The cadence counter -/

/-- The counter in units of 2^−8 ns. -/
def State.now256 (s : State) : Nat := s.cad.ns * 256 + s.cad.frac / 256

/-- A CADENCE packet (R403). -/
def State.cadencePkt (s : State) (dest phase exchange : Nat) (body : List Byte) : Packet :=
  { s.ctlPkt .cadence 0 dest with ordered := true, seq := phase * 65536 + exchange % 65536, payload := body }

/-- The parent that a follower exchanges with (R405). -/
def State.cadenceParent (s : State) : Nat :=
  if s.cad.onAlt then s.reg Reg.HIER_CADENCE_ALT else s.reg Reg.HIER_CADENCE_PARENT

/-- The eighth missed exchange in a row: the alternate parent, or a free-running root (R405). -/
def State.missedOut (s : State) : State :=
  let s1 := s.onCad fun x => { x with missed := 0 }
  if s.reg Reg.HIER_CADENCE_ALT ≠ 0xFFFF ∧ !s.cad.onAlt then
    (s1.onCad fun x => { x with onAlt := true }).cadenceLost (unsign 64 (signed 32 (s.reg Reg.HIER_CADENCE_OFFSET)))
  else s1.onCad fun x => { x with free := true }

/-- CADENCE_PERIOD: a follower sends REQ to its parent; an exchange without an RSP is missed (R403, R405). -/
def State.cadencePeriod (s : State) : State :=
  if s.reg Reg.HIER_CADENCE_ROLE ≠ 0 ∨ s.blk = .off ∨ s.blk = .reset then s
  else
    let s1 := if s.cad.t1.isSome then s.onCad fun x => { x with missed := x.missed + 1, t1 := none } else s
    let s2 := if 8 ≤ s1.cad.missed then s1.missedOut else s1
    if s2.cadenceParent = 0xFFFF then s2
    else
      let n := (s2.cad.exchange + 1) % 65536
      (s2.onCad fun x => { x with exchange := n, t1 := some s2.now256 }).sendPkt none (s2.cadencePkt s2.cadenceParent 1 n (zeros 16))

/-- CADENCE REQ: the parent answers with its time and how long it held the exchange (R403). -/
def State.takeCadenceReq (s : State) (p : Packet) : State :=
  let t3 := if s.cad.valid then s.cad.ns else 2 ^ 64 - 1
  s.sendPkt none (s.cadencePkt p.src 2 (p.seq % 65536) (leBytes 8 t3 ++ zeros 4 ++ leBytes 4 (le 8 4 p.payload)))

/-- *A* driven toward zero offset: by how much is the block's choice, within its range (R402, R405). -/
def State.steer (s : State) (theta : Int) : State :=
  let f := s.drawNat
  let a := s.cad.rate
  let down := Int.ofNat (f.1 % ((a + 128).toNat + 1))
  let up := Int.ofNat (f.1 % ((128 - a).toNat + 1))
  f.2.onCad fun x => { x with rate := if 0 < theta then a - down else if theta < 0 then a + up else a }

/-- An offset held in a saturating signed 32-bit entry (R423). -/
def saturate32 (i : Int) : Nat := unsign 32 (max (-(2 ^ 31 : Int)) (min (2 ^ 31 - 1) i))

/-- The counter stepped back by an offset in units of 2^−8 ns. -/
def Cadence.stepBy (x : Cadence) (theta : Int) : Cadence :=
  let v := ((Int.ofNat (x.ns * 65536 + x.frac) - theta * 256) % (2 ^ 80 : Int)).toNat
  { x with ns := v / 65536, frac := v % 65536 }

/-- A measured offset counted toward validity: three in a row within 4 ns (R405). -/
def Cadence.count (x : Cadence) (theta : Int) : Cadence :=
  let good := if theta.natAbs ≤ 1024 then x.good + 1 else 0
  { x with good := good, valid := x.valid || decide (3 ≤ good) }

/-- The offset θ of an exchange, in units of 2^−8 ns (R403). -/
def cadenceOffset (t1 t4 t3 corr hold : Nat) : Int :=
  let d := (Int.ofNat t4 - Int.ofNat t1 - Int.ofNat hold - Int.ofNat corr) / 2
  Int.ofNat t4 - (Int.ofNat t3 + Int.ofNat corr + d)

/-- What a follower does with an offset (R405). -/
def State.takeOffset (s : State) (theta : Int) : State :=
  let s1 := s.setReg Reg.HIER_CADENCE_OFFSET (saturate32 theta)
  if !s.cad.valid || decide (256000 ≤ theta.natAbs) then
    let s2 := ((s1.cadenceLost (unsign 64 theta)).onCad fun x => x.stepBy theta).bump Reg.HIER_CADENCE_STEPS
    s2.onCad fun x => { x with good := s.cad.good }.count theta
  else s1.steer theta

/-- CADENCE RSP at a follower (R403, R405). -/
def State.takeCadenceRsp (s : State) (p : Packet) : State :=
  match s.cad.t1 with
  | none => s
  | some t1 =>
    if s.reg Reg.HIER_CADENCE_ROLE ≠ 0 ∨ p.seq % 65536 ≠ s.cad.exchange then s
    else
      let s1 := s.onCad fun x => { x with t1 := none, missed := 0, free := false }
      let t3 := le 0 8 p.payload
      if t3 = 2 ^ 64 - 1 then s1.cadenceLost (unsign 64 (signed 32 (s.reg Reg.HIER_CADENCE_OFFSET)))
      else s1.takeOffset (cadenceOffset t1 s.now256 (t3 * 256) (le 8 4 p.payload) (le 12 4 p.payload))

/-- `HIER_CADENCE_SET` (R407): refused while the block is a follower. -/
def State.cadenceSetAct (s : State) (v : Nat) : Status × State :=
  let role := s.reg Reg.HIER_CADENCE_ROLE
  if role = 0 then (.busy, s)
  else (.ok, s.onCad fun x => { x with ns := v % 2 ^ 64, frac := 0, rate := 0, good := 0, valid := role == 1, set := true })

/-- An edge of TRF_CADENCE_IN at a pulse root: the nearest multiple steers *A*, or the edge is rejected (R407). -/
def State.cadenceEdge (s : State) : State :=
  if s.reg Reg.HIER_CADENCE_ROLE ≠ 2 ∨ !s.cad.set then s
  else
    let m := 1048576 * 256
    let r := s.now256 % m
    let theta : Int := if 2 * r < m then Int.ofNat r else Int.ofNat r - m
    if 256000 < theta.natAbs then s.bump Reg.HIER_PULSE_REJECTED
    else ((s.setReg Reg.HIER_CADENCE_OFFSET (saturate32 theta)).steer theta).onCad fun x => x.count theta

/-- CADENCE_OUT_PULSE: bits [19:0] of a valid counter have wrapped (R46). -/
def State.cadenceOut (s : State) : State :=
  if s.cad.valid && decide (s.cad.ns % 1048576 < 7) then s.onCad fun x => { x with outHigh := 64 } else s

/-! ### Trees -/

/-- The tree in use by a context: the primary, or the alternate after a takeover (R399, R417). -/
def State.tree (s : State) (c : Nat) : Tree :=
  ((s.ctx c).trees[ofBool (s.ctx c).alt]?).getD { parent := 0xFFFF, children := [] }

/-- Whether this block is the root of a context's tree. -/
def State.isRoot (s : State) (c : Nat) : Bool := (s.tree c).parent == 0xFFFF

/-- The number of a context's next barrier (R410). -/
def State.nextBar (s : State) (c : Nat) : Nat := (s.regAt Reg.BAR_COUNT c + 1) % 2 ^ 32

/-- A BARRIER packet (R410). -/
def State.barPkt (s : State) (c dest phase : Nat) (step : Bool) (number newStep : Nat) : Packet :=
  { s.ctlPkt .barrier (s.jobOf c) dest with
    payload := leBytes 1 phase ++ leBytes 1 (ofBool step) ++ leBytes 1 (s.regAt Reg.JOB_MGR_EPOCH c) ++ [0] ++
      leBytes 4 number ++ leBytes 4 newStep ++ zeros 4 }

/-- A BARRIER packet sent to one member. -/
def State.sendBar (s : State) (c dest phase : Nat) (step : Bool) (number newStep : Nat) : State :=
  s.sendPkt (some c) (s.barPkt c dest phase step number newStep)

/-- A BARRIER packet sent to every child. -/
def State.sendKids (s : State) (c phase : Nat) (step : Bool) (number newStep : Nat) : State :=
  (s.tree c).children.foldl (fun s d => s.sendBar c d phase step number newStep) s

/-! ### Barriers -/

/-- A context that no longer takes part in the present barrier. -/
def CtxState.noBarrier (x : CtxState) : CtxState := { x with arrived := none, arrivals := [], sentUp := false }

/-- A release: forwarded, the step set and recorded, and the barrier counted (R411). -/
def State.releaseBar (s : State) (c : Nat) (step : Bool) (newStep : Nat) : State :=
  let s1 := s.sendKids c 2 step (s.nextBar c) newStep
  let s2 := if step then (s1.setRegAt Reg.JOB_STEP c newStep).stepRecord c newStep else s1
  let s3 := ((s2.setRegAt Reg.BAR_COUNT c (s.nextBar c)).setRegAt Reg.BAR_STATE c 0).onCtx c CtxState.noBarrier
  s3.signal (s.regAt Reg.BAR_OUT_SEM c) 1

/-- A barrier failed at a member: ABORT goes down, and BARRIER_FAILED is raised (R412). -/
def State.failBar (s : State) (c : Nat) : State :=
  let s1 := ((s.sendKids c 3 false (s.nextBar c) 0).setRegAt Reg.BAR_STATE c 2).onCtx c CtxState.noBarrier
  s1.raiseCtx .barrierFailed c (s.nextBar c)

/-- Arrivals that do not agree: the parent sends ABORT, and its own barrier fails if it has arrived (R411, R412). -/
def State.barMismatch (s : State) (c : Nat) : State :=
  if s.regAt Reg.BAR_STATE c = 1 then s.failBar c
  else (s.sendKids c 3 false (s.nextBar c) 0).onCtx c fun x => { x with arrivals := [] }

/-- What a context's arrivals come to: a mismatch, ARRIVE upward, or at the root the completion (R411). -/
def State.barStep (s : State) (c : Nat) : State :=
  let x := s.ctx c
  match x.arrived with
  | none => s
  | some kind =>
    if s.regAt Reg.BAR_STATE c ≠ 1 ∨ x.sentUp then s
    else if x.arrivals.any (fun a => a.2 != kind) then s.barMismatch c
    else if !(s.tree c).children.all (fun d => x.arrivals.any fun a => a.1 == d) then s
    else if s.isRoot c then s.releaseBar c kind (if kind then (s.regAt Reg.JOB_STEP c + 1) % 2 ^ 32 else 0)
    else (s.sendBar c (s.tree c).parent 1 kind (s.nextBar c) 0).onCtx c fun x => { x with sentUp := true }

/-- The context that a job-level packet is for, where its epoch is this block's; a manager that meets a later epoch is
demoted (R419). -/
def State.epochGate (s : State) (p : Packet) (epoch : Nat) : Option Nat × State :=
  match s.ctxOfJob? p.job with
  | none => (none, s)
  | some c =>
    let own := s.regAt Reg.JOB_MGR_EPOCH c
    let later := decide (1 ≤ (epoch + 256 - own) % 256 ∧ (epoch + 256 - own) % 256 ≤ 127)
    if epoch = own then (some c, s)
    else if later && s.regAt Reg.JOB_ROLE c == 1 then
      (none, (s.setRegAt Reg.JOB_ROLE c 0).raiseCtx .managerDemoted c epoch)
    else (none, s)

/-- ARRIVE from a child (R411, R412). -/
def State.takeArrive (s : State) (p : Packet) : State :=
  let g := s.epochGate p (le 2 1 p.payload)
  match g.1 with
  | none => g.2
  | some c =>
    let s1 := g.2
    let number := le 4 4 p.payload
    let kind := bit (le 1 1 p.payload) 0
    if !(s1.tree c).children.contains p.src then s1
    else if number = s1.nextBar c then
      let add (x : CtxState) : CtxState :=
        { x with arrivals := if x.arrivals.any (fun a => a.1 == p.src) then x.arrivals else x.arrivals ++ [(p.src, kind)] }
      (s1.onCtx c add).barStep c
    else if (s1.regAt Reg.BAR_COUNT c + 2 ^ 32 - number) % 2 ^ 32 < 2 ^ 31 then
      s1.sendBar c p.src 2 kind number (if kind then s1.regAt Reg.JOB_STEP c else 0)
    else s1.barMismatch c

/-- RELEASE from the parent: taken once, by barrier number (R411, R412). -/
def State.takeBarRelease (s : State) (p : Packet) : State :=
  let g := s.epochGate p (le 2 1 p.payload)
  match g.1 with
  | none => g.2
  | some c =>
    if le 4 4 p.payload = g.2.nextBar c ∧ g.2.regAt Reg.BAR_STATE c = 1 then
      g.2.releaseBar c (bit (le 1 1 p.payload) 0) (le 8 4 p.payload)
    else g.2

/-- ABORT from the parent (R412). -/
def State.takeBarAbort (s : State) (p : Packet) : State :=
  let g := s.epochGate p (le 2 1 p.payload)
  match g.1 with
  | none => g.2
  | some c => if le 4 4 p.payload = g.2.nextBar c ∧ g.2.regAt Reg.BAR_STATE c ≠ 2 then g.2.failBar c else g.2

/-- ARRIVE_REPEAT: a child repeats its ARRIVE (R412). -/
def State.arriveRepeat (s : State) (c : Nat) : State :=
  match (s.ctx c).arrived with
  | some kind =>
    if (s.ctx c).sentUp ∧ s.regAt Reg.BAR_STATE c = 1 then s.sendBar c (s.tree c).parent 1 kind (s.nextBar c) 0 else s
  | none => s

/-- BAR_TIMEOUT: at the root the time since its arrival, at a member its own wait, has passed its bound (R412). -/
def State.barTimeout (s : State) (c : Nat) : State := if s.regAt Reg.BAR_STATE c = 1 then s.failBar c else s

/-! ### The standby manager -/

/-- The alternate tree of a context. -/
def State.altTree (s : State) (c : Nat) : Tree := ((s.ctx c).trees[1]?).getD { parent := 0xFFFF, children := [] }

/-- KEEPALIVE_PERIOD: the manager tells the standby that it lives (R417). The standby is taken to be the manager's parent
in the alternate tree. -/
def State.keepalive (s : State) (c : Nat) : State :=
  if s.regAt Reg.JOB_ROLE c = 1 ∧ s.regAt Reg.CTX_ROUTE_STATE c = 1 ∧ (s.altTree c).parent ≠ 0xFFFF then
    s.sendBar c (s.altTree c).parent 4 false (s.nextBar c) 0
  else s

/-- KEEPALIVE at the standby (R417). -/
def State.takeKeepalive (s : State) (p : Packet) : State :=
  let g := s.epochGate p (le 2 1 p.payload)
  match g.1 with
  | none => g.2
  | some c => if g.2.regAt Reg.JOB_ROLE c = 2 then g.2.onCtx c fun x => { x with keepAt := s.tclk } else g.2

/-- A member moves to the alternate tree: its arrival is sent again there (R418). -/
def State.toAlternate (s : State) (c chip epoch : Nat) : State :=
  ((s.onCtx c fun x => { x with alt := true, arrivals := [], sentUp := false }).setRegAt Reg.JOB_MGR_CHIP c chip).setRegAt
    Reg.JOB_MGR_EPOCH c epoch

/-- TAKEOVER_TIMEOUT: the standby takes over (R417). -/
def State.takeover (s : State) (c : Nat) : State :=
  if s.regAt Reg.JOB_ROLE c ≠ 2 ∨ s.regAt Reg.CTX_ROUTE_STATE c ≠ 1 then s
  else
    let epoch := (s.regAt Reg.JOB_MGR_EPOCH c + 1) % 256
    let s1 := (s.setRegAt Reg.JOB_ROLE c 1).toAlternate c s.ownChip epoch
    ((s1.sendKids c 5 false (s1.nextBar c) 0).raiseCtx .managerTakeover c epoch).barStep c

/-- TAKEOVER at a member: a later epoch is taken, and the packet goes on down the alternate tree as it came (R417,
R419). -/
def State.takeTakeover (s : State) (p : Packet) : State :=
  match s.ctxOfJob? p.job with
  | none => s
  | some c =>
    let epoch := le 2 1 p.payload
    let gap := (epoch + 256 - s.regAt Reg.JOB_MGR_EPOCH c) % 256
    if gap = 0 ∨ 127 < gap then s
    else
      let s1 := if s.regAt Reg.JOB_ROLE c = 1 then (s.setRegAt Reg.JOB_ROLE c 0).raiseCtx .managerDemoted c epoch else s
      let s2 := s1.toAlternate c p.src epoch
      ((s2.tree c).children.foldl (fun s d => s.sendPkt (some c) { p with dest := d }) s2).barStep c

/-! ### Broadcasts -/

/-- A broadcast packet (R413). -/
def State.bcastPkt (s : State) (c : Nat) (reset : Bool) (time seq : Nat) : Packet :=
  { s.ctlPkt (if reset then .resetBcast else .snapshot) (s.jobOf c) 0 with
    ordered := true
    payload := leBytes 8 time ++ leBytes 2 (s.jobOf c) ++ leBytes 1 (ofBool reset) ++ leBytes 1 (s.regAt Reg.JOB_MGR_EPOCH c) ++
      leBytes 4 seq }

/-- A broadcast packet forwarded to every child, from this block (R413). -/
def State.forward (s : State) (c : Nat) (p : Packet) : State :=
  (s.tree c).children.foldl (fun s d => s.sendPkt (some c) { p with dest := d, src := s.ownChip }) s

/-- The 8 KiB snapshot record (R415). -/
def State.snapRecord (s : State) (c : Nat) (b : Bcast) : List Byte :=
  let dirs := [Reg.DIR_PRIORITY0, Reg.DIR_PRIORITY1, Reg.DIR_PRIORITY2, Reg.DIR_PRIORITY3, Reg.DIR_PRIORITY4,
    Reg.DIR_PRIORITY5, Reg.DIR_PRIORITY6, Reg.DIR_PRIORITY7]
  leBytes 8 b.time ++ leBytes 8 s.cad.ns ++ leBytes 2 (s.jobOf c) ++ leBytes 1 (ofBool b.late) ++
    leBytes 1 (s.regAt Reg.JOB_MGR_EPOCH c) ++ leBytes 4 (s.regAt Reg.JOB_STEP c) ++ leBytes 4 (s.regAt Reg.BAR_COUNT c) ++
    dirs.flatMap (fun k => leBytes 1 (s.reg k)) ++ leBytes 1 (Table.get s.pkt.ptr 0 c) ++ leBytes 1 s.disp.ptr ++
    leBytes 1 (s.genOf c) ++ [0] ++ leBytes 4 b.seq ++ leBytes 2 (s.reg Reg.HIER_RACK) ++ leBytes 1 (s.reg Reg.HIER_SLOT) ++ [0] ++
    zeros 16 ++ ((List.range 4096).map fun g => BitVec.ofNat 8 (Table.get (s.ctx c).alives 0 g)) ++ zeros 4032

/-- A broadcast acted on (R414 to R416). -/
def State.actBcast (s : State) (c : Nat) (b : Bcast) : State :=
  let s1 := s.onCtx c fun x => { x with bcasts := updFirst (fun y => y.seq == b.seq && y.pkt == b.pkt) (fun y => { y with acted := true, late := b.late }) x.bcasts }
  let s2 := if b.late then (s1.bump Reg.HIER_LATE_BCAST).raiseCtx .bcastLate c b.time else s1
  if b.reset then s2.startCtxReset c 6 0
  else
    let slots := s2.regAt Reg.JOB_SNAP_SLOTS c
    if slots = 0 then s2.bump Reg.HIER_SNAP_UNRECORDED
    else (s2.memWrite (s2.regAt Reg.JOB_SNAP_BASE c + 8192 * (b.seq % slots)) (clean (s2.snapRecord c b))).2

/-- A broadcast entered, forwarded, and acted on at once where it is late (R413, R414). -/
def State.enterBcast (s : State) (c : Nat) (reset : Bool) (time seq : Nat) (p : Packet) : State :=
  let late := !s.cad.valid || decide (time ≤ s.cad.ns)
  let b : Bcast := { reset := reset, time := time, seq := seq, late := late, again := true, acted := false, pkt := p }
  let s1 := (s.onCtx c fun x => { x with bcasts := x.bcasts ++ [b] }).forward c p
  if late then s1.actBcast c b else s1

/-- `JOB_SNAPSHOT` and `JOB_RESET` (R413). -/
def State.bcastAct (s : State) (c : Nat) (reset : Bool) (time : Nat) : Status × State :=
  if s.regAt Reg.JOB_ROLE c ≠ 1 ∨ !s.cad.valid ∨ s.regAt Reg.CTX_ROUTE_STATE c ≠ 1 then (.busy, s)
  else if time ≠ 0 ∧ time < s.cad.ns + 2000 then (.outOfRange, s)
  else
    let t := if time = 0 then s.cad.ns + s.reg Reg.HIER_BCAST_LEAD else time
    let seq := (s.ctx c).nextBcast
    (.ok, (s.onCtx c fun x => { x with nextBcast := (seq + 1) % 2 ^ 32 }).enterBcast c reset t seq (s.bcastPkt c reset t seq))

/-- SNAPSHOT or RESET_BCAST from the parent (R413, R414, R419). -/
def State.takeBcast (s : State) (p : Packet) : State :=
  let reset := p.op == .resetBcast
  let g := s.epochGate p (le 11 1 p.payload)
  match g.1 with
  | none => g.2
  | some c =>
    let seq := le 12 4 p.payload
    if reset && le 10 1 p.payload != 1 then g.2.bump Reg.HIER_BCAST_REFUSED
    else if (g.2.ctx c).bcasts.any (fun b => b.seq == seq && le 11 1 b.pkt.payload == le 11 1 p.payload) then g.2
    else g.2.enterBcast c reset (le 0 8 p.payload) seq p

/-- BCAST_SECOND_COPY: the second copies of a context's broadcasts leave (R413). -/
def State.secondCopy (s : State) (c : Nat) : State :=
  let due := (s.ctx c).bcasts.filter (·.again)
  due.foldl (fun s b => s.forward c b.pkt)
    (s.onCtx c fun x => { x with bcasts := x.bcasts.map fun b => { b with again := false } })

/-- BCAST_ACTIVATE: the counter has reached a broadcast's time (R408, R414). -/
def State.activate (s : State) (c seq : Nat) : State :=
  match (s.ctx c).bcasts.find? (fun b => b.seq == seq && !b.acted) with
  | none => s
  | some b => if s.cad.valid && decide (b.time ≤ s.cad.ns) then s.actBcast c b else s

end Sys2Proof.Machine
end

