-- ==== Sys2Proof/Machine/Power.lean ====
section
/-! DEFINITION. The power governor, core sleep and wake, matrix ramps, and requests to the regulators (ch. 14, R48). -/
namespace Sys2Proof.Machine
open Sys2Proof Sys2Proof.Bits

/-! ### The estimate -/

/-- Milliwatts as the estimate counts them: units of 1/1600 mW, so that the sixteenths of an issue level and the
percents of `PWR_MODEL_SCALE` are whole. -/
def mwUnit : Nat := 1600

/-- Watts in the units of the estimate. -/
def wattUnit : Nat := 1000 * mwUnit

/-- The present issue level of a core (R482). -/
def State.level (s : State) (n : Nat) : Nat := s.regAt Reg.PWR_CORE_LEVEL n

/-- Whether a core is Active (R474). -/
def State.coreActive (s : State) (n : Nat) : Bool := s.regAt Reg.PWR_CORE_STATE n == 0

/-- The built cores in a power state that draw activity power. -/
def State.drawingCores (s : State) : List Nat := (List.range s.build.cores).filter s.awake

/-- `n` free numbers. -/
def State.drawMany (s : State) : Nat → List Nat × State
  | 0 => ([], s)
  | n + 1 =>
    let a := s.drawNat
    let b := a.2.drawMany n
    (a.1 :: b.1, b.2)

/-- What each awake core would draw at level 16 over the interval, in mW: Rhasor's coefficients times the activity of
the interval, neither of which the spec gives (R468). -/
def State.coreLoads (s : State) : Table Nat × State :=
  let d := s.drawMany s.drawingCores.length
  (s.drawingCores.zip d.1, d.2)

/-- The static power in mW: 60 W for GX5-64/64/16; another build's constant is not given (R468). -/
def State.staticPower (s : State) : Nat × State :=
  if s.build.cores = 64 ∧ s.build.links = 64 ∧ s.build.ports = 16 then (60000, s) else s.drawNat

/-- Working lanes of a link: four, or one for a single-lane link; none while it is Down or Held Down (R468, R478). -/
def LinkState.lanesOn (l : LinkState) : Nat :=
  if l.active then (if l.single then 1 else 4) else if l.heldDown || !l.phyRstN then 0 else if l.offerSingle then 1 else 4

/-- The lanes' power in mW (R468). -/
def State.lanePower (s : State) : Nat :=
  s.reg Reg.PWR_LANE_MW * ((List.range s.build.links).map fun n => (s.link n).lanesOn).sum

/-- *P* for given loads and levels (R468): `fixed` is the static power and the power of the counted events, in mW. -/
def State.estimate (s : State) (fixed : Nat) (loads : Table Nat) (level : Nat → Nat) : Nat :=
  (16 * fixed + (loads.map fun e => e.2 * level e.1).sum) * s.reg Reg.PWR_MODEL_SCALE + mwUnit * s.lanePower

/-! ### The governor -/

/-- Cores put in descending order of their own estimated power; equal ones keep their order. -/
def byPower (power : Nat → Nat) : List Nat → List Nat
  | [] => []
  | n :: rest => ins n (byPower power rest)
where
  /-- A core put before the first that does not draw more. -/
  ins (n : Nat) : List Nat → List Nat
    | [] => [n]
    | m :: l => if power n < power m then m :: ins n l else n :: m :: l

/-- A core's issue level set. -/
def State.setLevel (s : State) (n v : Nat) : State := s.setRegAt Reg.PWR_CORE_LEVEL n v

/-- The cap that the present interval uses for a core. -/
def State.capOf (s : State) (n : Nat) : Nat := min (Table.get s.pwr.caps 16 n) (s.regAt Reg.PWR_CORE_CAP n)

/-- Step 1 of R471: Active cores above level 1 fall by one level each until the model predicts no more than the
budget. -/
def State.lowerLevels (s : State) (fixed : Nat) (loads : Table Nat) : State :=
  let power (n : Nat) : Nat := Table.get loads 0 n * s.level n
  let cand := (List.range s.build.cores).filter fun n => s.coreActive n && decide (1 < s.level n)
  (byPower power cand).foldl (fun t n =>
    if t.estimate fixed loads t.level ≤ s.pwr.budget * wattUnit then t else t.setLevel n (t.level n - 1)) s

/-- Step 2 of R471: every core below its cap rises by one level. -/
def State.raiseLevels (s : State) : State :=
  (List.range s.build.cores).foldl (fun t n => if t.level n < t.capOf n then t.setLevel n (t.level n + 1) else t) s

/-- Every core at level 1, as a low PMI_PGOOD holds them (R471, R48). -/
def State.throttleAll (s : State) : State := (List.range s.build.cores).foldl (fun t n => t.setLevel n 1) s

/-- The settings that the next interval uses (R469, R472). -/
def State.latchBudget (s : State) : State :=
  let b := s.reg Reg.PWR_BUDGET
  s.onPwr fun p =>
    { p with budget := if s.pmi.alertActive then min b (s.reg Reg.PWR_ALERT_BUDGET) else b, hyst := s.reg Reg.PWR_HYST,
             caps := (List.range s.build.cores).foldl (fun t n => Table.put t 16 n (s.regAt Reg.PWR_CORE_CAP n)) [] }

/-- GOVERNOR_INTERVAL: the estimate of the interval that ends, and the steps of R471. -/
def State.governorInterval (s : State) : State :=
  if s.blk = .off ∨ s.blk = .reset then s
  else
    let loads := s.coreLoads
    let st := loads.2.staticPower
    let ev := st.2.drawNat
    let fixed := st.1 + ev.1
    let s0 := ev.2
    let p := s0.estimate fixed loads.1 s0.level
    let budget := s0.pwr.budget * wattUnit
    let s1 := (s0.onPwr fun x => { x with est := p }).setReg Reg.PWR_ESTIMATE (min (p / wattUnit) 0xFFFF)
    let allLow := (List.range s.build.cores).all fun n => !s1.coreActive n || s1.level n == 1
    let s2 := if budget < p then s1.bump Reg.PWR_OVER_INTERVALS else s1
    let s3 := s2.onPwr fun x =>
      { x with overCount := if budget < p ∧ allLow then x.overCount + 1 else 0,
               under := if p + x.hyst * wattUnit < budget then x.under + 1 else 0 }
    let s4 :=
      if !s3.pmi.pgood then s3.throttleAll
      else if budget < p then s3.lowerLevels fixed loads.1
      else if 8 ≤ s3.pwr.under then s3.raiseLevels.onPwr fun x => { x with under := 0 }
      else s3
    let s5 :=
      if 100 ≤ s4.pwr.overCount then (s4.onPwr fun x => { x with overCount := 0 }).raise .pwrOverBudget .none 0xFF (p / wattUnit)
      else s4
    s5.latchBudget

/-! ### Requests to the regulators -/

/-- A request that waits for PMI; a newer one of its kind replaces it (R479). -/
def State.queuePmi (s : State) (k : PmiKind) (v : Nat) : State :=
  s.onPmi fun x => { x with waiting := x.waiting.filter (fun w => w.1 != k) ++ [(k, v)] }

/-- The code of a request kind (R479). -/
def PmiKind.code : PmiKind → Nat
  | .forecast => 1 | .floor => 2 | .vid => 3

/-- Power in units of 0.25 W, saturating (R479). -/
def quarterWatts (p : Nat) : Nat := min (p / (wattUnit / 4)) 0xFFFF

/-- The estimate with every waking core and ramping array at level 16, and the one that is to be released; what each
would draw is Rhasor's (R479). -/
def State.forecastWith (s : State) : Nat × State :=
  let d := s.drawMany (s.pwr.waking.length + s.pwr.ramping.length + 1)
  (quarterWatts (s.pwr.est + d.1.sum * mwUnit), d.2)

/-- Whether a release may go: it would not raise the forecast by more than `PWR_FORECAST_STEP` above the last FORECAST
sent, or a FORECAST has cleared it. Otherwise a FORECAST is queued, and the release is held (R479). -/
def State.mayRelease (s : State) (r : Release) : Bool × State :=
  if s.pwr.cleared = some r then (true, s.onPwr fun p => { p with cleared := none })
  else if s.pwr.held = some r then (false, s)
  else
    let f := s.forecastWith
    if f.1 ≤ f.2.pwr.forecast + 4 * f.2.reg Reg.PWR_FORECAST_STEP then (true, f.2)
    else if s.pwr.held.isSome then (false, f.2)
    else (false, (f.2.queuePmi .forecast f.1).onPwr fun p => { p with held := some r })

/-! ### Wakes -/

/-- WAKE_TOKEN_REFILL: one token, up to the bucket's depth (R476). -/
def State.wakeRefill (s : State) : State :=
  if s.blk = .off ∨ s.blk = .reset then s
  else s.onPwr fun p => { p with tokens := min (p.tokens + 1) (s.reg Reg.PWR_WAKE_RATE) }

/-- WAKE_RELEASE: the first waiting wake takes a token, and its core powers up; none while PMI_PGOOD is low (R476,
R471). -/
def State.wakeRelease (s : State) (n : Nat) : State :=
  if !s.powered || !s.pmi.pgood || s.pwr.tokens == 0 || s.pwr.wakes.head? != some n then s
  else
    let r := s.mayRelease (.wake n)
    if r.1 then
      (r.2.onPwr fun p => { p with tokens := p.tokens - 1, wakes := p.wakes.drop 1, waking := p.waking ++ [n] }).bump
        Reg.PWR_WAKES
    else r.2

/-- The level at which a core wakes (R472). -/
def State.wakeLevel (s : State) (n : Nat) : Nat :=
  if !s.pmi.pgood then 1
  else
    ((List.range s.build.cores).filter s.coreActive).foldl (fun v m => min v (s.level m)) (s.regAt Reg.PWR_CORE_CAP n)

/-- WAKE_COMPLETE: the core is Active, or Idle where its work is gone, at the level of R472, with an advanced epoch
(R474, R475, R456). -/
def State.wakeComplete (s : State) (n : Nat) : State :=
  if !s.pwr.waking.contains n then s
  else
    let work := (s.core n).run.isSome || s.serving n
    let s1 := (s.setLevel n (s.wakeLevel n)).onPwr fun p => { p with waking := p.waking.filter (· != n) }
    (s1.setRegAt Reg.PWR_CORE_STATE n (if work then 0 else 1)).advanceEpoch n

/-- WAKE_DELAYED: a wake has waited longer than 100 µs (R476). -/
def State.wakeLate (s : State) (n waited : Nat) : State :=
  if s.pwr.wakes.contains n ∧ 100000 < waited then s.raise .wakeDelayed (.core n) 0xFF waited else s

/-- SLEEP_DELAY_EXPIRE: an Idle core writes back its far lines, loses what sleep loses, and gates its power (R474,
R475). -/
def State.sleepExpire (s : State) (n : Nat) : State :=
  if s.build.cores ≤ n ∨ s.regAt Reg.PWR_CORE_STATE n ≠ 1 ∨ s.reg Reg.PWR_SLEEP_DELAY = 0 then s
  else
    let s1 := (s.flushFar n).onFar fun f => { f with lines := f.lines.filter fun l => l.core != n }
    (s1.onCore n fun x => { x with masks := [], bank0 := .zero, bank1 := .zero, gated := true }).setRegAt
      Reg.PWR_CORE_STATE n 2

/-! ### Matrix ramps -/

/-- MM_GATE_DELAY: an array without work is gated (R477). -/
def State.mmGate (s : State) (n : Nat) : State :=
  if n < s.build.cores && !s.engineHolds n .matrix then s.onCore n fun x => { x with gated := true } else s

/-- Ramps that wait, in request order, without those whose work is gone. -/
def State.rampsDue (s : State) : List Nat := s.pwr.ramps.filter fun n => s.engineHolds n .matrix

/-- RAMP_START: the first waiting ramp starts while fewer than `PWR_RAMP_MAX` run (R477, R479). -/
def State.rampStart (s : State) (n : Nat) : State :=
  let s0 := s.onPwr fun p => { p with ramps := s.rampsDue }
  if !s0.powered || !s0.awake n || s0.pwr.ramps.head? != some n || decide (s0.reg Reg.PWR_RAMP_MAX ≤ s0.pwr.ramping.length)
  then s0
  else
    let r := s0.mayRelease (.ramp n)
    if r.1 then r.2.onPwr fun p => { p with ramps := p.ramps.drop 1, ramping := p.ramping ++ [n] } else r.2

/-- RAMP_COMPLETE: the array is ungated, and the waiting MATMUL starts (R477). -/
def State.rampComplete (s : State) (n : Nat) : State :=
  if !s.pwr.ramping.contains n then s
  else ((s.onPwr fun p => { p with ramping := p.ramping.filter (· != n) }).onCore n fun x => { x with gated := false }).matmul n

/-! ### PMI -/

/-- PMI_REQUEST: the first waiting request, in the order FORECAST, FLOOR, VID, is presented (R479). -/
def State.pmiRequest (s : State) : State :=
  if s.pmi.req.isSome ∨ s.blk = .off ∨ s.blk = .reset then s
  else
    match [PmiKind.forecast, .floor, .vid].findSome? fun k => s.pmi.waiting.find? fun w => w.1 == k with
    | none => s
    | some w =>
      let s1 := s.onPmi fun x => { x with req := some w, waiting := x.waiting.filter fun v => v.1 != w.1 }
      if w.1 = .forecast then s1.onPwr fun p => { p with forecast := w.2 } else s1

/-- A request that is over; the release that a FORECAST held proceeds (R479). -/
def State.endPmi (s : State) (k : PmiKind) : State :=
  let s1 := s.onPmi fun x => { x with req := none }
  if k ≠ .forecast then s1
  else
    let s2 := s1.onPwr fun p => { p with cleared := p.held, held := none }
    match s.pwr.held with
    | none => s2
    | some (.wake n) => s2.wakeRelease n
    | some (.ramp n) => s2.rampStart n

/-- PMI_REQ_ACK (R48, R479). -/
def State.pmiAck (s : State) : State :=
  match s.pmi.req with
  | none => s
  | some w => s.endPmi w.1

/-- PMI_NOACK_TIMEOUT: the request is withdrawn, and PMI_NOACK is recorded (R48). -/
def State.pmiNoack (s : State) : State :=
  match s.pmi.req with
  | none => s
  | some w => (s.raise .pmiNoack .none 0xFF w.1.code).endPmi w.1

/-- PMI_PGOOD_FALL: unless Off or in Reset, PMI_PGOOD_LOST is raised, and every core falls to level 1 (R48). -/
def State.pgoodFall (s : State) : State :=
  if !s.pmi.pgood then s
  else
    let s1 := s.onPmi fun x => { x with pgood := false }
    if s.blk = .off ∨ s.blk = .reset then s1 else (s1.raise .pmiPgoodLost .none 0xFF 0).throttleAll

/-- PMI_VR_ALERT_FALL (R473). -/
def State.vrAlertFall (s : State) : State :=
  if s.blk = .off ∨ s.blk = .reset then s.onPmi fun x => { x with alert := true }
  else (s.onPmi fun x => { x with alert := true, alertActive := true }).raise .pwrVrAlert .none 0xFF 0

/-- VR_ALERT_END: the input has been high for 100 µs (R473). -/
def State.vrAlertEnd (s : State) : State := s.onPmi fun x => { x with alert := false, alertActive := false }

/-- FLOOR_TIMER: *P* has stayed below the last FORECAST by more than 2 × `PWR_FORECAST_STEP` (R479). -/
def State.floorTimer (s : State) : State :=
  let p := quarterWatts s.pwr.est
  if p + 8 * s.reg Reg.PWR_FORECAST_STEP < s.pwr.forecast then s.queuePmi .floor p else s

/-- `PWR_VID`: a VID request (R479). -/
def State.vidAct (s : State) (v : Nat) : Status × State := (.ok, s.queuePmi .vid v)

end Sys2Proof.Machine
end

