-- ==== Sys2Proof/Machine/Observe.lean ====
section
/-! DEFINITION. The ledger's and the capture windows' settings (R366 to R371, R382), counters, histograms, tracing,
program-counter samples, breakpoints and halting (ch. 16). -/
namespace Sys2Proof.Machine
open Sys2Proof Sys2Proof.Bits

/-! ### The ledger and capture windows -/

/-- The ring of a context: first local offset and end (R366). -/
def State.ledgerRange (s : State) (c : Nat) : Nat × Nat :=
  (s.regAt Reg.LDG_BASE c, s.regAt Reg.LDG_BASE c + 2 ^ s.regAt Reg.LDG_SIZE_LOG2 c)

/-- Whether a context's ring meets the rules of R367. -/
def State.ledgerOk (s : State) (c : Nat) : Bool :=
  let size := s.regAt Reg.LDG_SIZE_LOG2 c
  let r := s.ledgerRange c
  decide (12 ≤ size ∧ size ≤ 32 ∧ r.1 % 4096 = 0 ∧ r.2 ≤ 2 ^ 40) &&
    (List.range 64).all fun y => y == c || s.regAt Reg.LDG_STATE y == 0 || !rangesMeet r (s.ledgerRange y)

/-- TRUE written to `LDG_ENABLE` (R367). -/
def State.ledgerOnAct (s : State) (c : Nat) : Status × State :=
  if !s.ledgerOk c then (.outOfRange, s)
  else
    let s1 := ((s.setRegAt Reg.LDG_PRODUCER c 0).setRegAt Reg.LDG_CONSUMER c 0).setRegAt Reg.LDG_DROPPED c 0
    (.ok, ((s1.setRegAt Reg.LDG_ENABLE c 1).setRegAt Reg.LDG_STATE c 1).onCtx c fun x => { x with ledgerGap := false })

/-- FALSE written to `LDG_ENABLE` (R370). -/
def State.ledgerOffAct (s : State) (c : Nat) : Status × State :=
  let s1 := s.setRegAt Reg.LDG_ENABLE c 0
  (.ok, if s.regAt Reg.LDG_STATE c = 1 then s1.setRegAt Reg.LDG_STATE c 2 else s1)

/-- LDG_DRAIN_COMPLETE: every allocated record is performed (R370). -/
def State.ledgerDrained (s : State) (c : Nat) : State :=
  if s.regAt Reg.LDG_STATE c = 2 then s.setRegAt Reg.LDG_STATE c 0 else s

/-- A write of `LDG_CONSUMER`: without effect in Overwrite mode; in Stop mode from producer − capacity to producer
(R369). -/
def State.consumerAct (s : State) (c v : Nat) : Status × State :=
  let p := s.regAt Reg.LDG_PRODUCER c
  if s.regAt Reg.LDG_MODE c = 0 then (.ok, s)
  else if v + 2 ^ (s.regAt Reg.LDG_SIZE_LOG2 c - 5) < p ∨ p < v then (.outOfRange, s)
  else (.ok, s.setRegAt Reg.LDG_CONSUMER c v)

/-- TRUE written to `CAP_ARM` of window `w` of context `c` (R382). -/
def State.armAct (s : State) (c w : Nat) : Status × State :=
  let u := 4 * c + w
  let base := s.regAt Reg.CAP_BASE u
  let size := s.regAt Reg.CAP_SIZE u
  if base % 4096 ≠ 0 ∨ size % 4096 ≠ 0 ∨ size < 2 ^ 16 ∨ 2 ^ 36 < size ∨ 2 ^ 40 < base + size ∨
      s.regAt Reg.CAP_STEP_LAST u < s.regAt Reg.CAP_STEP_FIRST u then (.outOfRange, s)
  else
    let s1 := ((s.setRegAt Reg.CAP_USED u 0).setRegAt Reg.CAP_RECORDS u 0).setRegAt Reg.CAP_MISSED u 0
    (.ok, (s1.setRegAt Reg.CAP_ARM u 1).onCtx c fun x => { x with capMissed := setDel w x.capMissed })

/-! ### Counters and histograms -/

/-- `OBS_CLEAR`: the counters of 0x7010 and every histogram bin are zero (R510). -/
def State.obsClearAct (s : State) : Status × State :=
  let cleared (k : Nat) : Bool := k / 256 == 0x7010 || decide (0x7400 ≤ k / 256 ∧ k / 256 ≤ 0x7406)
  (.ok, { s with dict := s.dict.filter fun e => !cleared e.1 })

/-- One unit of a histogram counted: its occupancy and capacity (R511). -/
def State.histOne (s : State) (h cap occ : Nat) : State :=
  let key := unitKey (Reg.OBS_HIST_BIN0 + 16 * occ / (cap + 1)) h
  s.setReg key (min (s.reg key + 1) 0xFFFFFFFF)

/-- Every unit of one kind counted. -/
def State.histKind (s : State) (h cap : Nat) (occ : List Nat) : State := occ.foldl (fun t o => t.histOne h cap (min o cap)) s

/-- HISTOGRAM_SAMPLE (R511). -/
def State.histogramSample (s : State) : State :=
  if s.blk = .off ∨ s.blk = .reset then s
  else
    let links := (List.range s.build.links).filter fun n => (s.link n).active
    let cores := List.range s.build.cores
    let s0 := s.histKind 0 512 (links.map s.txUnits)
    let s1 := s0.histKind 1 1536 (links.map fun n => (s.link n).occupancy)
    let s2 := s1.histKind 2 8192 ((List.range 8).map fun p => (s.rmt.txns.filter fun t => t.tag / 8192 == p).length)
    let s3 := s2.histKind 3 65536 [65536 - s.slotsFree]
    let s4 := s3.histKind 4 1024 ((List.range 8).map fun p => s.storeUsed p / 1024)
    let s5 := s4.histKind 5 16 (cores.flatMap fun n => [(s.core n).mq.length, (s.core n).vq.length, (s.core n).dq.length])
    s5.histKind 6 256 [s.flt.queue.length]

/-! ### The trace region -/

/-- TRUE written to `TRC_ENABLE` (R512). -/
def State.traceOnAct (s : State) : Status × State :=
  if 2 ^ 40 < s.reg Reg.TRC_BASE + 2 ^ s.reg Reg.TRC_SIZE_LOG2 then (.outOfRange, s)
  else (.ok, ((s.setReg Reg.TRC_ENABLE 1).setReg Reg.TRC_PRODUCER 0).setReg Reg.TRC_LOST 0)

/-- FALSE written to `TRC_ENABLE`: allocation stops (R513). -/
def State.traceOffAct (s : State) : Status × State := (.ok, s.setReg Reg.TRC_ENABLE 0)

/-- The stall state of a core's sample (R515): where nothing that the model holds stalls the core, one of the codes that
timing decides. -/
def State.stallCode (s : State) (n : Nat) : Nat × State :=
  let x := s.core n
  if x.halt ≠ .running then (1, s)
  else if s.engineStalled n .control then (2, s)
  else if x.stall ≠ .none then (x.stall.code, s)
  else
    let f := s.pick [0, 8, 9, 10, 11, 12]
    (f.1.getD 0, f.2)

/-- PC_SAMPLE: a traced core allocates a type 1 record while sampling is on (R515). -/
def State.pcSample (s : State) (n : Nat) : State :=
  if s.reg Reg.TRC_PC_PERIOD_LOG2 = 0 then s
  else
    let k := s.stallCode n
    k.2.traceRecord n 1 k.1 0

/-! ### Breakpoints and halting -/

/-- BREAKPOINT_HIT: the instruction that a core is about to execute is at an armed breakpoint (R517). -/
def State.breakpoint (s : State) (n : Nat) : State :=
  if !s.ccReady n || (s.core n).pass || (s.core n).stall != .none then s
  else
    match s.bkptAt n with
    | some k => s.breakHit n k
    | none => s

/-- `DBG_HALT`: the running task halts at its next instruction boundary; an instruction that waits comes to its end
first (R517). -/
def State.haltAct (s : State) (n : Nat) : Status × State :=
  if (s.core n).run.isNone then (.busy, s)
  else if (s.core n).halt ≠ .running then (.ok, s)
  else if (s.core n).stall ≠ .none then (.ok, s.onCore n fun x => { x with step := true })
  else (.ok, s.haltCore n)

/-- DBG_DRAIN_COMPLETE: the engines of a halted core are idle (R517). -/
def State.drained (s : State) (n : Nat) : State :=
  if (s.core n).halt = .draining && s.enginesIdle n then s.onCore n fun x => { x with halt := .halted } else s

/-- A halted core set going; it and its context are treated as having made progress (R518, R519). -/
def State.goOn (s : State) (n : Nat) (step : Bool) : Status × State :=
  if (s.core n).halt ≠ .halted then (.busy, s)
  else
    let s1 := s.onCore n fun x => { x with halt := .running, step := step, pass := true }
    (.ok, (s1.engineProgress n .control).progressed (contextKey (s.ctxOfCore n)))

/-- `DBG_STEP` (R518). -/
def State.stepAct (s : State) (n : Nat) : Status × State := s.goOn n true

/-- `DBG_RESUME` (R518). -/
def State.resumeAct (s : State) (n : Nat) : Status × State := s.goOn n false

end Sys2Proof.Machine
end

