-- ==== Sys2Proof/Machine/Dictionary.lean ====
section
/-! DEFINITION. The object dictionary: which entries exist and are served, what a read returns, what a write is checked
for and does, sessions, and the block states (R484 to R489, R492, R499 to R501, R506, R507). -/
namespace Sys2Proof.Machine
open Sys2Proof Sys2Proof.Bits

/-! ### Which entry a request names -/

/-- The entries that the build has at an index, by position of their rows. -/
def State.indexEntries (s : State) (idx : Nat) : List (Entry × Nat) :=
  entries.filterMap fun e =>
    let n := idx - e.key / 256
    if e.key / 256 ≤ idx && decide (n < s.spanCount e.span) && !(e.span == .source && (Source.ofCode? n).isNone) then
      some (e, n)
    else none

/-- Subindex 0x00 of an index that exists: a U8, RO, at Tenant privilege, that holds the highest subindex (R484). -/
def State.countEntry (s : State) (idx : Nat) : Option (Entry × Nat) :=
  if (0x4200 ≤ idx ∧ idx ≤ 0x421F) ∨ (0x4400 ≤ idx ∧ idx ≤ 0x45FF) then
    some (⟨256 * idx, .one, .u8, .ro, .tenant, 128, .any⟩, 0)
  else
    match s.indexEntries idx with
    | [] => none
    | (e, n) :: rest =>
      some (⟨256 * (idx - n), e.span, .u8, .ro, .tenant, ((e, n) :: rest).foldl (fun m x => max m (x.1.key % 256)) 0, .any⟩, n)

/-- The entry that a key names, subindex 0x00 included. -/
def State.entryAt (s : State) (key : Nat) : Option (Entry × Nat) :=
  if key % 256 = 0 then s.countEntry (key / 256) else s.entry? key

/-- The context of a per-context entry; a context has four capture windows. -/
def ownerCtx (e : Entry) (n : Nat) : Option Nat :=
  match e.span with
  | .ctx => some n
  | .window => some (n / 4)
  | _ => none

/-- Whether kickstand mode serves an index (R462). -/
def State.kickServes (s : State) (idx : Nat) : Bool :=
  [0x1000, 0x1010, 0x1020, 0x2000, 0x2100, 0x3000, 0x4700, 0x4701, 0x6000, 0x6010, 0x8000, 0x8001, 0xA000].contains idx ||
    decide ((0x2110 ≤ idx ∧ idx ≤ 0x211F) ∨ (0x6100 ≤ idx ∧ idx ≤ 0x6164) ∨ (0x6200 ≤ idx ∧ idx ≤ 0x623F) ∨
      (0x6300 ≤ idx ∧ idx ≤ 0x633F) ∨ (0x7000 ≤ idx ∧ idx ≤ 0x7FFF) ∨ (0x8100 ≤ idx ∧ idx ≤ 0x813F)) ||
    (match s.flt.kept with | some k => idx == 0x3100 + k | none => false)

/-- Whether a carrier exists and the block is in a state that serves requests. -/
def State.serves (s : State) (c : Carrier) : Bool :=
  s.blk != .off && s.blk != .reset && (match c with | .mii => s.build.mii | .i3c => s.build.i3c | .inBand => true)

/-- Checks 2 to 6 of R492: claim, existence, state, privilege and context, access class. -/
def State.admitReq (s : State) (c : Carrier) (claim ctx key : Nat) (write : Bool) : Except Status (Entry × Nat) :=
  if (s.ont.session c).level.toNat < claim then .error .privilege
  else
    match s.entryAt key with
    | none => .error .noSuchEntry
    | some (e, n) =>
      if s.blk = .kickstand && !s.kickServes (key / 256) then .error .busy
      else if claim < e.priv.toNat || (claim == 0 && (ownerCtx e n).any (· != ctx)) then .error .privilege
      else
        let allowed := match e.access with
          | .ro => !write | .rw => true | .rwc => true | .wo => write | .cmd => write
        if allowed then .ok (e, n) else .error .access

/-! ### Reading -/

/-- Whether a Severe or Grave fault is uncleared: the fault rule of R57. A Grave source is uncleared as a Severe one is
(R427), and stays so while the Grave latch is set (R437). -/
def State.faultHeld (s : State) : Bool :=
  s.flt.grave || Source.all.any fun x =>
    s.regAt Reg.SRC_UNCLEARED x.code == 1 && (s.srcClass x == .severe || s.srcClass x == .grave)

/-- `FLT_SUMMARY` (R464), which `HCP_FAULT` mirrors (R38). -/
def State.summary (s : State) : Nat :=
  let rung := if s.flt.pcycReq then 5 else if s.rst.rung4 then 4
    else if s.flt.unitResets.any (fun u => match u.unit with | .partition _ => true | _ => false) then 3
    else if !s.flt.unitResets.isEmpty then 2 else if !s.flt.ctxResets.isEmpty then 1 else 0
  ofBool s.faultHeld + 2 * ofBool s.flt.grave + 4 * ofBool (s.blk == .kickstand) + 8 * ofBool s.flt.pcycReq +
    16 * ofBool (s.blk == .quarantine) + 256 * rung

/-- A core's `DBG_STATE` (R520). -/
def Halt.code : Halt → Nat
  | .running => 0 | .draining => 1 | .halted => 2

/-- The value of a numeric entry that is computed when it is read; none for a stored one. -/
def State.derived (s : State) (c : Carrier) (k n : Nat) : Option Nat :=
  if k = Reg.LINK_STATE then some (s.link n).code
  else if k = Reg.LINK_VERSION then some (s.link n).version
  else if k = Reg.LINK_CAPS then some (s.link n).caps
  else if k = Reg.LINK_LANE_MAP then some (s.link n).laneMap
  else if k = Reg.LINK_TRAIN_STAGE then some (s.link n).stage.code
  else if k = Reg.LPORT_CAPS then some (s.lportCaps n)
  else if k = Reg.LPORT_ACTIVE then some (maskOf (s.activeMembers n))
  else if k = Reg.RMT_TRACKER_USED then some s.rmt.txns.length
  else if k = Reg.RMT_CACHE_USED then some s.rmt.cache.length
  else if k = Reg.RMT_POOL_FREE then some s.slotsFree
  else if k = Reg.COLL_RUNNING then some (s.ctx n).colls.length
  else if k = Reg.ATT_BUSY_SLOTS then some (s.ctx n).slots.length
  else if k = Reg.HIER_CADENCE_VALID then some (ofBool s.cad.valid)
  else if k = Reg.HIER_CADENCE_NOW then some s.stamp
  else if k = Reg.HIER_CADENCE_RATE then some (unsign 16 s.cad.rate)
  else if k = Reg.FLT_SUMMARY then some s.summary
  else if k = Reg.FLT_EVT_COUNT then some s.flt.queue.length
  else if k = Reg.PWR_THROTTLED then some (maskOf ((List.range s.build.cores).filter fun m => decide (s.level m < s.regAt Reg.PWR_CORE_CAP m)))
  else if k = Reg.PWR_WAKE_QUEUED then some s.pwr.wakes.length
  else if k = Reg.PWR_ALERT_ACTIVE then some (ofBool s.pmi.alertActive)
  else if k = Reg.BLK_STATE then some s.blk.code
  else if k = Reg.SEC_IMAGE_REVOKED then some s.revoked
  else if k = Reg.SEC_SESSION then some (s.ont.session c).level.toNat
  else if k = Reg.DBG_STATE then some (s.core n).halt.code
  else if k = Reg.DBG_PC then some (s.core n).pc
  else none

/-- The 32 bytes of a slot that may hold a record. -/
def slotBytes (r : Option EventRec) : List Byte := match r with | some x => x.bytes | none => zeros 32

/-- The value of an entry of type BYTES. -/
def State.readBytes (s : State) (k n : Nat) : List Byte :=
  if k = Reg.FLT_STICKY then slotBytes s.flt.stickyFirst ++ slotBytes s.flt.stickyGrave
  else if k = Reg.FLT_EVT_HEAD then slotBytes s.flt.queue.head?
  else if k = Reg.SEC_IMAGE_KEY0 then beBytes 48 (s.build.imageKeys.getD 0 0)
  else if k = Reg.SEC_IMAGE_KEY1 then beBytes 48 (s.build.imageKeys.getD 1 0)
  else if k = Reg.SEC_IMAGE_KEY2 then beBytes 48 (s.build.imageKeys.getD 2 0)
  else if k = Reg.SEC_IMAGE_KEY3 then beBytes 48 (s.build.imageKeys.getD 3 0)
  else if k = Reg.SEC_SERVICE_KEY0 then beBytes 48 (s.build.serviceKeys.getD 0 0)
  else if k = Reg.SEC_SERVICE_KEY1 then beBytes 48 (s.build.serviceKeys.getD 1 0)
  else if k = Reg.DBG_REGS then (List.range 32).flatMap fun r => leBytes 8 (s.x n r).toNat
  else []

/-- A read of `SEC_CHALLENGE`: 16 new bytes, and the carrier's earlier challenge is void (R489). -/
def State.newChallenge (s : State) (c : Carrier) : List Byte × State :=
  let f := s.drawBytes 16
  (f.1, f.2.onOnt fun o => o.withSession c { o.session c with challenge := some f.1 })

/-- What a read of an admitted entry answers (R486, R518). -/
def State.readEntry (s : State) (c : Carrier) (e : Entry) (n : Nat) : (Status × List Byte) × State :=
  let k := e.key
  if (k = Reg.DBG_PC ∨ k = Reg.DBG_REGS) ∧ (s.core n).halt ≠ .halted then ((.busy, []), s)
  else if k = Reg.SEC_CHALLENGE then
    let r := s.newChallenge c
    ((.ok, r.1), r.2)
  else
    match e.ty with
    | .bytes _ => ((.ok, s.readBytes k n), s)
    | t =>
      let v := if k % 256 = 0 then e.dflt else (s.derived c k n).getD (s.regAt k n)
      ((.ok, leBytes t.size v), s)

/-! ### What a write is checked for -/

/-- The floor of `RMT_CACHE_HOLD`, with one setting's new value in place (R168). -/
def State.holdFloor (s : State) (k v : Nat) : Nat :=
  let g (key : Nat) : Nat := if key = k then v else s.reg key
  g Reg.RMT_TAG_QUARANTINE + g Reg.RMT_PARK_LIMIT + (1 + g Reg.RMT_RETRY_LIMIT) * g Reg.RMT_REQ_TIMEOUT +
    g Reg.RMT_BUSY_LIMIT * g Reg.RMT_BACKOFF_MAX + 10000000

/-- Whether a value passes the check of the entry's row. -/
def Check.holds (v : Nat) : Check → Bool
  | .any => true
  | .range lo hi => decide (lo ≤ v ∧ v ≤ hi)
  | .zeroOr lo hi => v == 0 || decide (lo ≤ v ∧ v ≤ hi)
  | .off a => v % a == 0 && decide (v < 2 ^ 40)
  | .ctxOff a => v % a == 0 && decide (v < 2 ^ 48)
  | .special => true

/-- The actions that a source's events allow (R436). -/
def Source.actions (x : Source) : List Nat :=
  match x.unitKind with
  | .context => [0, 1, 4, 5, 6]
  | .engine => [0, 2, 3, 4, 5, 6]
  | .core | .link | .port | .partition => [0, 3, 4, 5]
  | .none | .clock | .rung => [0, 4, 5]

/-- The settings that the floor of R168 names. -/
def floorKeys : List Nat :=
  [Reg.RMT_TAG_QUARANTINE, Reg.RMT_PARK_LIMIT, Reg.RMT_RETRY_LIMIT, Reg.RMT_REQ_TIMEOUT, Reg.RMT_BUSY_LIMIT,
   Reg.RMT_BACKOFF_MAX]

/-- The rules that an entry of its own sets on a value, beside the check of its row. -/
def State.ownRange (s : State) (k n v : Nat) : Bool :=
  if k = Reg.ROUTE_OWN_CHIP then v != 0xFFFF
  else if k = Reg.CTX_JOB_ID then decide (v < 2 ^ 12)
  else if k = Reg.LINK_XOFF_LEVEL then v % 256 == 0
  else if k = Reg.INJ_SOFT_LEVEL then decide (16 ≤ v ∧ v ≤ 447)
  else if k = Reg.INJ_HARD_LEVEL then decide (s.reg Reg.INJ_SOFT_LEVEL < v ∧ v ≤ 448)
  else if k = Reg.RMT_CACHE_HOLD then decide (10000000 ≤ v ∧ v ≤ 10000000000 ∧ s.holdFloor 0 0 ≤ v)
  else if floorKeys.contains k then
    decide (s.holdFloor k v ≤ s.holdFloor 0 0) || decide (s.holdFloor k v ≤ s.reg Reg.RMT_CACHE_HOLD)
  else if k = Reg.JOB_TAKEOVER_TIMEOUT then decide (s.reg Reg.LINK_FREEWHEEL + s.reg Reg.LINK_PAUSE_TIMEOUT < v)
  else if k = Reg.FLT_KICK_LINK then decide (v < s.build.links)
  else if k = Reg.SRC_ACTION then (Source.ofCode? n).any fun x => x.actions.contains v
  else if k = Reg.PWR_BUDGET ∨ k = Reg.PWR_ALERT_BUDGET then decide (100 ≤ v ∧ v ≤ s.reg Reg.PWR_BUDGET_LIMIT)
  else if k = Reg.ONT_EVENT_CARRIER then
    (match v with | 0 => true | 1 => s.build.mii | 2 => s.build.i3c | 3 => true | _ => false)
  else if k = Reg.GMP_PORT_ENABLE then decide (v < 2 ^ s.build.ports)
  else if k = Reg.MGP_MAC then !bit v 40
  else if Reg.DBG_BKPT0 ≤ k ∧ k ≤ Reg.DBG_BKPT3 then v % 4 == 0
  else if k = Reg.SEC_REVOKE then decide (v < 4) && s.build.imageKeys.getD v 0 != 0
  else true

/-- Check 9 of R492: the value lies in its range. -/
def State.rangeOk (s : State) (e : Entry) (n v : Nat) : Bool := e.chk.holds v && s.ownRange e.key n v

/-- A value as it is stored: its reserved bits, and bits that must be zero, are ignored (R18). -/
def stored (k v : Nat) : Nat :=
  if k = Reg.MGP_MAC then v % 2 ^ 48
  else if k = Reg.IMG_PUSH_DEST then v % 2 ^ 22
  else if k = Reg.CTX_SPAD ∨ k = Reg.ATT_SPAD then v % 2 ^ 11
  else if Reg.DBG_BKPT0 ≤ k ∧ k ≤ Reg.DBG_BKPT3 then clearBit v 30
  else if 0x4200 ≤ k / 256 ∧ k / 256 ≤ 0x421F then v &&& 0x3F3FFF
  else v

/-- Whether a bound context holds a job (R135). -/
def State.jobBound (s : State) (job : Nat) : Bool :=
  (List.range 64).any fun c => s.regAt Reg.CTX_ROUTE_STATE c == 1 && s.jobOf c == job

/-- Whether a fault of a context is unanswered (R200). -/
def State.faultOpen (s : State) (c : Nat) : Bool := s.xlt.faults.any fun f => f.live && f.ctx == c

/-- Whether the image home of a context is in use (R297). -/
def State.homeBusy (s : State) (c : Nat) (a : Bool) : Bool :=
  let x := s.ctx c
  x.image.any (·.homeA == a) || x.old.any (·.homeA == a) || x.loading.any (·.1.homeA == a)

/-- Check 10 of R492, for entries whose busy condition is a state of another entry. -/
def State.entryBusy (s : State) (e : Entry) (n v : Nat) : Bool :=
  let k := e.key
  let idx := k / 256
  let sub := k % 256
  if idx = 0x4100 ∧ sub ≤ 5 then s.regAt Reg.CTX_ROUTE_STATE n == 1
  else if 0x4200 ≤ idx ∧ idx ≤ 0x421F then s.jobBound (fld (s.reg k) 11 0) || s.jobBound (fld v 11 0)
  else if 0x4400 ≤ idx ∧ idx ≤ 0x45FF then Table.get s.pkt.refs 0 ((idx - 0x4400) * 128 + sub - 1) != 0
  else if k = Reg.XLT_PT_ROOT then s.faultOpen n
  else if idx = 0x5100 ∧ e.access = .rw ∧ k ≠ Reg.CTX_CORES then s.regAt Reg.CTX_STATE n != 0
  else if k = Reg.CTX_IMAGE_HOME_A then s.homeBusy n true
  else if k = Reg.CTX_IMAGE_HOME_B then s.homeBusy n false
  else if k = Reg.IMG_PUSH_SRC ∨ k = Reg.IMG_PUSH_LEN ∨ k = Reg.IMG_PUSH_DEST then s.reg Reg.IMG_PUSH_STATE == 1
  else if idx = 0x5A00 ∧ k ≠ Reg.ATT_ENABLE then s.attLocked n
  else if k = Reg.LDG_BASE ∨ k = Reg.LDG_SIZE_LOG2 ∨ k = Reg.LDG_MODE then s.regAt Reg.LDG_STATE n != 0
  else if idx = 0x9200 ∧ k ≠ Reg.CAP_ARM then s.regAt Reg.CAP_ARM n == 1
  else if idx = 0x4800 ∧ (sub = 1 ∨ (3 ≤ sub ∧ sub ≤ 7) ∨ sub = 0x0D ∨ sub = 0x10) then s.isOpen n
  else if k = Reg.TRC_BASE ∨ k = Reg.TRC_SIZE_LOG2 then s.reg Reg.TRC_ENABLE != 0
  else false

/-! ### What a write does -/

/-- `XLT_PT_ROOT` written (R200). -/
def State.ptRootAct (s : State) (c v : Nat) : Status × State :=
  (.ok, (s.setRegAt Reg.XLT_PT_ROOT c v).invalidate (some c) 0 (2 ^ 48))

/-- `LINK_ENABLE` set TRUE: a disabled link trains (R85). -/
def State.enableAct (s : State) (n : Nat) : Status × State :=
  if s.regAt Reg.LINK_ENABLE n = 1 then (.ok, s) else (.ok, (s.setRegAt Reg.LINK_ENABLE n 1).retrain n)

/-- `LINK_ENABLE` set FALSE (R85, R95). -/
def State.disableAct (s : State) (n : Nat) : Status × State := (.ok, (s.setRegAt Reg.LINK_ENABLE n 0).disableLink n)

/-- `GMP_PORT_ENABLE` written: each built port follows its bit (R506). -/
def State.portsAct (s : State) (v : Nat) : Status × State :=
  (.ok, (List.range s.build.ports).foldl (fun t k => if v.testBit k then t.portOn k else t.portOff k) s)

/-- `PWR_CORE_CAP` written: a cap below the present level lowers the level at once (R472). -/
def State.capAct (s : State) (n v : Nat) : Status × State :=
  let s1 := s.setRegAt Reg.PWR_CORE_CAP n v
  (.ok, if v < s.level n then s1.setLevel n v else s1)

/-- `SEC_LOCK` (R507). -/
def State.lockAct (s : State) (c : Carrier) : Status × State :=
  (.ok, s.onOnt fun o => o.withSession c { o.session c with level := .operator })

/-- `SEC_REVOKE` (R507). -/
def State.revokeAct (s : State) (slot : Nat) : Status × State :=
  let live := (List.range 4).filter fun k => s.build.imageKeys.getD k 0 != 0 && !s.revoked.testBit k
  if live = [slot] then (.busy, s) else (.ok, { s with revoked := setBit s.revoked slot })

/-- Whether a response answers a carrier's challenge: the key is a fused service key, and the signature verifies over
challenge, carrier code and chip number (R489). -/
def State.unlockOk (s : State) (c : Carrier) (r : List Byte) : Bool :=
  match (s.ont.session c).challenge with
  | none => false
  | some ch =>
    let key := r.take 96
    let hash := beNat (Crypto.sha384 key)
    s.build.serviceKeys.any (fun k => k != 0 && k == hash) &&
      Crypto.verify key (r.drop 96) (ch ++ leBytes 1 c.code ++ leBytes 2 s.ownChip)

/-- A failed verification: the challenge is void, and the eighth in a row starts the lockout (R489). -/
def Session.failed (x : Session) : Session :=
  if x.fails + 1 < 8 then { x with challenge := none, fails := x.fails + 1 }
  else { x with challenge := none, fails := 0, lockout := true }

/-- `SEC_UNLOCK` (R489). -/
def State.unlockAct (s : State) (c : Carrier) (r : List Byte) : Status × State :=
  let x := s.ont.session c
  if x.lockout then (.busy, s)
  else if s.unlockOk c r then (.ok, s.onOnt fun o => o.withSession c { x with level := .service, fails := 0 })
  else (.outOfRange, (s.bump Reg.SEC_UNLOCK_FAILS).onOnt fun o => o.withSession c x.failed)

/-- UNLOCK_LOCKOUT_EXPIRE (R489). -/
def State.lockoutOver (s : State) (c : Carrier) : State :=
  s.onOnt fun o => o.withSession c { o.session c with lockout := false }

/-! ### Block states -/

/-- A move of the block from one state to another (R500). -/
def State.blkMove (s : State) (from_ : List BlkState) (busy : Bool) (next : BlkState) : Status × State :=
  if !from_.contains s.blk || busy then (.busy, s) else (.ok, ({ s with blk := next }).onFlt fun f => { f with drainLate := false })

/-- `BLK_READY` (R500). -/
def State.readyAct (s : State) : Status × State := s.blkMove [.configure] (s.ownChip == 0xFFFF) .ready

/-- `BLK_RUN` (R500). -/
def State.runAct (s : State) : Status × State := s.blkMove [.ready] false .run

/-- `BLK_DRAIN` (R500). -/
def State.drainAct (s : State) : Status × State := s.blkMove [.run] false .drain

/-- `BLK_CONFIGURE`: refused while a context is Open or Halted (R500). -/
def State.configureAct (s : State) : Status × State :=
  s.blkMove [.ready, .quarantine]
    ((List.range 64).any fun c => s.regAt Reg.CTX_STATE c == 1 || s.regAt Reg.CTX_STATE c == 2) .configure

/-- `BLK_QUARANTINE_EXIT`: refused while a rung is in progress or LADDER_STOPPED is uncleared (R500). -/
def State.quarantineAct (s : State) : Status × State :=
  s.blkMove [.quarantine] (!s.flt.ctxResets.isEmpty || !s.flt.unitResets.isEmpty || s.rst.rung4 ||
    s.regAt Reg.SRC_UNCLEARED Source.ladderStopped.code != 0) .ready

/-- Whether a context holds work that keeps the block in Drain (R500). -/
def State.drainWork (s : State) (c : Nat) : Bool :=
  !(s.ctx c).tasks.isEmpty || !(s.ctx c).colls.isEmpty ||
    (s.ctx c).slots.any fun a => a.phase == .queued || a.phase == .running

/-- DRAIN_COMPLETE: no context holds such work; after the drain's limit, every reset has ended too (R500). -/
def State.drainComplete (s : State) : State :=
  if s.blk ≠ .drain || (List.range 64).any s.drainWork ||
      (s.flt.drainLate && !(s.flt.ctxResets.isEmpty && s.flt.unitResets.isEmpty)) then s
  else ({ s with blk := .ready }).onFlt fun f => { f with drainLate := false }

/-- BLK_DRAIN_TIMEOUT: each context that still holds work is reset (R500). -/
def State.drainTimeout (s : State) : State :=
  if s.blk ≠ .drain then s
  else
    let due := (List.range 64).filter fun c => s.drainWork c && s.regAt Reg.CTX_STATE c != 3
    ((due.foldl (fun t c => t.startCtxReset c 1 0) s).onFlt fun f => { f with drainLate := true }).drainComplete

/-! ### Writes by entry -/

/-- What a write of a 0x6000, 0x6010, 0x6100 or 0x6200 command does, and the block's state commands. -/
def State.faultWrite (s : State) (k n : Nat) : Option (Status × State) :=
  if k = Reg.FLT_STICKY_CLEAR then some (.ok, s.onFlt fun f => { f with stickyFirst := none })
  else if k = Reg.FLT_CLEAR_ALL then some s.clearAllAct
  else if k = Reg.FLT_BLOCK_RESET then some s.blockResetAct
  else if k = Reg.FLT_KICKSTAND then some (.ok, s.enterKickstand)
  else if k = Reg.FLT_KICK_EXIT then some s.kickExitAct
  else if k = Reg.FLT_PCYC_REQUEST then some (.ok, s.powerCycle 0)
  else if k = Reg.FLT_EVT_POP then some (.ok, s.onFlt fun f => { f with queue := f.queue.drop 1 })
  else if k = Reg.SRC_CLEAR then some (s.srcClearAct n)
  else if k = Reg.RST_CTX then some (s.rstCtxAct n)
  else if k = Reg.BLK_READY then some s.readyAct
  else if k = Reg.BLK_RUN then some s.runAct
  else if k = Reg.BLK_DRAIN then some s.drainAct
  else if k = Reg.BLK_CONFIGURE then some s.configureAct
  else if k = Reg.BLK_QUARANTINE_EXIT then some s.quarantineAct
  else none

/-- What a write of a context's, link's or route's entry of its own behaviour does. -/
def State.ctxWrite (s : State) (k n v : Nat) (bs : List Byte) : Option (Status × State) :=
  if k = Reg.LINK_ENABLE then some (if v = 1 then s.enableAct n else s.disableAct n)
  else if k = Reg.LINK_RETRAIN then some (.ok, s.retrain n)
  else if k = Reg.ROUTE_LOAD then some s.routeLoadAct
  else if k = Reg.ROUTE_DRAIN_UPDATE then some (s.routeDrainAct (le 0 2 bs) (le 2 8 bs))
  else if k = Reg.CTX_ROUTE_BIND then some (s.bindAct n)
  else if k = Reg.LPORT_LINKS then some (s.lportAct n v)
  else if k = Reg.XLT_PT_ROOT then some (s.ptRootAct n v)
  else if k = Reg.MEM_ZERO_GO then some (s.memZeroGoAct n)
  else if k = Reg.CTX_OPEN then some (s.ctxOpenAct n)
  else if k = Reg.CTX_CLOSE then some (s.ctxCloseAct n)
  else if k = Reg.CTX_RESUME then some (s.ctxResumeAct n)
  else if k = Reg.CTX_CORES then some (s.ctxCoresAct n v)
  else if k = Reg.CTX_IMAGE_LOAD then some (s.imageLoadAct n)
  else if k = Reg.IMG_PUSH_GO then some s.pushAct
  else if k = Reg.ATT_ENABLE then some (if v = 1 then s.attEnableAct n else s.attDisableAct n)
  else if k = Reg.LDG_ENABLE then some (if v = 1 then s.ledgerOnAct n else s.ledgerOffAct n)
  else if k = Reg.LDG_CONSUMER then some (s.consumerAct n v)
  else if k = Reg.CAP_ARM ∧ v = 1 then some (s.armAct (n / 4) (n % 4))
  else if k = Reg.JOB_SNAPSHOT then some (s.bcastAct n false v)
  else if k = Reg.JOB_RESET then some (s.bcastAct n true v)
  else none

/-- What a write of a block-wide entry of its own behaviour does. -/
def State.blockWrite (s : State) (c : Carrier) (k n v : Nat) (bs : List Byte) : Option (Status × State) :=
  if k = Reg.GMP_PORT_ENABLE then some (s.portsAct v)
  else if k = Reg.HIER_CADENCE_SET then some (s.cadenceSetAct v)
  else if k = Reg.PWR_CORE_CAP then some (s.capAct n v)
  else if k = Reg.PWR_VID then some (s.vidAct v)
  else if k = Reg.SEC_REVOKE then some (s.revokeAct v)
  else if k = Reg.SEC_UNLOCK then some (s.unlockAct c bs)
  else if k = Reg.SEC_LOCK then some (s.lockAct c)
  else if k = Reg.OBS_CLEAR then some s.obsClearAct
  else if k = Reg.TRC_ENABLE then some (if v = 1 then s.traceOnAct else s.traceOffAct)
  else if k = Reg.DBG_HALT then some (s.haltAct n)
  else if k = Reg.DBG_RESUME then some (s.resumeAct n)
  else if k = Reg.DBG_STEP then some (s.stepAct n)
  else none

/-- The effect of a write that has passed the checks (R486). -/
def State.writeAct (s : State) (c : Carrier) (k n v : Nat) (bs : List Byte) : Status × State :=
  ((s.faultWrite k n).orElse fun _ => (s.ctxWrite k n v bs).orElse fun _ => s.blockWrite c k n v bs).getD
    (.ok, s.setRegAt k n (stored k v))

/-- Checks 8 to 10 of R492, and the effect. -/
def State.performWrite (s : State) (e : Entry) (n v : Nat) (act : State → Status × State) : Status × State :=
  if e.access = .rwc ∧ s.blk ≠ .configure then (.busy, s)
  else if !s.rangeOk e n v then (.outOfRange, s)
  else if s.entryBusy e n v then (.busy, s)
  else act s

/-! ### Serving a request -/

/-- The status of the last request noted. -/
def State.answered (s : State) (x : Status) : State := s.onOnt fun o => { o with status := x }

/-- A READ by its fields: status, type code of the entry, and value (R492). -/
def State.serveRead (s : State) (c : Carrier) (claim ctx key vtype len : Nat) : (Status × Option Nat × List Byte) × State :=
  match s.admitReq c claim ctx key false with
  | .error x => ((x, (s.entryAt key).map (·.1.ty.code), []), s)
  | .ok (e, n) =>
    if vtype ≠ 0 ∨ len ≠ 0 then ((.type, some e.ty.code, []), s)
    else
      let r := s.readEntry c e n
      ((r.1.1, some e.ty.code, r.1.2), r.2)

/-- A WRITE by its fields (R492). -/
def State.serveWrite (s : State) (c : Carrier) (claim ctx key vtype : Nat) (value : List Byte) : Status × State :=
  match s.admitReq c claim ctx key true with
  | .error x => (x, s)
  | .ok (e, n) =>
    if vtype ≠ e.ty.code ∨ !e.ty.lenOk value.length then (.type, s)
    else
      let v := if e.ty = .cmd ∨ e.ty = .anyBytes then 0 else leNat value
      s.performWrite e n v fun t => t.writeAct c e.key n v value

/-- Whether a value can be carried by an entry's type (R485). -/
def Ty.holds (t : Ty) (v : Nat) : Bool :=
  match t with
  | .cmd => true
  | .anyBytes => true
  | .bytes _ => true
  | t => decide (v < 256 ^ t.size)

/-- A command that reaches the dictionary over a carrier: the checks of R492 for the entry of unit `n`, the effect, and
the status. -/
def State.command (s : State) (via : Via) (key n v : Nat) (act : State → Status × State) : State :=
  if !s.serves via.carrier then s
  else
    match s.admitReq via.carrier via.level via.ctx (unitKey key n) true with
    | .error x => s.answered x
    | .ok (e, m) =>
      if e.ty.holds v then let r := s.performWrite e m v act; r.2.answered r.1 else s.answered .type

end Sys2Proof.Machine
end

