-- ==== Sys2Proof/Machine/Ontan.lean ====
section
/-! DEFINITION. Ontan messages: their check, the answers of a carrier, relays, MII frames, I3C transfers, and in-band
packets (R490 to R498). -/
namespace Sys2Proof.Machine
open Sys2Proof Sys2Proof.Bits

/-- A message taken apart (R490). -/
structure OntMsg where
  ver : Nat
  type : Nat
  level : Nat
  seq : Nat
  target : Nat
  index : Nat
  sub : Nat
  vtype : Nat
  value : List Byte
  deriving DecidableEq, Repr

/-- `ONT_LEN` of a message. -/
def ontLen (m : List Byte) : Nat := le 12 2 m

/-- A message of exactly 16 + `ONT_LEN` bytes whose check holds (R490, R491). -/
def ontParse (m : List Byte) : Option OntMsg :=
  let v := m.drop 16
  if m.length < 16 ∨ 256 < ontLen m ∨ v.length ≠ ontLen m ∨ Crc.crc16 (m.take 14 ++ v) ≠ le 14 2 m then none
  else some { ver := le 0 1 m, type := le 1 1 m, level := le 2 1 m, seq := le 4 2 m, target := le 6 2 m, index := le 8 2 m,
              sub := le 10 1 m, vtype := le 11 1 m, value := v }

/-- The `ONT_VER` of an answer (R491). -/
def OntMsg.answerVer (m : OntMsg) : Nat := if m.ver / 16 = 2 then 0x20 + min (m.ver % 16) 1 else 0x21

/-- The answer to a message: its fields come back, with a status, a type code and a value (R490). -/
def OntMsg.answer (m : OntMsg) (x : Status) (vtype : Nat) (value : List Byte) : List Byte :=
  ontanMessage m.answerVer 3 m.level x.code m.seq m.target m.index m.sub vtype value

/-- The answer where the rules give no `ONT_VTYPE`: the byte is free. -/
def State.plainAnswer (s : State) (m : OntMsg) (x : Status) : List Byte × State :=
  let f := s.drawBytes 1
  (m.answer x (leNat f.1) [], f.2)

/-- A READ or WRITE of major 2 executed (R492). -/
def State.executeMsg (s : State) (c : Carrier) (m : OntMsg) : List Byte × State :=
  let claim := m.level % 4
  let ctx := m.level / 4
  let key := 256 * m.index + m.sub
  if m.type = 1 then
    let r := s.serveRead c claim ctx key m.vtype m.value.length
    let t := r.2.answered r.1.1
    match r.1.2.1 with
    | some ty => (m.answer r.1.1 ty r.1.2.2, t)
    | none => t.plainAnswer m r.1.1
  else
    let r := s.serveWrite c claim ctx key m.vtype m.value
    (r.2.answered r.1).plainAnswer m r.1

/-- A request that this block is to answer: the kept answer of an identical one, or its execution (R491, R493). After a
write that resets the block no answer is kept. -/
def State.answerMsg (s : State) (c : Carrier) (raw : List Byte) (m : OntMsg) : List Byte × State :=
  match (s.ont.session c).kept with
  | some (q, a) => if q = raw then (a, s) else fresh
  | none => fresh
where
  /-- The request is executed, and its answer kept. -/
  fresh : List Byte × State :=
    let r := if m.ver / 16 = 2 then s.executeMsg c m else (s.answered .version).plainAnswer m .version
    if r.2.blk = .reset then r
    else (r.1, r.2.onOnt fun o => o.withSession c { o.session c with kept := some (raw, r.1) })

/-- An answer sent on a carrier to an address or chip. -/
def State.sendAnswer (s : State) (c : Carrier) (dest : Nat) (a : List Byte) : State :=
  let t := s.onOnt fun o => { o with last := some { carrier := c, dest := dest, bytes := a } }
  match c with
  | .mii => t
  | .i3c => t.onOnt fun o => { o with i3cAnswer := some a, last := s.ont.last }
  | .inBand => t.sendPkt none (t.ontanPkt dest a)

/-- A message that names another block: relayed in band, or answered (R497). -/
def State.relay (s : State) (c : Carrier) (dest : Nat) (raw : List Byte) (m : OntMsg) : State :=
  let fail (x : Status) : State := let r := (s.answered x).plainAnswer m x; r.2.sendAnswer c dest r.1
  if !s.flag Reg.ONT_RELAY then fail .noSuchEntry
  else if 64 ≤ s.ont.relays.length then fail .relayFailed
  else
    let r : Relay := { carrier := c, addr := dest, target := m.target, request := raw }
    ((s.onOnt fun o => { o with relays := o.relays ++ [r] }).bump Reg.ONT_RELAYED).sendPkt none (s.ontanPkt m.target raw)

/-- Whether a message names this block (R490). -/
def State.forMe (s : State) (m : OntMsg) : Bool := m.target == 0xFFFF || m.target == s.ownChip

/-- A frame or transfer counted in `ONT_BAD_FRAMES`. -/
def State.badFrame (s : State) : State := s.bump Reg.ONT_BAD_FRAMES

/-- A message from the master on MII or I3C; types other than READ and WRITE are discarded (R490, R497). -/
def State.sideMsg (s : State) (c : Carrier) (dest : Nat) (raw : List Byte) : State :=
  match ontParse raw with
  | none => s.badFrame
  | some m =>
    if m.type ≠ 1 ∧ m.type ≠ 2 then s
    else if s.forMe m then let r := s.answerMsg c raw m; r.2.sendAnswer c dest r.1
    else s.relay c dest raw m

/-! ### Carriers -/

/-- An Ethernet frame on the MII, from its destination address to its FCS (R44, R495). A frame whose FCS fails is
discarded. -/
def State.miiFrame (s : State) (frame : List Byte) : State :=
  let n := frame.length
  let body := frame.take (n - 4)
  let dest := beNat (slice 0 6 frame)
  let payload := slice 14 (n - 18) frame
  let len := 16 + ontLen payload
  let raw := payload.take len
  if !s.serves .mii || decide (n < 18) || Crc.crc32 body != le (n - 4) 4 frame then s
  else if dest ≠ s.reg Reg.MGP_MAC ∧ dest ≠ 2 ^ 48 - 1 then s
  else if beNat (slice 12 2 frame) ≠ 0x88B5 then s.bump Reg.MGP_FOREIGN_FRAMES
  else if payload.length ≠ max 46 len then s.badFrame
  else if dest = 2 ^ 48 - 1 ∧ (ontParse raw).any (fun m => m.type == 2) then s.badFrame
  else s.sideMsg .mii (beNat (slice 6 6 frame)) raw

/-- A private write of the I3C master: it voids an unread answer (R496). -/
def State.i3cWrite (s : State) (m : List Byte) : State :=
  if !s.serves .i3c || !s.i3cListens then s
  else (s.onOnt fun o => { o with i3cAnswer := none }).sideMsg .i3c 0 m

/-- A private read: the answer, or a NACK while there is none (R496). -/
def State.i3cRead (s : State) : State :=
  if !s.serves .i3c || !s.i3cListens then s
  else
    match s.ont.i3cAnswer with
    | none => s
    | some a => s.onOnt fun o => { o with i3cAnswer := none, last := some { carrier := .i3c, dest := 0, bytes := a } }

/-- The relay that an in-band answer belongs to: the oldest to its source with its sequence number and entry. -/
def State.relayOf (s : State) (src : Nat) (m : OntMsg) : Option Relay :=
  s.ont.relays.find? fun r =>
    r.target == src && (ontParse r.request).any fun q => q.seq == m.seq && q.index == m.index && q.sub == m.sub

/-- ONTAN_PACKET_RECEIVE (R497): a request is answered to its source; an answer to a relayed request goes back on the
carrier that the request came from. -/
def State.takeOntan (s : State) (p : Packet) : State :=
  match ontParse p.payload with
  | none => s.badFrame
  | some m =>
    if m.type = 1 ∨ m.type = 2 then
      if s.forMe m then let r := s.answerMsg .inBand p.payload m; r.2.sendAnswer .inBand p.src r.1
      else let r := (s.answered .noSuchEntry).plainAnswer m .noSuchEntry; r.2.sendAnswer .inBand p.src r.1
    else if m.type = 3 then
      match s.relayOf p.src m with
      | none => s
      | some r => (s.onOnt fun o => { o with relays := dropFirst (· == r) o.relays }).sendAnswer r.carrier r.addr p.payload
    else s

/-- RELAY_TIMEOUT: the oldest relayed request to a chip is answered RELAY_FAILED (R497). -/
def State.relayTimeout (s : State) (target : Nat) : State :=
  match s.ont.relays.find? fun r => r.target == target with
  | none => s
  | some r =>
    let s1 := s.onOnt fun o => { o with relays := dropFirst (· == r) o.relays }
    match ontParse r.request with
    | none => s1
    | some m => let a := s1.plainAnswer m .relayFailed; a.2.sendAnswer r.carrier r.addr a.1

/-- ONT_EVENT_REPEAT (R498). -/
def State.eventRepeat (s : State) : State := if s.blk = .off ∨ s.blk = .reset then s else s.sendEvent

/-- ONTAN_READ: a READ by its fields, with its value kept where it is answered OK (R492). -/
def State.ontanRead (s : State) (c : Carrier) (level ctx index sub : Nat) : State :=
  if !s.serves c then s
  else
    let r := s.serveRead c level ctx (256 * index + sub) 0 0
    (r.2.answered r.1.1).onOnt fun o => { o with value := r.1.2.2 }

/-- ONTAN_WRITE: a WRITE by its fields (R492). -/
def State.ontanWrite (s : State) (c : Carrier) (level ctx index sub vtype : Nat) (value : List Byte) : State :=
  if !s.serves c then s
  else
    let r := s.serveWrite c level ctx (256 * index + sub) vtype value
    r.2.answered r.1

/-- SEC_CHALLENGE: a read of the entry on a carrier at Operator level (R489). -/
def State.challengeRead (s : State) (c : Carrier) : State :=
  s.ontanRead c 1 0 (Reg.SEC_CHALLENGE / 256) (Reg.SEC_CHALLENGE % 256)

/-- SEC_UNLOCK: a write of the entry on a carrier at Operator level (R489). -/
def State.unlockWrite (s : State) (c : Carrier) (r : List Byte) : State :=
  s.ontanWrite c 1 0 (Reg.SEC_UNLOCK / 256) (Reg.SEC_UNLOCK % 256) 0x0B r

/-- SEC_LOCK: a write of the entry on a carrier (R507). -/
def State.lockWrite (s : State) (c : Carrier) : State :=
  s.ontanWrite c 1 0 (Reg.SEC_LOCK / 256) (Reg.SEC_LOCK % 256) 0x0B []

end Sys2Proof.Machine
end

