-- ==== Sys2Proof/Machine/Settle.lean ====
section
/-! DEFINITION. Packets handed to what they are for, and what the block does at the end of a command: actions that fell
due, packets that failed within the block, ordered packets whose turn has come, and barriers (R107, R110, R118, R255,
R411, R436, R461). -/
namespace Sys2Proof.Machine
open Sys2Proof Sys2Proof.Bits

/-- Whether the block handles a packet of an opcode in its present state: in Kickstand only Ontan and cadence (R460). -/
def State.handles (s : State) (op : Opcode) : Bool :=
  s.powered || (s.blk == .kickstand && (op == .ontan || op == .cadence))

/-- TALLY_EXP by its phase, which its `SEQ` carries (R321). Another value agrees with nothing: EXP_UP turns it away as
it does a malformed packet. -/
def State.takeExp (s : State) (p : Packet) : State :=
  match p.seq with
  | 1 => s.takeCollGrant p
  | 3 => s.takeExpDown p
  | 4 => s.takeDone p
  | _ => s.takeExpUp p

/-- BARRIER by its phase; another value is counted as malformed (R410). -/
def State.takeBarrier (s : State) (p : Packet) : State :=
  match le 0 1 p.payload with
  | 1 => s.takeArrive p
  | 2 => s.takeBarRelease p
  | 3 => s.takeBarAbort p
  | 4 => s.takeKeepalive p
  | 5 => s.takeTakeover p
  | _ => s.bump Reg.DROP_MALFORMED

/-- NEG_COMPLETION: of a tracked transaction, or of a collective (R110, R329). -/
def State.takeNegative (s : State) (p : Packet) : State :=
  if (s.answered? p p.seq).isNone && ((s.ctxOfJob? p.job).bind fun c => s.coll? c (p.tag % 4096)).any (fun k => k.alive == p.gen)
  then s.collFailed p.job p.tag p.gen (le 0 1 p.payload)
  else s.takeNeg p

/-- A packet handled by its opcode; `part` is the partition in whose caches it is translated (R107, R184). -/
def State.handle (s : State) (part : Nat) (p : Packet) : State :=
  if !s.handles p.op then s
  else
    match p.op with
    | .loadReq | .store | .copy | .atomicReq | .gatherReq | .scatter => s.takeRequest part p
    | .loadRsp => s.takeLoadRsp p
    | .atomicRsp => s.takeAtomicRsp p
    | .completion => s.takeCompletion p
    | .negCompletion => s.takeNegative p
    | .windowReq => s.takeWindowReq p
    | .windowGrant => s.takeGrant p
    | .tallyExp => s.takeExp p
    | .tallyChunk => s.takeSlice p
    | .gatherChunk => s.takeGather p
    | .collAbort => s.takeCollAbort p
    | .attendReq => s.takeAttendReq p
    | .attendPart => s.takeAttendPart p
    | .ontan => s.takeOntan p
    | .imageLoad => s.takeImage p
    | .barrier => s.takeBarrier p
    | .cadence => if p.seq / 65536 = 1 then s.takeCadenceReq p else if p.seq / 65536 = 2 then s.takeCadenceRsp p else s
    | .snapshot => s.takeBcast p
    | .resetBcast => s.takeBcast p

/-- A packet that failed within the block: its negative completion is taken where it was to go, to the collective or the
transaction it belongs to (R110, R118, R331). -/
def State.takeLost (s : State) (e : Packet × Nat) : State :=
  let p := e.1
  if p.op.collective then (if p.mcast && decide (e.2 < 3) then s else s.collFailed p.job p.tag p.gen e.2)
  else if p.op.tracked then
    s.takeNeg { s.ctlPkt .negCompletion p.job s.ownChip with tag := p.tag, gen := p.gen, seq := p.seq, payload := leBytes 8 e.2 }
  else s

/-- The packets that failed within the block taken, in order. -/
def State.takeAllLost (s : State) : State := s.pkt.lost.foldl State.takeLost (s.onPkt fun k => { k with lost := [] })

/-- The barriers of contexts that have arrived go on (R411). -/
def State.barriers (s : State) : State :=
  (s.ctxs.filter fun e => e.2.arrived.isSome).foldl (fun t e => t.barStep e.1) s

/-- Whether nothing is left for the end of a command. -/
def State.quiet (s : State) : Bool :=
  s.flt.due.isEmpty && s.pkt.lost.isEmpty && s.rmt.parked.isEmpty && s.ctxs.all (fun e => e.2.arrived.isNone) && s.flt.kept.isNone

/-- The end of a command: what it set off within the block. -/
def State.settle (s : State) : State :=
  if s.quiet then s
  else
    let s1 := (s.takeDue s.flt.due.length).takeAllLost
    ((s1.runOrdered s1.rmt.parked.length).barriers).nextKept

/-- What a command answers: the state once what it set off has happened. No command of the block stops. -/
def State.done (s : State) : Host.Outcome State Fault Refusal := .next s.settle

/-- A *_RECEIVE command: a packet of the opcode it names, whose checks have passed, is handled. -/
def State.receive (s : State) (part : Nat) (op : Opcode) (p : Packet) : State := if p.op = op then s.handle part p else s

/-- A *_RECEIVE command for one phase of an opcode. -/
def State.receivePhase (s : State) (ok : Bool) (p : Packet) (f : State → State) : State :=
  if ok && s.handles p.op then f s else s

/-- PACKET_INJECT, where a packet for the block's own chip is handled within it (R115). -/
def State.injectAndHandle (s : State) (index : Nat) : State :=
  let r := s.inject index
  match r.1 with
  | none => r.2
  | some p => r.2.handle (p.tag / 8192 % 8) p

/-- PACKET_COMPLETE, and the packet handled by its opcode (R109). -/
def State.completeAndHandle (s : State) (n : Nat) : State :=
  let r := s.packetComplete n
  match r.1 with
  | none => r.2
  | some p => r.2.handle (s.partOfLink n) p

end Sys2Proof.Machine
end

