-- ==== Sys2Proof/Machine/CmdColl.lean ====
section
/-! DEFINITION. The meanings of the commands: collectives, attention, the ledger and the fabric hierarchy (R301 to R420). -/
namespace Sys2Proof.Machine
open Sys2Proof Sys2Proof.Bits

/-- COLLECTIVE_START (R303). -/
def execCollectiveStart (ctx : Nat) (task : Nat) (s : State) : Host.Outcome State Fault Refusal :=
  State.done (s.collStart ctx task)

/-- CHUNK_OPEN (R314). -/
def execChunkOpen (ctx : Nat) (group : Nat) (chunk : Nat) (s : State) : Host.Outcome State Fault Refusal :=
  State.done (s.chunkOpen ctx group chunk)

/-- GRANT_RECEIVE (R315). -/
def execGrantReceive (pkt : Packet) (s : State) : Host.Outcome State Fault Refusal :=
  State.done (s.receivePhase (pkt.op == .tallyExp && pkt.seq == 1) pkt fun t => t.takeCollGrant pkt)

/-- EXP_UP_RECEIVE (R314). -/
def execExpUpReceive (pkt : Packet) (s : State) : Host.Outcome State Fault Refusal :=
  State.done (s.receivePhase (pkt.op == .tallyExp && pkt.seq == 2) pkt fun t => t.takeExpUp pkt)

/-- EXP_DOWN_RECEIVE (R315). -/
def execExpDownReceive (pkt : Packet) (s : State) : Host.Outcome State Fault Refusal :=
  State.done (s.receivePhase (pkt.op == .tallyExp && pkt.seq == 3) pkt fun t => t.takeExpDown pkt)

/-- DONE_RECEIVE (R316). -/
def execDoneReceive (pkt : Packet) (s : State) : Host.Outcome State Fault Refusal :=
  State.done (s.receivePhase (pkt.op == .tallyExp && pkt.seq == 4) pkt fun t => t.takeDone pkt)

/-- TALLY_CHUNK_RECEIVE (R314). -/
def execTallyChunkReceive (pkt : Packet) (s : State) : Host.Outcome State Fault Refusal :=
  State.done (s.receive 0 .tallyChunk pkt)

/-- GATHER_CHUNK_RECEIVE (R325). -/
def execGatherChunkReceive (pkt : Packet) (s : State) : Host.Outcome State Fault Refusal :=
  State.done (s.receive 0 .gatherChunk pkt)

/-- COLL_ABORT_RECEIVE (R330). -/
def execCollAbortReceive (pkt : Packet) (s : State) : Host.Outcome State Fault Refusal :=
  State.done (s.receive 0 .collAbort pkt)

/-- COLL_NOTICE_REPEAT (R317). -/
def execCollNoticeRepeat (ctx : Nat) (group : Nat) (s : State) : Host.Outcome State Fault Refusal :=
  State.done (s.collRepeat ctx group)

/-- COLL_TIMEOUT (R328). -/
def execCollTimeout (ctx : Nat) (group : Nat) (s : State) : Host.Outcome State Fault Refusal :=
  State.done (s.collTimeout ctx group)

/-- ATT_ENABLE_TRUE (R341). -/
def execAttEnableTrue (via : Via) (ctx : Nat) (s : State) : Host.Outcome State Fault Refusal :=
  State.done (s.command via Reg.ATT_ENABLE ctx 1 fun t => t.attEnableAct ctx)

/-- ATT_ENABLE_FALSE (R341). -/
def execAttEnableFalse (via : Via) (ctx : Nat) (s : State) : Host.Outcome State Fault Refusal :=
  State.done (s.command via Reg.ATT_ENABLE ctx 0 fun t => t.attDisableAct ctx)

/-- ATTEND (R345). -/
def execAttend (core : Nat) (s : State) : Host.Outcome State Fault Refusal :=
  State.done ((s.fetchArg core).attend core)

/-- ATTEND_REQ_RECEIVE (R351). -/
def execAttendReqReceive (link : Nat) (pkt : Packet) (s : State) : Host.Outcome State Fault Refusal :=
  State.done (s.receive (s.partOfLink link) .attendReq pkt)

/-- ATT_ASSEMBLY_TIMEOUT (R352). -/
def execAttAssemblyTimeout (ctx : Nat) (slot : Nat) (s : State) : Host.Outcome State Fault Refusal :=
  State.done (s.attAssemblyTimeout ctx slot)

/-- ATTEND_SERVICE_START (R353). -/
def execAttendServiceStart (ctx : Nat) (core : Nat) (s : State) : Host.Outcome State Fault Refusal :=
  State.done (s.serviceStart ctx core)

/-- ATTEND_SERVICE_END (R357). -/
def execAttendServiceEnd (ctx : Nat) (core : Nat) (s : State) : Host.Outcome State Fault Refusal :=
  State.done (s.serviceEnd ctx core)

/-- ATT_HOLD_EXPIRE (R357). -/
def execAttHoldExpire (ctx : Nat) (slot : Nat) (s : State) : Host.Outcome State Fault Refusal :=
  State.done (s.attHoldExpire ctx slot)

/-- ATTEND_PART_RECEIVE (R358). -/
def execAttendPartReceive (pkt : Packet) (s : State) : Host.Outcome State Fault Refusal :=
  State.done (s.receive 0 .attendPart pkt)

/-- ATT_RESULT_TIMEOUT (R358). -/
def execAttResultTimeout (core : Nat) (desc : Nat) (s : State) : Host.Outcome State Fault Refusal :=
  State.done (s.attResultTimeout core desc)

/-- LDG_ENABLE_TRUE (R367). -/
def execLdgEnableTrue (via : Via) (ctx : Nat) (s : State) : Host.Outcome State Fault Refusal :=
  State.done (s.command via Reg.LDG_ENABLE ctx 1 fun t => t.ledgerOnAct ctx)

/-- LDG_ENABLE_FALSE (R370). -/
def execLdgEnableFalse (via : Via) (ctx : Nat) (s : State) : Host.Outcome State Fault Refusal :=
  State.done (s.command via Reg.LDG_ENABLE ctx 0 fun t => t.ledgerOffAct ctx)

/-- LDG_DRAIN_COMPLETE (R370). -/
def execLdgDrainComplete (ctx : Nat) (s : State) : Host.Outcome State Fault Refusal :=
  State.done (s.ledgerDrained ctx)

/-- LDG_CONSUMER_WRITE (R369). -/
def execLdgConsumerWrite (via : Via) (ctx : Nat) (value : Nat) (s : State) : Host.Outcome State Fault Refusal :=
  State.done (s.command via Reg.LDG_CONSUMER ctx value fun t => t.consumerAct ctx value)

/-- CAP_ARM_TRUE (R382). -/
def execCapArmTrue (via : Via) (ctx : Nat) (window : Nat) (s : State) : Host.Outcome State Fault Refusal :=
  State.done (s.command via Reg.CAP_ARM (4 * ctx + window) 1 fun t => t.armAct ctx window)

/-- CADENCE_PERIOD (R403). -/
def execCadencePeriod (s : State) : Host.Outcome State Fault Refusal := State.done (s.cadencePeriod)

/-- CADENCE_REQ_RECEIVE (R403). -/
def execCadenceReqReceive (pkt : Packet) (s : State) : Host.Outcome State Fault Refusal :=
  State.done (s.receivePhase (pkt.op == .cadence && pkt.seq / 65536 == 1) pkt fun t => t.takeCadenceReq pkt)

/-- CADENCE_RSP_RECEIVE (R405). -/
def execCadenceRspReceive (pkt : Packet) (s : State) : Host.Outcome State Fault Refusal :=
  State.done (s.receivePhase (pkt.op == .cadence && pkt.seq / 65536 == 2) pkt fun t => t.takeCadenceRsp pkt)

/-- HIER_CADENCE_SET (R407). -/
def execHierCadenceSet (via : Via) (value : Nat) (s : State) : Host.Outcome State Fault Refusal :=
  State.done (s.command via Reg.HIER_CADENCE_SET 0 value fun t => t.cadenceSetAct value)

/-- TRF_CADENCE_IN_EDGE (R407). -/
def execTrfCadenceInEdge (s : State) : Host.Outcome State Fault Refusal := State.done (s.cadenceEdge)

/-- CADENCE_OUT_PULSE (R46). -/
def execCadenceOutPulse (s : State) : Host.Outcome State Fault Refusal := State.done (s.cadenceOut)

/-- ARRIVE_RECEIVE (R411). -/
def execArriveReceive (pkt : Packet) (s : State) : Host.Outcome State Fault Refusal :=
  State.done (s.receivePhase (pkt.op == .barrier && le 0 1 pkt.payload == 1) pkt fun t => t.takeArrive pkt)

/-- RELEASE_RECEIVE (R411). -/
def execReleaseReceive (pkt : Packet) (s : State) : Host.Outcome State Fault Refusal :=
  State.done (s.receivePhase (pkt.op == .barrier && le 0 1 pkt.payload == 2) pkt fun t => t.takeBarRelease pkt)

/-- BARRIER_ABORT_RECEIVE (R412). -/
def execBarrierAbortReceive (pkt : Packet) (s : State) : Host.Outcome State Fault Refusal :=
  State.done (s.receivePhase (pkt.op == .barrier && le 0 1 pkt.payload == 3) pkt fun t => t.takeBarAbort pkt)

/-- KEEPALIVE_RECEIVE (R417). -/
def execKeepaliveReceive (pkt : Packet) (s : State) : Host.Outcome State Fault Refusal :=
  State.done (s.receivePhase (pkt.op == .barrier && le 0 1 pkt.payload == 4) pkt fun t => t.takeKeepalive pkt)

/-- TAKEOVER_RECEIVE (R417). -/
def execTakeoverReceive (pkt : Packet) (s : State) : Host.Outcome State Fault Refusal :=
  State.done (s.receivePhase (pkt.op == .barrier && le 0 1 pkt.payload == 5) pkt fun t => t.takeTakeover pkt)

/-- ARRIVE_REPEAT (R412). -/
def execArriveRepeat (ctx : Nat) (s : State) : Host.Outcome State Fault Refusal := State.done (s.arriveRepeat ctx)

/-- BAR_TIMEOUT (R412). -/
def execBarTimeout (ctx : Nat) (s : State) : Host.Outcome State Fault Refusal := State.done (s.barTimeout ctx)

/-- KEEPALIVE_PERIOD (R417). -/
def execKeepalivePeriod (ctx : Nat) (s : State) : Host.Outcome State Fault Refusal := State.done (s.keepalive ctx)

/-- TAKEOVER_TIMEOUT (R417). -/
def execTakeoverTimeout (ctx : Nat) (s : State) : Host.Outcome State Fault Refusal := State.done (s.takeover ctx)

/-- JOB_SNAPSHOT (R413). -/
def execJobSnapshot (via : Via) (ctx : Nat) (time : Nat) (s : State) : Host.Outcome State Fault Refusal :=
  State.done (s.command via Reg.JOB_SNAPSHOT ctx time fun t => t.bcastAct ctx false time)

/-- JOB_RESET (R413). -/
def execJobReset (via : Via) (ctx : Nat) (time : Nat) (s : State) : Host.Outcome State Fault Refusal :=
  State.done (s.command via Reg.JOB_RESET ctx time fun t => t.bcastAct ctx true time)

/-- SNAPSHOT_RECEIVE (R414). -/
def execSnapshotReceive (pkt : Packet) (s : State) : Host.Outcome State Fault Refusal :=
  State.done (s.receive 0 .snapshot pkt)

/-- RESET_BCAST_RECEIVE (R414). -/
def execResetBcastReceive (pkt : Packet) (s : State) : Host.Outcome State Fault Refusal :=
  State.done (s.receive 0 .resetBcast pkt)

/-- BCAST_SECOND_COPY (R413). -/
def execBcastSecondCopy (ctx : Nat) (s : State) : Host.Outcome State Fault Refusal := State.done (s.secondCopy ctx)

/-- BCAST_ACTIVATE (R415). -/
def execBcastActivate (ctx : Nat) (seq : Nat) (s : State) : Host.Outcome State Fault Refusal :=
  State.done (s.activate ctx seq)

end Sys2Proof.Machine
end

