-- ==== Sys2Proof/Machine/CmdControl.lean ====
section
/-! DEFINITION. The meanings of the commands: the control core (R240 to R251, R290, R294, R388 to R392, R516). -/
namespace Sys2Proof.Machine
open Sys2Proof Sys2Proof.Bits

/-- An instruction of opcode 0x00 that computes from two registers (R290). -/
def State.ccAlu (s : State) (core fn : Nat) (rd ra rb : Fin 32) (f : Word64 → Word64 → Word64) : State :=
  s.ccRun core { op := 0, fn := some fn, rd := some rd.val, ra := some ra.val, rb := some rb.val } fun t =>
    t.ccWrite core rd (f (t.x core ra) (t.x core rb))

/-- A shift. R290 gives no result for a count of 64 or more: the value is free. -/
def State.ccShift (s : State) (core fn : Nat) (rd ra rb : Fin 32) (f : Word64 → Nat → Word64) : State :=
  s.ccRun core { op := 0, fn := some fn, rd := some rd.val, ra := some ra.val, rb := some rb.val } fun t =>
    if 64 ≤ (t.x core rb).toNat then let w := t.drawWord; w.2.ccWrite core rd w.1
    else t.ccWrite core rd (f (t.x core ra) (t.x core rb).toNat)

/-- A half-word written into a register's value, the other bits kept (R290). -/
def hins (v : Word64) (half imm : Nat) : Word64 :=
  BitVec.ofNat 64 (v.toNat - fld v.toNat (16 * half + 15) (16 * half) * 2 ^ (16 * half) + imm * 2 ^ (16 * half))

/-- The address of a load or store: X[RA] + IMM (R290). -/
def State.ccAddr (s : State) (core ra imm : Nat) : Nat := (s.x core ra + immSigned imm).toNat


/-- CC_ADD (R290). -/
def execCcAdd (core : Nat) (rd : (Fin 32)) (ra : (Fin 32)) (rb : (Fin 32)) (s : State) : Host.Outcome State Fault Refusal :=
  State.done (s.ccAlu core 0 rd ra rb fun a b => a + b)

/-- CC_SUB (R290). -/
def execCcSub (core : Nat) (rd : (Fin 32)) (ra : (Fin 32)) (rb : (Fin 32)) (s : State) : Host.Outcome State Fault Refusal :=
  State.done (s.ccAlu core 1 rd ra rb fun a b => a - b)

/-- CC_AND (R290). -/
def execCcAnd (core : Nat) (rd : (Fin 32)) (ra : (Fin 32)) (rb : (Fin 32)) (s : State) : Host.Outcome State Fault Refusal :=
  State.done (s.ccAlu core 2 rd ra rb fun a b => a &&& b)

/-- CC_OR (R290). -/
def execCcOr (core : Nat) (rd : (Fin 32)) (ra : (Fin 32)) (rb : (Fin 32)) (s : State) : Host.Outcome State Fault Refusal :=
  State.done (s.ccAlu core 3 rd ra rb fun a b => a ||| b)

/-- CC_XOR (R290). -/
def execCcXor (core : Nat) (rd : (Fin 32)) (ra : (Fin 32)) (rb : (Fin 32)) (s : State) : Host.Outcome State Fault Refusal :=
  State.done (s.ccAlu core 4 rd ra rb fun a b => a ^^^ b)

/-- CC_SHL (R290). -/
def execCcShl (core : Nat) (rd : (Fin 32)) (ra : (Fin 32)) (rb : (Fin 32)) (s : State) : Host.Outcome State Fault Refusal :=
  State.done (s.ccShift core 5 rd ra rb fun a b => a <<< b)

/-- CC_SHR (R290). -/
def execCcShr (core : Nat) (rd : (Fin 32)) (ra : (Fin 32)) (rb : (Fin 32)) (s : State) : Host.Outcome State Fault Refusal :=
  State.done (s.ccShift core 6 rd ra rb fun a b => a >>> b)

/-- CC_SAR (R290). -/
def execCcSar (core : Nat) (rd : (Fin 32)) (ra : (Fin 32)) (rb : (Fin 32)) (s : State) : Host.Outcome State Fault Refusal :=
  State.done (s.ccShift core 7 rd ra rb fun a b => a.sshiftRight b)

/-- CC_MUL (R290). -/
def execCcMul (core : Nat) (rd : (Fin 32)) (ra : (Fin 32)) (rb : (Fin 32)) (s : State) : Host.Outcome State Fault Refusal :=
  State.done (s.ccAlu core 8 rd ra rb fun a b => a * b)

/-- CC_MULHU (R290). -/
def execCcMulhu (core : Nat) (rd : (Fin 32)) (ra : (Fin 32)) (rb : (Fin 32)) (s : State) : Host.Outcome State Fault Refusal :=
  State.done (s.ccAlu core 9 rd ra rb fun a b => BitVec.ofNat 64 (a.toNat * b.toNat / 2 ^ 64))

/-- CC_SLT (R290). -/
def execCcSlt (core : Nat) (rd : (Fin 32)) (ra : (Fin 32)) (rb : (Fin 32)) (s : State) : Host.Outcome State Fault Refusal :=
  State.done (s.ccAlu core 10 rd ra rb fun a b => if a.slt b then 1 else 0)

/-- CC_SLTU (R290). -/
def execCcSltu (core : Nat) (rd : (Fin 32)) (ra : (Fin 32)) (rb : (Fin 32)) (s : State) : Host.Outcome State Fault Refusal :=
  State.done (s.ccAlu core 11 rd ra rb fun a b => if a.ult b then 1 else 0)

/-- ADDI (R290). -/
def execCcAddi (core : Nat) (rd : (Fin 32)) (ra : (Fin 32)) (imm : (Fin 65536)) (s : State) : Host.Outcome State Fault Refusal :=
  State.done (s.ccRun core { op := 1, rd := some rd.val, ra := some ra.val, imm := some imm.val } fun t =>
    t.ccWrite core rd (t.x core ra + immSigned imm))

/-- ANDI (R290). -/
def execCcAndi (core : Nat) (rd : (Fin 32)) (ra : (Fin 32)) (imm : (Fin 65536)) (s : State) : Host.Outcome State Fault Refusal :=
  State.done (s.ccRun core { op := 2, rd := some rd.val, ra := some ra.val, imm := some imm.val } fun t =>
    t.ccWrite core rd (t.x core ra &&& BitVec.ofNat 64 imm))

/-- ORI (R290). -/
def execCcOri (core : Nat) (rd : (Fin 32)) (ra : (Fin 32)) (imm : (Fin 65536)) (s : State) : Host.Outcome State Fault Refusal :=
  State.done (s.ccRun core { op := 3, rd := some rd.val, ra := some ra.val, imm := some imm.val } fun t =>
    t.ccWrite core rd (t.x core ra ||| BitVec.ofNat 64 imm))

/-- HINS (R290). -/
def execCcHins (core : Nat) (rd : (Fin 32)) (half : (Fin 4)) (imm : (Fin 65536)) (s : State) : Host.Outcome State Fault Refusal :=
  State.done (s.ccRun core { op := 4, rd := some rd.val, ra := some half.val, imm := some imm.val } fun t =>
    t.ccWrite core rd (hins (t.x core rd) half imm))

/-- HNEW (R290). -/
def execCcHnew (core : Nat) (rd : (Fin 32)) (half : (Fin 4)) (imm : (Fin 65536)) (s : State) : Host.Outcome State Fault Refusal :=
  State.done (s.ccRun core { op := 5, rd := some rd.val, ra := some half.val, imm := some imm.val } fun t =>
    t.ccWrite core rd (hins 0 half imm))

/-- LD (R244). -/
def execCcLd (core : Nat) (size : (Fin 4)) (rd : (Fin 32)) (ra : (Fin 32)) (imm : (Fin 65536)) (s : State) : Host.Outcome State Fault Refusal :=
  State.done (s.ccRun core { op := 8 + size.val, rd := some rd.val, ra := some ra.val, imm := some imm.val } fun t =>
    t.ccLd core (2 ^ size.val) rd (t.ccAddr core ra imm))

/-- ST (R244). -/
def execCcSt (core : Nat) (size : (Fin 4)) (rd : (Fin 32)) (ra : (Fin 32)) (imm : (Fin 65536)) (s : State) : Host.Outcome State Fault Refusal :=
  State.done (s.ccRun core { op := 12 + size.val, rd := some rd.val, ra := some ra.val, imm := some imm.val } fun t =>
    t.ccSt core (2 ^ size.val) rd (t.ccAddr core ra imm))

/-- AMO (R244). -/
def execCcAmo (core : Nat) (code : (Fin 16)) (wide : Bool) (rd : (Fin 32)) (ra : (Fin 32)) (rb : (Fin 32)) (s : State) : Host.Outcome State Fault Refusal :=
  State.done (s.ccRun core { op := 0x10, fn := some (code.val + 16 * ofBool wide), rd := some rd.val, ra := some ra.val, rb := some rb.val } fun t =>
    t.ccAmo core code wide rd ra rb)

/-- SIGNAL (R246). -/
def execCcSignal (core : Nat) (ra : (Fin 32)) (rb : (Fin 32)) (s : State) : Host.Outcome State Fault Refusal :=
  State.done (s.ccRun core { op := 0x11, fn := some 0, ra := some ra.val, rb := some rb.val } fun t =>
    t.ccSignal core ra rb)

/-- SET (R246). -/
def execCcSet (core : Nat) (ra : (Fin 32)) (rb : (Fin 32)) (s : State) : Host.Outcome State Fault Refusal :=
  State.done (s.ccRun core { op := 0x11, fn := some 1, ra := some ra.val, rb := some rb.val } fun t =>
    t.ccSet core ra rb)

/-- WAIT (R246). -/
def execCcWait (core : Nat) (ra : (Fin 32)) (rb : (Fin 32)) (s : State) : Host.Outcome State Fault Refusal :=
  State.done (s.ccRun core { op := 0x11, fn := some 2, ra := some ra.val, rb := some rb.val } fun t =>
    t.ccWait core ra rb)

/-- READ (R246). -/
def execCcRead (core : Nat) (rd : (Fin 32)) (ra : (Fin 32)) (s : State) : Host.Outcome State Fault Refusal :=
  State.done (s.ccRun core { op := 0x11, fn := some 3, rd := some rd.val, ra := some ra.val } fun t =>
    t.ccReadSem core rd ra)

/-- CSET (R251). -/
def execCcCset (core : Nat) (ra : (Fin 32)) (rb : (Fin 32)) (s : State) : Host.Outcome State Fault Refusal :=
  State.done (s.ccRun core { op := 0x12, fn := some 0, ra := some ra.val, rb := some rb.val } fun t =>
    t.ccCset core ra rb)

/-- CREAD (R251). -/
def execCcCread (core : Nat) (rd : (Fin 32)) (ra : (Fin 32)) (s : State) : Host.Outcome State Fault Refusal :=
  State.done (s.ccRun core { op := 0x12, fn := some 1, rd := some rd.val, ra := some ra.val } fun t =>
    t.ccCread core rd ra)

/-- WAITC (R251). -/
def execCcWaitc (core : Nat) (ra : (Fin 32)) (rb : (Fin 32)) (s : State) : Host.Outcome State Fault Refusal :=
  State.done (s.ccRun core { op := 0x12, fn := some 2, ra := some ra.val, rb := some rb.val } fun t =>
    t.ccWaitc core ra rb)

/-- FAR_FLUSH (R244). -/
def execCcFarFlush (core : Nat) (ra : (Fin 32)) (rb : (Fin 32)) (s : State) : Host.Outcome State Fault Refusal :=
  State.done (s.ccRun core { op := 0x13, fn := some 0, ra := some ra.val, rb := some rb.val } fun t =>
    t.ccFar core ra rb false)

/-- FAR_DROP (R244). -/
def execCcFarDrop (core : Nat) (ra : (Fin 32)) (rb : (Fin 32)) (s : State) : Host.Outcome State Fault Refusal :=
  State.done (s.ccRun core { op := 0x13, fn := some 1, ra := some ra.val, rb := some rb.val } fun t =>
    t.ccFar core ra rb true)

/-- FENCE (R244). -/
def execCcFence (core : Nat) (s : State) : Host.Outcome State Fault Refusal :=
  State.done (s.ccRun core { op := 0x13, fn := some 2 } fun t => t.ccFence core)

/-- ENQ_MATRIX (R205). -/
def execCcEnqMatrix (core : Nat) (ra : (Fin 32)) (s : State) : Host.Outcome State Fault Refusal :=
  State.done (s.ccRun core { op := 0x14, fn := some 0, ra := some ra.val } fun t => t.ccEnq core ra .matrix)

/-- ENQ_VECTOR (R205). -/
def execCcEnqVector (core : Nat) (ra : (Fin 32)) (s : State) : Host.Outcome State Fault Refusal :=
  State.done (s.ccRun core { op := 0x14, fn := some 1, ra := some ra.val } fun t => t.ccEnq core ra .vector)

/-- ENQ_DMA (R205). -/
def execCcEnqDma (core : Nat) (ra : (Fin 32)) (s : State) : Host.Outcome State Fault Refusal :=
  State.done (s.ccRun core { op := 0x14, fn := some 2, ra := some ra.val } fun t => t.ccEnq core ra .dma)

/-- FAR_WINDOW_SET (R290). -/
def execCcFarWindowSet (core : Nat) (window : (Fin 16)) (ra : (Fin 32)) (s : State) : Host.Outcome State Fault Refusal :=
  State.done (s.ccRun core { op := 0x15, fn := some window.val, ra := some ra.val } fun t =>
    t.ccWindow core window ra)

/-- MASK_SET_COUNT (R226). -/
def execCcMaskSetCount (core : Nat) (mask : (Fin 7)) (ra : (Fin 32)) (s : State) : Host.Outcome State Fault Refusal :=
  State.done (s.ccRun core { op := 0x15, fn := some (17 + mask.val), ra := some ra.val } fun t =>
    t.ccMaskCount core (mask.val + 1) ra)

/-- MASK_SET_SPAD (R226). -/
def execCcMaskSetSpad (core : Nat) (mask : (Fin 7)) (ra : (Fin 32)) (s : State) : Host.Outcome State Fault Refusal :=
  State.done (s.ccRun core { op := 0x15, fn := some (25 + mask.val), ra := some ra.val } fun t =>
    t.ccMaskSpad core (mask.val + 1) ra)

/-- TRIG_ARM (R294). -/
def execCcTrigArm (core : Nat) (slot : (Fin 16)) (ra : (Fin 32)) (s : State) : Host.Outcome State Fault Refusal :=
  State.done (s.ccRun core { op := 0x16, fn := some slot.val, ra := some ra.val } fun t => t.ccTrigArm core slot ra)

/-- TRIG_DISARM (R294). -/
def execCcTrigDisarm (core : Nat) (slot : (Fin 16)) (s : State) : Host.Outcome State Fault Refusal :=
  State.done (s.ccRun core { op := 0x16, fn := some (16 + slot.val) } fun t => t.ccTrigDisarm core slot)

/-- CV_INIT (R388). -/
def execCcCvInit (core : Nat) (unit : (Fin 8)) (rb : (Fin 32)) (s : State) : Host.Outcome State Fault Refusal :=
  State.done (s.ccRun core { op := 0x17, fn := some (0 + unit.val), rb := some rb.val } fun t =>
    t.ccCvInit core unit rb)

/-- CV_FEED1 (R389). -/
def execCcCvFeed1 (core : Nat) (unit : (Fin 8)) (rb : (Fin 32)) (s : State) : Host.Outcome State Fault Refusal :=
  State.done (s.ccRun core { op := 0x17, fn := some (8 + unit.val), rb := some rb.val } fun t =>
    t.ccCvFeed core unit 1 rb)

/-- CV_FEED2 (R389). -/
def execCcCvFeed2 (core : Nat) (unit : (Fin 8)) (rb : (Fin 32)) (s : State) : Host.Outcome State Fault Refusal :=
  State.done (s.ccRun core { op := 0x17, fn := some (16 + unit.val), rb := some rb.val } fun t =>
    t.ccCvFeed core unit 2 rb)

/-- CV_FEED4 (R389). -/
def execCcCvFeed4 (core : Nat) (unit : (Fin 8)) (rb : (Fin 32)) (s : State) : Host.Outcome State Fault Refusal :=
  State.done (s.ccRun core { op := 0x17, fn := some (24 + unit.val), rb := some rb.val } fun t =>
    t.ccCvFeed core unit 4 rb)

/-- CV_FEED8 (R389). -/
def execCcCvFeed8 (core : Nat) (unit : (Fin 8)) (rb : (Fin 32)) (s : State) : Host.Outcome State Fault Refusal :=
  State.done (s.ccRun core { op := 0x17, fn := some (32 + unit.val), rb := some rb.val } fun t =>
    t.ccCvFeed core unit 8 rb)

/-- CV_FINAL (R388). -/
def execCcCvFinal (core : Nat) (unit : (Fin 8)) (rd : (Fin 32)) (s : State) : Host.Outcome State Fault Refusal :=
  State.done (s.ccRun core { op := 0x17, fn := some (40 + unit.val), rd := some rd.val } fun t =>
    t.ccWrite core rd (BitVec.ofNat 64 (t.cv core unit).final))

/-- CV_GET (R388). -/
def execCcCvGet (core : Nat) (unit : (Fin 8)) (rd : (Fin 32)) (s : State) : Host.Outcome State Fault Refusal :=
  State.done (s.ccRun core { op := 0x17, fn := some (48 + unit.val), rd := some rd.val } fun t =>
    t.ccWrite core rd (BitVec.ofNat 64 (t.cv core unit).reg))

/-- CV_PUT (R388). -/
def execCcCvPut (core : Nat) (unit : (Fin 8)) (rb : (Fin 32)) (s : State) : Host.Outcome State Fault Refusal :=
  State.done (s.ccRun core { op := 0x17, fn := some (56 + unit.val), rb := some rb.val } fun t =>
    t.ccCvPut core unit rb)

/-- CV_GETA (R388). -/
def execCcCvGeta (core : Nat) (unit : (Fin 8)) (rd : (Fin 32)) (s : State) : Host.Outcome State Fault Refusal :=
  State.done (s.ccRun core { op := 0x17, fn := some (64 + unit.val), rd := some rd.val } fun t =>
    t.ccWrite core rd (BitVec.ofNat 64 (t.cv core unit).word))

/-- CV_PUTA (R388). -/
def execCcCvPuta (core : Nat) (unit : (Fin 8)) (rb : (Fin 32)) (s : State) : Host.Outcome State Fault Refusal :=
  State.done (s.ccRun core { op := 0x17, fn := some (72 + unit.val), rb := some rb.val } fun t =>
    t.ccCvPuta core unit rb)

/-- CV_APPEND (R390). -/
def execCcCvAppend (core : Nat) (unit : (Fin 8)) (ra : (Fin 32)) (s : State) : Host.Outcome State Fault Refusal :=
  State.done (s.ccRun core { op := 0x17, fn := some (80 + unit.val), ra := some ra.val } fun t =>
    t.ccCvAppend core unit ra)

/-- CV_CHECK (R391). -/
def execCcCvCheck (core : Nat) (unit : (Fin 8)) (rd : (Fin 32)) (ra : (Fin 32)) (s : State) : Host.Outcome State Fault Refusal :=
  State.done (s.ccRun core { op := 0x17, fn := some (88 + unit.val), rd := some rd.val, ra := some ra.val } fun t =>
    t.ccCvCheck core unit rd ra)

/-- CV_LEDGER (R392). -/
def execCcCvLedger (core : Nat) (unit : (Fin 8)) (ra : (Fin 32)) (rb : (Fin 32)) (s : State) : Host.Outcome State Fault Refusal :=
  State.done (s.ccRun core { op := 0x17, fn := some (96 + unit.val), ra := some ra.val, rb := some rb.val } fun t =>
    t.ccCvLedger core unit ra rb)

/-- MARK_BEGIN (R516). -/
def execCcMarkBegin (core : Nat) (ra : (Fin 32)) (s : State) : Host.Outcome State Fault Refusal :=
  State.done (s.ccRun core { op := 0x18, fn := some 0, ra := some ra.val } fun t => t.ccMark core 0 ra)

/-- MARK_END (R516). -/
def execCcMarkEnd (core : Nat) (ra : (Fin 32)) (s : State) : Host.Outcome State Fault Refusal :=
  State.done (s.ccRun core { op := 0x18, fn := some 1, ra := some ra.val } fun t => t.ccMark core 1 ra)

/-- MARK_POINT (R516). -/
def execCcMarkPoint (core : Nat) (ra : (Fin 32)) (s : State) : Host.Outcome State Fault Refusal :=
  State.done (s.ccRun core { op := 0x18, fn := some 2, ra := some ra.val } fun t => t.ccMark core 2 ra)

/-- BEQ (R290). -/
def execCcBeq (core : Nat) (rd : (Fin 32)) (ra : (Fin 32)) (imm : (Fin 65536)) (s : State) : Host.Outcome State Fault Refusal :=
  State.done (s.ccRun core { op := 0x20, rd := some rd.val, ra := some ra.val, imm := some imm.val } fun t =>
    t.ccBranch core imm (t.x core rd == t.x core ra))

/-- BNE (R290). -/
def execCcBne (core : Nat) (rd : (Fin 32)) (ra : (Fin 32)) (imm : (Fin 65536)) (s : State) : Host.Outcome State Fault Refusal :=
  State.done (s.ccRun core { op := 0x21, rd := some rd.val, ra := some ra.val, imm := some imm.val } fun t =>
    t.ccBranch core imm (t.x core rd != t.x core ra))

/-- BLT (R290). -/
def execCcBlt (core : Nat) (rd : (Fin 32)) (ra : (Fin 32)) (imm : (Fin 65536)) (s : State) : Host.Outcome State Fault Refusal :=
  State.done (s.ccRun core { op := 0x22, rd := some rd.val, ra := some ra.val, imm := some imm.val } fun t =>
    t.ccBranch core imm ((t.x core rd).slt (t.x core ra)))

/-- BGE (R290). -/
def execCcBge (core : Nat) (rd : (Fin 32)) (ra : (Fin 32)) (imm : (Fin 65536)) (s : State) : Host.Outcome State Fault Refusal :=
  State.done (s.ccRun core { op := 0x23, rd := some rd.val, ra := some ra.val, imm := some imm.val } fun t =>
    t.ccBranch core imm (!(t.x core rd).slt (t.x core ra)))

/-- BLTU (R290). -/
def execCcBltu (core : Nat) (rd : (Fin 32)) (ra : (Fin 32)) (imm : (Fin 65536)) (s : State) : Host.Outcome State Fault Refusal :=
  State.done (s.ccRun core { op := 0x24, rd := some rd.val, ra := some ra.val, imm := some imm.val } fun t =>
    t.ccBranch core imm ((t.x core rd).ult (t.x core ra)))

/-- BGEU (R290). -/
def execCcBgeu (core : Nat) (rd : (Fin 32)) (ra : (Fin 32)) (imm : (Fin 65536)) (s : State) : Host.Outcome State Fault Refusal :=
  State.done (s.ccRun core { op := 0x25, rd := some rd.val, ra := some ra.val, imm := some imm.val } fun t =>
    t.ccBranch core imm (!(t.x core rd).ult (t.x core ra)))

/-- JAL (R290). -/
def execCcJal (core : Nat) (rd : (Fin 32)) (imm : (Fin 65536)) (s : State) : Host.Outcome State Fault Refusal :=
  State.done (s.ccRun core { op := 0x26, rd := some rd.val, imm := some imm.val } fun t =>
    t.ccJump core rd (t.branchTo core imm))

/-- JR (R290). -/
def execCcJr (core : Nat) (rd : (Fin 32)) (ra : (Fin 32)) (s : State) : Host.Outcome State Fault Refusal :=
  State.done (s.ccRun core { op := 0x27, rd := some rd.val, ra := some ra.val } fun t =>
    t.ccJump core rd (t.x core ra).toNat)

/-- END (R287). -/
def execCcEnd (core : Nat) (imm : (Fin 65536)) (s : State) : Host.Outcome State Fault Refusal :=
  State.done (s.ccRun core { op := 0x3F, imm := some imm.val } fun t => t.ccEndInstance core (imm.val % 256))

end Sys2Proof.Machine
end

