-- ==== Sys2Proof/Machine/CmdEngine.lean ====
section
/-! DEFINITION. The meanings of the commands: the engines, far memory and local memory (R200 to R282). -/
namespace Sys2Proof.Machine
open Sys2Proof Sys2Proof.Bits

/-- MATMUL (R217). -/
def execMatmul (core : Nat) (s : State) : Host.Outcome State Fault Refusal := State.done (s.matmul core)

/-- MATMUL_END (R219). -/
def execMatmulEnd (core : Nat) (s : State) : Host.Outcome State Fault Refusal := State.done (s.matmulEnd core)

/-- VECTOR_PASS (R221). -/
def execVectorPass (core : Nat) (s : State) : Host.Outcome State Fault Refusal := State.done (s.vectorPass core)

/-- VECTOR_PASS_END (R228). -/
def execVectorPassEnd (core : Nat) (s : State) : Host.Outcome State Fault Refusal := State.done (s.vectorPassEnd core)

/-- COPY_LOCAL (R257). -/
def execCopyLocal (core : Nat) (s : State) : Host.Outcome State Fault Refusal :=
  State.done ((s.fetchArg core).localDesc core 0x10)

/-- UNWRITE (R270). -/
def execUnwrite (core : Nat) (s : State) : Host.Outcome State Fault Refusal :=
  State.done ((s.fetchArg core).localDesc core 0x11)

/-- LOCAL_COPY_END (R257). -/
def execLocalCopyEnd (core : Nat) (index : Nat) (s : State) : Host.Outcome State Fault Refusal :=
  State.done (s.localEnd core index)

/-- FAR_FILL_COMPLETE (R259). -/
def execFarFillComplete (core : Nat) (s : State) : Host.Outcome State Fault Refusal :=
  State.done (s.fillComplete core)

/-- DIRECTORY_GRANT (R264). -/
def execDirectoryGrant (bank : Nat) (s : State) : Host.Outcome State Fault Refusal := State.done (s.dirGrant bank)

/-- FAR_WRITEBACK_COMPLETE (R261). -/
def execFarWritebackComplete (index : Nat) (s : State) : Host.Outcome State Fault Refusal :=
  State.done (s.wbComplete index)

/-- FAR_MAINTENANCE_COMPLETE (R244). -/
def execFarMaintenanceComplete (core : Nat) (s : State) : Host.Outcome State Fault Refusal :=
  State.done (s.maintComplete core)

/-- WAIT_SATISFIED (R246). -/
def execWaitSatisfied (core : Nat) (s : State) : Host.Outcome State Fault Refusal := State.done (s.waitSatisfied core)

/-- MEM_ZERO_GO (R272). -/
def execMemZeroGo (via : Via) (ctx : Nat) (s : State) : Host.Outcome State Fault Refusal :=
  State.done (s.command via Reg.MEM_ZERO_GO ctx 0 fun t => t.memZeroGoAct ctx)

/-- MEM_ZERO_COMPLETE (R272). -/
def execMemZeroComplete (ctx : Nat) (s : State) : Host.Outcome State Fault Refusal :=
  State.done (s.memZeroComplete ctx)

end Sys2Proof.Machine
end

