-- ==== Sys2Proof/Machine/CmdFault.lean ====
section
/-! DEFINITION. The meanings of the commands: faults, resets, recovery and power (R428 to R483). -/
namespace Sys2Proof.Machine
open Sys2Proof Sys2Proof.Bits

/-- PROMOTE_WINDOW_EXPIRE (R431). -/
def execPromoteWindowExpire (src : Source) (s : State) : Host.Outcome State Fault Refusal :=
  State.done (s.onFlt fun f => { f with windows := Table.erase f.windows src.code })

/-- ESCALATION_TIMEOUT (R436). -/
def execEscalationTimeout (src : Source) (unit : UnitName) (s : State) : Host.Outcome State Fault Refusal :=
  State.done (s.escalate src unit)

/-- SRC_CLEAR (R432). -/
def execSrcClear (via : Via) (code : Nat) (s : State) : Host.Outcome State Fault Refusal :=
  State.done (s.command via Reg.SRC_CLEAR code 0 fun t => t.srcClearAct code)

/-- FLT_CLEAR_ALL (R432). -/
def execFltClearAll (via : Via) (s : State) : Host.Outcome State Fault Refusal :=
  State.done (s.command via Reg.FLT_CLEAR_ALL 0 0 fun t => t.clearAllAct)

/-- FLT_STICKY_CLEAR (R435). -/
def execFltStickyClear (via : Via) (s : State) : Host.Outcome State Fault Refusal :=
  State.done (s.command via Reg.FLT_STICKY_CLEAR 0 0 fun t => (.ok, t.onFlt fun f => { f with stickyFirst := none }))

/-- FLT_EVT_POP (R465). -/
def execFltEvtPop (via : Via) (s : State) : Host.Outcome State Fault Refusal :=
  State.done (s.command via Reg.FLT_EVT_POP 0 0 fun t => (.ok, t.onFlt fun f => { f with queue := f.queue.drop 1 }))

/-- HANG_EXAMINE (R441). -/
def execHangExamine (s : State) : Host.Outcome State Fault Refusal := State.done (s.hangExamine)

/-- RST_CTX (R445). -/
def execRstCtx (via : Via) (ctx : Nat) (s : State) : Host.Outcome State Fault Refusal :=
  State.done (s.command via Reg.RST_CTX ctx 0 fun t => t.rstCtxAct ctx)

/-- CONTEXT_RESET_COMPLETE (R445). -/
def execContextResetComplete (ctx : Nat) (s : State) : Host.Outcome State Fault Refusal :=
  State.done (s.ctxResetComplete ctx)

/-- ENGINE_RESET_IDLE (R447). -/
def execEngineResetIdle (unit : UnitName) (s : State) : Host.Outcome State Fault Refusal :=
  State.done (s.engineIdle unit)

/-- PARTITION_RESET_IDLE (R448). -/
def execPartitionResetIdle (part : Nat) (s : State) : Host.Outcome State Fault Refusal :=
  State.done (s.partitionIdle part)

/-- FLT_BLOCK_RESET (R449). -/
def execFltBlockReset (via : Via) (s : State) : Host.Outcome State Fault Refusal :=
  State.done (s.command via Reg.FLT_BLOCK_RESET 0 0 fun t => t.blockResetAct)

/-- BLOCK_RESET_CONFIGURE_LIMIT (R443). -/
def execBlockResetConfigureLimit (s : State) : Host.Outcome State Fault Refusal := State.done (s.blockLimit)

/-- RST_CTX_LIMIT (R444). -/
def execRstCtxLimit (ctx : Nat) (s : State) : Host.Outcome State Fault Refusal := State.done (s.ctxLimit ctx)

/-- RST_ENGINE_LIMIT (R444). -/
def execRstEngineLimit (unit : UnitName) (s : State) : Host.Outcome State Fault Refusal :=
  State.done (s.engineLimit unit)

/-- RST_PARTITION_LIMIT (R444). -/
def execRstPartitionLimit (part : Nat) (s : State) : Host.Outcome State Fault Refusal :=
  State.done (s.partitionLimit part)

/-- RST_SAMPLE_LIMIT (R452). -/
def execRstSampleLimit (unit : UnitName) (s : State) : Host.Outcome State Fault Refusal :=
  State.done (s.sampleLimit unit)

/-- FLT_PCYC_REQUEST (R450). -/
def execFltPcycRequest (via : Via) (s : State) : Host.Outcome State Fault Refusal :=
  State.done (s.command via Reg.FLT_PCYC_REQUEST 0 0 fun t => (.ok, t.powerCycle 0))

/-- PCYC_KICKSTAND (R450). -/
def execPcycKickstand (s : State) : Host.Outcome State Fault Refusal := State.done (s.pcycKick)

/-- PROBATION_TURN_END (R454). -/
def execProbationTurnEnd (outcome : TurnEnd) (s : State) : Host.Outcome State Fault Refusal :=
  State.done (s.turnEnd outcome)

/-- EPOCH_RESYNC_COMPLETE (R457). -/
def execEpochResyncComplete (core : Nat) (s : State) : Host.Outcome State Fault Refusal := State.done (s.resync core)

/-- FLT_KICKSTAND (R459). -/
def execFltKickstand (via : Via) (s : State) : Host.Outcome State Fault Refusal :=
  State.done (s.command via Reg.FLT_KICKSTAND 0 0 fun t => (.ok, t.enterKickstand))

/-- FLT_KICK_EXIT (R463). -/
def execFltKickExit (via : Via) (s : State) : Host.Outcome State Fault Refusal :=
  State.done (s.command via Reg.FLT_KICK_EXIT 0 0 fun t => t.kickExitAct)

/-- GOVERNOR_INTERVAL (R471). -/
def execGovernorInterval (s : State) : Host.Outcome State Fault Refusal := State.done (s.governorInterval)

/-- SLEEP_DELAY_EXPIRE (R475). -/
def execSleepDelayExpire (core : Nat) (s : State) : Host.Outcome State Fault Refusal :=
  State.done (s.sleepExpire core)

/-- WAKE_TOKEN_REFILL (R476). -/
def execWakeTokenRefill (s : State) : Host.Outcome State Fault Refusal := State.done (s.wakeRefill)

/-- WAKE_RELEASE (R476). -/
def execWakeRelease (core : Nat) (s : State) : Host.Outcome State Fault Refusal := State.done (s.wakeRelease core)

/-- WAKE_COMPLETE (R474). -/
def execWakeComplete (core : Nat) (s : State) : Host.Outcome State Fault Refusal := State.done (s.wakeComplete core)

/-- WAKE_DELAYED (R476). -/
def execWakeDelayed (core : Nat) (waited : Nat) (s : State) : Host.Outcome State Fault Refusal :=
  State.done (s.wakeLate core waited)

/-- MM_GATE_DELAY (R477). -/
def execMmGateDelay (core : Nat) (s : State) : Host.Outcome State Fault Refusal := State.done (s.mmGate core)

/-- RAMP_START (R477). -/
def execRampStart (core : Nat) (s : State) : Host.Outcome State Fault Refusal := State.done (s.rampStart core)

/-- RAMP_COMPLETE (R477). -/
def execRampComplete (core : Nat) (s : State) : Host.Outcome State Fault Refusal := State.done (s.rampComplete core)

/-- FLOOR_TIMER (R479). -/
def execFloorTimer (s : State) : Host.Outcome State Fault Refusal := State.done (s.floorTimer)

/-- PWR_VID (R479). -/
def execPwrVid (via : Via) (value : Nat) (s : State) : Host.Outcome State Fault Refusal :=
  State.done (s.command via Reg.PWR_VID 0 value fun t => t.vidAct value)

/-- PMI_REQUEST (R479). -/
def execPmiRequest (s : State) : Host.Outcome State Fault Refusal := State.done (s.pmiRequest)

/-- PMI_REQ_ACK (R48). -/
def execPmiReqAck (s : State) : Host.Outcome State Fault Refusal := State.done (s.pmiAck)

/-- PMI_NOACK_TIMEOUT (R48). -/
def execPmiNoackTimeout (s : State) : Host.Outcome State Fault Refusal := State.done (s.pmiNoack)

/-- PMI_PGOOD_FALL (R48). -/
def execPmiPgoodFall (s : State) : Host.Outcome State Fault Refusal := State.done (s.pgoodFall)

/-- PMI_VR_ALERT_FALL (R473). -/
def execPmiVrAlertFall (s : State) : Host.Outcome State Fault Refusal := State.done (s.vrAlertFall)

/-- VR_ALERT_END (R473). -/
def execVrAlertEnd (s : State) : Host.Outcome State Fault Refusal := State.done (s.vrAlertEnd)

end Sys2Proof.Machine
end

