-- ==== Sys2Proof/Machine/CmdLink.lean ====
section
/-! DEFINITION. The meanings of the commands: the links (R60 to R102). -/
namespace Sys2Proof.Machine
open Sys2Proof Sys2Proof.Bits

/-- TRANSMIT_UNIT_BOUNDARY (R76). -/
def execTransmitUnitBoundary (link : Nat) (s : State) : Host.Outcome State Fault Refusal :=
  State.done (s.transmitBoundary link)

/-- DATA_UNIT_RECEIVE (R68). -/
def execDataUnitReceive (link : Nat) (raw : (List Byte)) (uncorr : (List Nat)) (s : State) : Host.Outcome State Fault Refusal :=
  State.done (s.rxData link raw uncorr)

/-- REPLAYED_UNIT_RECEIVE (R71). -/
def execReplayedUnitReceive (link : Nat) (raw : (List Byte)) (uncorr : (List Nat)) (s : State) : Host.Outcome State Fault Refusal :=
  State.done (s.rxReplayed link raw uncorr)

/-- CONTROL_UNIT_RECEIVE (R73). -/
def execControlUnitReceive (link : Nat) (raw : (List Byte)) (uncorr : (List Nat)) (s : State) : Host.Outcome State Fault Refusal :=
  State.done (s.rxControl link raw uncorr)

/-- IDLE_UNIT_RECEIVE (R66). -/
def execIdleUnitReceive (link : Nat) (raw : (List Byte)) (uncorr : (List Nat)) (s : State) : Host.Outcome State Fault Refusal :=
  State.done (s.rxIdle link raw uncorr)

/-- ACK_TIMER_EXPIRE (R74). -/
def execAckTimerExpire (link : Nat) (s : State) : Host.Outcome State Fault Refusal := State.done (s.ackTimer link)

/-- REPLAY_TIMEOUT (R78). -/
def execReplayTimeout (link : Nat) (seq : Nat) (s : State) : Host.Outcome State Fault Refusal :=
  State.done (s.replayTimeout link seq)

/-- SILENCE_TIMEOUT (R70). -/
def execSilenceTimeout (link : Nat) (s : State) : Host.Outcome State Fault Refusal := State.done (s.silence link)

/-- PAUSE_TIMEOUT (R82). -/
def execPauseTimeout (link : Nat) (s : State) : Host.Outcome State Fault Refusal := State.done (s.pauseTimeout link)

/-- LANE_FAIL (R96). -/
def execLaneFail (link : Nat) (position : Nat) (s : State) : Host.Outcome State Fault Refusal :=
  State.done (s.laneFail link position)

/-- LINK_RETRAIN (R85). -/
def execLinkRetrain (via : Via) (link : Nat) (s : State) : Host.Outcome State Fault Refusal :=
  State.done (s.command via Reg.LINK_RETRAIN link 0 fun t => (.ok, t.retrain link))

/-- LINK_ENABLE_TRUE (R85). -/
def execLinkEnableTrue (via : Via) (link : Nat) (s : State) : Host.Outcome State Fault Refusal :=
  State.done (s.command via Reg.LINK_ENABLE link 1 fun t => t.enableAct link)

/-- LINK_ENABLE_FALSE (R95). -/
def execLinkEnableFalse (via : Via) (link : Nat) (s : State) : Host.Outcome State Fault Refusal :=
  State.done (s.command via Reg.LINK_ENABLE link 0 fun t => t.disableAct link)

/-- TRAINING_START (R86). -/
def execTrainingStart (link : Nat) (s : State) : Host.Outcome State Fault Refusal := State.done (s.trainingStart link)

/-- DETECT_SUCCESS (R86). -/
def execDetectSuccess (link : Nat) (ready : Nat) (s : State) : Host.Outcome State Fault Refusal :=
  State.done (s.detectSuccess link ready)

/-- DETECT_TIMEOUT (R86). -/
def execDetectTimeout (link : Nat) (s : State) : Host.Outcome State Fault Refusal := State.done (s.detectTimeout link)

/-- TRAINING_WORD_RECEIVE (R84). -/
def execTrainingWordReceive (link : Nat) (position : Nat) (word : Word128) (s : State) : Host.Outcome State Fault Refusal :=
  State.done (s.rxTraining link position word.toNat)

/-- LOCK_DEADLINE (R86). -/
def execLockDeadline (link : Nat) (s : State) : Host.Outcome State Fault Refusal := State.done (s.lockDeadline link)

/-- TRAINING_ATTEMPT_TIMEOUT (R86). -/
def execTrainingAttemptTimeout (link : Nat) (s : State) : Host.Outcome State Fault Refusal :=
  State.done (s.attemptTimeout link)

/-- TRAINING_RECORD_REPEAT (R86). -/
def execTrainingRecordRepeat (link : Nat) (s : State) : Host.Outcome State Fault Refusal :=
  State.done (s.recordRepeat link)

/-- TRAINING_RETRY_WAIT (R88). -/
def execTrainingRetryWait (link : Nat) (s : State) : Host.Outcome State Fault Refusal := State.done (s.retryWait link)

/-- FREEWHEEL_EXPIRE (R95). -/
def execFreewheelExpire (link : Nat) (s : State) : Host.Outcome State Fault Refusal :=
  State.done (s.freewheelExpire link)

end Sys2Proof.Machine
end

