-- ==== Sys2Proof/Machine/CmdOntan.lean ====
section
/-! DEFINITION. The meanings of the commands: Ontan, the block states and observation (R44, R45, R484 to R521). -/
namespace Sys2Proof.Machine
open Sys2Proof Sys2Proof.Bits

/-- ONTAN_MII_FRAME (R495). -/
def execOntanMiiFrame (frame : (List Byte)) (s : State) : Host.Outcome State Fault Refusal :=
  State.done (s.miiFrame frame)

/-- I3C_PRIVATE_WRITE (R496). -/
def execI3cPrivateWrite (message : (List Byte)) (s : State) : Host.Outcome State Fault Refusal :=
  State.done (s.i3cWrite message)

/-- I3C_PRIVATE_READ (R496). -/
def execI3cPrivateRead (s : State) : Host.Outcome State Fault Refusal := State.done (s.i3cRead)

/-- I3C_DYNAMIC_ADDRESS (R496). -/
def execI3cDynamicAddress (byStatic : Bool) (static : Nat) (addr : Nat) (s : State) : Host.Outcome State Fault Refusal :=
  State.done (s.i3cAssign byStatic static addr)

/-- I3C_HDR_ENTRY (R45). -/
def execI3cHdrEntry (s : State) : Host.Outcome State Fault Refusal := State.done (s.i3cHdr true)

/-- I3C_HDR_EXIT (R45). -/
def execI3cHdrExit (s : State) : Host.Outcome State Fault Refusal := State.done (s.i3cHdr false)

/-- I3C_SCL_TOO_FAST (R45). -/
def execI3cSclTooFast (s : State) : Host.Outcome State Fault Refusal := State.done (s.i3cFast)

/-- ONTAN_READ (R492). -/
def execOntanRead (carrier : Carrier) (level : Nat) (ctx : Nat) (index : Nat) (sub : Nat) (s : State) : Host.Outcome State Fault Refusal :=
  State.done (s.ontanRead carrier level ctx index sub)

/-- ONTAN_WRITE (R492). -/
def execOntanWrite (carrier : Carrier) (level : Nat) (ctx : Nat) (index : Nat) (sub : Nat) (vtype : Nat) (value : (List Byte)) (s : State) : Host.Outcome State Fault Refusal :=
  State.done (s.ontanWrite carrier level ctx index sub vtype value)

/-- ONTAN_PACKET_RECEIVE (R497). -/
def execOntanPacketReceive (pkt : Packet) (s : State) : Host.Outcome State Fault Refusal :=
  State.done (s.receive 0 .ontan pkt)

/-- RELAY_TIMEOUT (R497). -/
def execRelayTimeout (target : Nat) (s : State) : Host.Outcome State Fault Refusal :=
  State.done (s.relayTimeout target)

/-- ONT_EVENT_REPEAT (R498). -/
def execOntEventRepeat (s : State) : Host.Outcome State Fault Refusal := State.done (s.eventRepeat)

/-- SEC_CHALLENGE (R489). -/
def execSecChallenge (carrier : Carrier) (s : State) : Host.Outcome State Fault Refusal :=
  State.done (s.challengeRead carrier)

/-- SEC_UNLOCK (R489). -/
def execSecUnlock (carrier : Carrier) (response : (List Byte)) (s : State) : Host.Outcome State Fault Refusal :=
  State.done (s.unlockWrite carrier response)

/-- UNLOCK_LOCKOUT_EXPIRE (R489). -/
def execUnlockLockoutExpire (carrier : Carrier) (s : State) : Host.Outcome State Fault Refusal :=
  State.done (s.lockoutOver carrier)

/-- SEC_LOCK (R507). -/
def execSecLock (carrier : Carrier) (s : State) : Host.Outcome State Fault Refusal := State.done (s.lockWrite carrier)

/-- SEC_REVOKE (R507). -/
def execSecRevoke (via : Via) (slot : Nat) (s : State) : Host.Outcome State Fault Refusal :=
  State.done (s.command via Reg.SEC_REVOKE 0 slot fun t => t.revokeAct slot)

/-- BLK_READY (R500). -/
def execBlkReady (via : Via) (s : State) : Host.Outcome State Fault Refusal :=
  State.done (s.command via Reg.BLK_READY 0 0 fun t => t.readyAct)

/-- BLK_RUN (R500). -/
def execBlkRun (via : Via) (s : State) : Host.Outcome State Fault Refusal :=
  State.done (s.command via Reg.BLK_RUN 0 0 fun t => t.runAct)

/-- BLK_DRAIN (R500). -/
def execBlkDrain (via : Via) (s : State) : Host.Outcome State Fault Refusal :=
  State.done (s.command via Reg.BLK_DRAIN 0 0 fun t => t.drainAct)

/-- DRAIN_COMPLETE (R500). -/
def execDrainComplete (s : State) : Host.Outcome State Fault Refusal := State.done (s.drainComplete)

/-- BLK_DRAIN_TIMEOUT (R500). -/
def execBlkDrainTimeout (s : State) : Host.Outcome State Fault Refusal := State.done (s.drainTimeout)

/-- BLK_CONFIGURE (R500). -/
def execBlkConfigure (via : Via) (s : State) : Host.Outcome State Fault Refusal :=
  State.done (s.command via Reg.BLK_CONFIGURE 0 0 fun t => t.configureAct)

/-- BLK_QUARANTINE_EXIT (R500). -/
def execBlkQuarantineExit (via : Via) (s : State) : Host.Outcome State Fault Refusal :=
  State.done (s.command via Reg.BLK_QUARANTINE_EXIT 0 0 fun t => t.quarantineAct)

/-- OBS_CLEAR (R510). -/
def execObsClear (via : Via) (s : State) : Host.Outcome State Fault Refusal :=
  State.done (s.command via Reg.OBS_CLEAR 0 0 fun t => t.obsClearAct)

/-- HISTOGRAM_SAMPLE (R511). -/
def execHistogramSample (s : State) : Host.Outcome State Fault Refusal := State.done (s.histogramSample)

/-- TRC_ENABLE_TRUE (R512). -/
def execTrcEnableTrue (via : Via) (s : State) : Host.Outcome State Fault Refusal :=
  State.done (s.command via Reg.TRC_ENABLE 0 1 fun t => t.traceOnAct)

/-- TRC_ENABLE_FALSE (R513). -/
def execTrcEnableFalse (via : Via) (s : State) : Host.Outcome State Fault Refusal :=
  State.done (s.command via Reg.TRC_ENABLE 0 0 fun t => t.traceOffAct)

/-- TRACE_WRITE (R513). -/
def execTraceWrite (s : State) : Host.Outcome State Fault Refusal := State.done (s.traceWrite)

/-- PC_SAMPLE (R515). -/
def execPcSample (core : Nat) (s : State) : Host.Outcome State Fault Refusal := State.done (s.pcSample core)

/-- BREAKPOINT_HIT (R517). -/
def execBreakpointHit (core : Nat) (s : State) : Host.Outcome State Fault Refusal := State.done (s.breakpoint core)

/-- DBG_HALT (R517). -/
def execDbgHalt (via : Via) (core : Nat) (s : State) : Host.Outcome State Fault Refusal :=
  State.done (s.command via Reg.DBG_HALT core 0 fun t => t.haltAct core)

/-- DBG_DRAIN_COMPLETE (R517). -/
def execDbgDrainComplete (core : Nat) (s : State) : Host.Outcome State Fault Refusal := State.done (s.drained core)

/-- DBG_STEP (R518). -/
def execDbgStep (via : Via) (core : Nat) (s : State) : Host.Outcome State Fault Refusal :=
  State.done (s.command via Reg.DBG_STEP core 0 fun t => t.stepAct core)

/-- DBG_RESUME (R518). -/
def execDbgResume (via : Via) (core : Nat) (s : State) : Host.Outcome State Fault Refusal :=
  State.done (s.command via Reg.DBG_RESUME core 0 fun t => t.resumeAct core)

end Sys2Proof.Machine
end

