-- ==== Sys2Proof/Machine/CmdPacket.lean ====
section
/-! DEFINITION. The meanings of the commands: packets and paths (R103 to R144). -/
namespace Sys2Proof.Machine
open Sys2Proof Sys2Proof.Bits

/-- PACKET_INJECT (R119). -/
def execPacketInject (index : Nat) (s : State) : Host.Outcome State Fault Refusal :=
  State.done (s.injectAndHandle index)

/-- PACKET_HEADER_ARRIVE (R109). -/
def execPacketHeaderArrive (link : Nat) (s : State) : Host.Outcome State Fault Refusal :=
  State.done (s.headerArrive link)

/-- PACKET_COMPLETE (R109). -/
def execPacketComplete (link : Nat) (s : State) : Host.Outcome State Fault Refusal :=
  State.done (s.completeAndHandle link)

/-- PKT_STALL_TIMEOUT (R128). -/
def execPktStallTimeout (link : Nat) (s : State) : Host.Outcome State Fault Refusal :=
  State.done (s.stallTimeout link)

/-- ROUTE_LOAD (R136). -/
def execRouteLoad (via : Via) (s : State) : Host.Outcome State Fault Refusal :=
  State.done (s.command via Reg.ROUTE_LOAD 0 0 fun t => t.routeLoadAct)

/-- ROUTE_LOAD_COMPLETE (R136). -/
def execRouteLoadComplete (s : State) : Host.Outcome State Fault Refusal := State.done (s.routeLoadComplete)

/-- ROUTE_DRAIN_UPDATE (R137). -/
def execRouteDrainUpdate (via : Via) (chip : Nat) (mask : Nat) (s : State) : Host.Outcome State Fault Refusal :=
  State.done (s.command via Reg.ROUTE_DRAIN_UPDATE 0 0 fun t => t.routeDrainAct chip mask)

/-- ROUTE_DRAIN_COMPLETE (R137). -/
def execRouteDrainComplete (s : State) : Host.Outcome State Fault Refusal := State.done (s.routeDrainComplete)

/-- ROUTE_DRAIN_TIMEOUT (R137). -/
def execRouteDrainTimeout (s : State) : Host.Outcome State Fault Refusal := State.done (s.routeDrainTimeout)

/-- LPORT_LINKS_WRITE (R116). -/
def execLportLinksWrite (via : Via) (lport : Nat) (mask : Nat) (s : State) : Host.Outcome State Fault Refusal :=
  State.done (s.command via Reg.LPORT_LINKS lport mask fun t => t.lportAct lport mask)

/-- CTX_ROUTE_BIND (R113). -/
def execCtxRouteBind (via : Via) (ctx : Nat) (s : State) : Host.Outcome State Fault Refusal :=
  State.done (s.command via Reg.CTX_ROUTE_BIND ctx 0 fun t => t.bindAct ctx)

/-- ROUTE_BIND_COMPLETE (R113). -/
def execRouteBindComplete (ctx : Nat) (s : State) : Host.Outcome State Fault Refusal :=
  State.done (s.bindComplete ctx)

end Sys2Proof.Machine
end

