-- ==== Sys2Proof/Machine/CmdRemote.lean ====
section
/-! DEFINITION. The meanings of the commands: remote operations, at the requester and at the target (R145 to R178). -/
namespace Sys2Proof.Machine
open Sys2Proof Sys2Proof.Bits

/-- LOAD_REQ_RECEIVE (R154). -/
def execLoadReqReceive (link : Nat) (pkt : Packet) (s : State) : Host.Outcome State Fault Refusal :=
  State.done (s.receive (s.partOfLink link) .loadReq pkt)

/-- LOAD_RSP_RECEIVE (R153). -/
def execLoadRspReceive (pkt : Packet) (s : State) : Host.Outcome State Fault Refusal :=
  State.done (s.receive 0 .loadRsp pkt)

/-- STORE_RECEIVE (R167). -/
def execStoreReceive (link : Nat) (pkt : Packet) (s : State) : Host.Outcome State Fault Refusal :=
  State.done (s.receive (s.partOfLink link) .store pkt)

/-- COPY_RECEIVE (R167). -/
def execCopyReceive (link : Nat) (pkt : Packet) (s : State) : Host.Outcome State Fault Refusal :=
  State.done (s.receive (s.partOfLink link) .copy pkt)

/-- ATOMIC_REQ_RECEIVE (R148). -/
def execAtomicReqReceive (link : Nat) (pkt : Packet) (s : State) : Host.Outcome State Fault Refusal :=
  State.done (s.receive (s.partOfLink link) .atomicReq pkt)

/-- ATOMIC_RSP_RECEIVE (R148). -/
def execAtomicRspReceive (pkt : Packet) (s : State) : Host.Outcome State Fault Refusal :=
  State.done (s.receive 0 .atomicRsp pkt)

/-- GATHER_REQ_RECEIVE (R171). -/
def execGatherReqReceive (link : Nat) (pkt : Packet) (s : State) : Host.Outcome State Fault Refusal :=
  State.done (s.receive (s.partOfLink link) .gatherReq pkt)

/-- SCATTER_RECEIVE (R171). -/
def execScatterReceive (link : Nat) (pkt : Packet) (s : State) : Host.Outcome State Fault Refusal :=
  State.done (s.receive (s.partOfLink link) .scatter pkt)

/-- COMPLETION_RECEIVE (R165). -/
def execCompletionReceive (pkt : Packet) (s : State) : Host.Outcome State Fault Refusal :=
  State.done (s.receive 0 .completion pkt)

/-- NEG_COMPLETION_RECEIVE (R165). -/
def execNegCompletionReceive (pkt : Packet) (s : State) : Host.Outcome State Fault Refusal :=
  State.done (s.receive 0 .negCompletion pkt)

/-- WINDOW_REQ_RECEIVE (R164). -/
def execWindowReqReceive (pkt : Packet) (s : State) : Host.Outcome State Fault Refusal :=
  State.done (s.receive 0 .windowReq pkt)

/-- WINDOW_GRANT_RECEIVE (R164). -/
def execWindowGrantReceive (pkt : Packet) (s : State) : Host.Outcome State Fault Refusal :=
  State.done (s.receive 0 .windowGrant pkt)

/-- WINDOW_GRANT_DEFERRED (R164). -/
def execWindowGrantDeferred (chip : Nat) (s : State) : Host.Outcome State Fault Refusal :=
  State.done (s.grantDeferred chip)

/-- RMT_LOAD (R145). -/
def execRmtLoad (core : Nat) (s : State) : Host.Outcome State Fault Refusal :=
  State.done ((s.fetchArg core).rmtDesc core 1)

/-- RMT_STORE (R145). -/
def execRmtStore (core : Nat) (s : State) : Host.Outcome State Fault Refusal :=
  State.done ((s.fetchArg core).rmtDesc core 2)

/-- RMT_COPY_PUSH (R147). -/
def execRmtCopyPush (core : Nat) (s : State) : Host.Outcome State Fault Refusal :=
  State.done ((s.fetchArg core).rmtDesc core 3)

/-- RMT_COPY_PULL (R147). -/
def execRmtCopyPull (core : Nat) (s : State) : Host.Outcome State Fault Refusal :=
  State.done ((s.fetchArg core).rmtDesc core 4)

/-- RMT_ATOMIC (R148). -/
def execRmtAtomic (core : Nat) (s : State) : Host.Outcome State Fault Refusal :=
  State.done ((s.fetchArg core).rmtDesc core 5)

/-- RMT_GATHER (R170). -/
def execRmtGather (core : Nat) (s : State) : Host.Outcome State Fault Refusal :=
  State.done ((s.fetchArg core).rmtDesc core 6)

/-- RMT_SCATTER (R170). -/
def execRmtScatter (core : Nat) (s : State) : Host.Outcome State Fault Refusal :=
  State.done ((s.fetchArg core).rmtDesc core 7)

/-- TRANSACTION_ISSUE (R159). -/
def execTransactionIssue (index : Nat) (s : State) : Host.Outcome State Fault Refusal := State.done (s.issue index)

/-- RMT_REQ_TIMEOUT (R165). -/
def execRmtReqTimeout (tag : Nat) (seq : Nat) (s : State) : Host.Outcome State Fault Refusal :=
  State.done (s.reqTimeout tag seq)

/-- RMT_BACKOFF_EXPIRE (R165). -/
def execRmtBackoffExpire (tag : Nat) (seq : Nat) (s : State) : Host.Outcome State Fault Refusal :=
  State.done (s.backoffExpire tag seq)

/-- RMT_PARK_LIMIT (R165). -/
def execRmtParkLimit (tag : Nat) (seq : Nat) (s : State) : Host.Outcome State Fault Refusal :=
  State.done (s.parkLimit tag seq)

/-- COMPLETION_COALESCE (R157). -/
def execCompletionCoalesce (src : Nat) (tag : Nat) (gen : Nat) (s : State) : Host.Outcome State Fault Refusal :=
  State.done (s.flushMask src tag gen)

/-- RELEASE_DELAY (R161). -/
def execReleaseDelay (chip : Nat) (s : State) : Host.Outcome State Fault Refusal := State.done (s.releaseDelay chip)

/-- WINDOW_LEASE_EXPIRE (R164). -/
def execWindowLeaseExpire (chip : Nat) (s : State) : Host.Outcome State Fault Refusal :=
  State.done (s.leaseExpire chip)

/-- CACHE_HOLD_EXPIRE (R167). -/
def execCacheHoldExpire (src : Nat) (tag : Nat) (gen : Nat) (s : State) : Host.Outcome State Fault Refusal :=
  State.done (s.cacheExpire src tag gen)

/-- CAS_PART_EXPIRE (R155). -/
def execCasPartExpire (src : Nat) (tag : Nat) (gen : Nat) (s : State) : Host.Outcome State Fault Refusal :=
  State.done (s.casExpire src tag gen)

/-- TAG_QUARANTINE_EXPIRE (R168). -/
def execTagQuarantineExpire (tag : Nat) (s : State) : Host.Outcome State Fault Refusal :=
  State.done (s.quarantineEnd tag)

end Sys2Proof.Machine
end

