-- ==== Sys2Proof/Machine/CmdReset.lean ====
section
/-! DEFINITION. The meanings of the commands: reset, clocks and the host port (R24 to R53). -/
namespace Sys2Proof.Machine
open Sys2Proof Sys2Proof.Bits

/-- POR_N_ASSERT (R49). -/
def execPorNAssert (s : State) : Host.Outcome State Fault Refusal := State.done (s.porReset)

/-- BLK_RST_N_ASSERT (R49). -/
def execBlkRstNAssert (s : State) : Host.Outcome State Fault Refusal := State.done (s.blkReset)

/-- TRST_N_ASSERT (R49). -/
def execTrstNAssert (s : State) : Host.Outcome State Fault Refusal := State.done (s.onTap fun _ => TapState.reset)

/-- RESET_RELEASE (R50). -/
def execResetRelease (input : ResetInput) (s : State) : Host.Outcome State Fault Refusal :=
  State.done (s.releaseReset input)

/-- RESET_STRETCHER_END (R50). -/
def execResetStretcherEnd (s : State) : Host.Outcome State Fault Refusal := State.done (s.stretcherEnd)

/-- CLOCK_DETECTED (R50). -/
def execClockDetected (clock : ClockId) (s : State) : Host.Outcome State Fault Refusal :=
  State.done (s.clockSeen clock)

/-- TABLE_CLEAR_COMPLETE (R50). -/
def execTableClearComplete (s : State) : Host.Outcome State Fault Refusal := State.done (s.tablesClear)

/-- CLK_ABSENT_TIMEOUT (R51). -/
def execClkAbsentTimeout (s : State) : Host.Outcome State Fault Refusal := State.done (s.clocksAbsent)

/-- CLOCK_MONITOR_WINDOW (R53). -/
def execClockMonitorWindow (clock : ClockId) (count : Nat) (s : State) : Host.Outcome State Fault Refusal :=
  State.done (s.clockWindow clock count)

/-- POWER_REMOVED (R450). -/
def execPowerRemoved (s : State) : Host.Outcome State Fault Refusal := State.done (s.powerOff)

/-- TAP_SCAN (R47). -/
def execTapScan (scan : TapScan) (s : State) : Host.Outcome State Fault Refusal := State.done (s.tapScan scan)

/-- GMP_REQUEST_ISSUE (R24). -/
def execGmpRequestIssue (port : Nat) (tag : Nat) (op : GmpOp) (addr : Nat) (beats : Nat) (fence : Bool) (data : (List GmpBeat)) (ready : Bool) (s : State) : Host.Outcome State Fault Refusal :=
  State.done (s.gmpIssue port 
    { tag := tag, op := op, addr := addr, beats := beats, fence := fence, accepted := false, data := data, sent := 0, got := [], addrErr := false } ready)

/-- GMP_WRITE_DATA_BEAT (R24). -/
def execGmpWriteDataBeat (port : Nat) (s : State) : Host.Outcome State Fault Refusal :=
  State.done (s.gmpDataBeat port)

/-- GMP_RESPONSE_BEAT (R25). -/
def execGmpResponseBeat (port : Nat) (tag : Nat) (beat : Nat) (status : Nat) (data : (List Byte)) (s : State) : Host.Outcome State Fault Refusal :=
  State.done (s.gmpResponse port tag beat status data)

/-- GMP_STALL_TIMEOUT (R27). -/
def execGmpStallTimeout (port : Nat) (tag : Nat) (s : State) : Host.Outcome State Fault Refusal :=
  State.done (s.gmpStall port tag)

/-- GMP_PORT_DISABLE (R506). -/
def execGmpPortDisable (port : Nat) (s : State) : Host.Outcome State Fault Refusal := State.done (s.portOff port)

/-- GMP_PORT_ENABLE (R506). -/
def execGmpPortEnable (port : Nat) (s : State) : Host.Outcome State Fault Refusal := State.done (s.portOn port)

/-- HCP_REGISTER_WRITE (R40). -/
def execHcpRegisterWrite (offset : Nat) (value : Nat) (strobe : Nat) (s : State) : Host.Outcome State Fault Refusal :=
  State.done (s.hcpWrite offset value strobe)

/-- DOORBELL_WRITE (R39). -/
def execDoorbellWrite (ctx : Nat) (tail : Nat) (s : State) : Host.Outcome State Fault Refusal :=
  State.done (s.doorbell ctx tail)

/-- IV_ACK (R42). -/
def execIvAck (vector : Nat) (asserted : Bool) (s : State) : Host.Outcome State Fault Refusal :=
  State.done (s.ackVector vector asserted)

/-- IV_UNMASK (R42). -/
def execIvUnmask (vector : Nat) (s : State) : Host.Outcome State Fault Refusal := State.done (s.unmaskVector vector)

/-- HCP_INITIATOR_WRITE (R36). -/
def execHcpInitiatorWrite (s : State) : Host.Outcome State Fault Refusal := State.done (s.initiatorWrite)

/-- HCP_STALL_TIMEOUT (R41). -/
def execHcpStallTimeout (s : State) : Host.Outcome State Fault Refusal := State.done (s.hcpStall)

/-- FQ_HEAD_WRITE (R191). -/
def execFqHeadWrite (head : Nat) (s : State) : Host.Outcome State Fault Refusal := State.done (s.fqHead head)

/-- FQ_RESOLVE_RETRY (R188). -/
def execFqResolveRetry (ident : Nat) (s : State) : Host.Outcome State Fault Refusal :=
  State.done (s.resolveRetry ident)

/-- FQ_RESOLVE_REFUSE (R188). -/
def execFqResolveRefuse (ident : Nat) (s : State) : Host.Outcome State Fault Refusal :=
  State.done (s.resolveRefuse ident)

/-- IQ_HEAD_WRITE (R195). -/
def execIqHeadWrite (head : Nat) (s : State) : Host.Outcome State Fault Refusal := State.done (s.iqHead head)

/-- INV_GO (R196). -/
def execInvGo (ctx : Nat) (all : Bool) (ticket : Nat) (s : State) : Host.Outcome State Fault Refusal :=
  State.done (s.invGo ctx all ticket)

/-- INV_COMPLETE (R196). -/
def execInvComplete (s : State) : Host.Outcome State Fault Refusal := State.done (s.invComplete)

/-- PAGE_WALK (R185). -/
def execPageWalk (part : Nat) (ctx : Nat) (offset : Nat) (access : AccessKind) (who : Accessor) (s : State) : Host.Outcome State Fault Refusal :=
  State.done (s.pageWalk part ctx offset access who)

/-- FAULT_RECORD_WRITE (R191). -/
def execFaultRecordWrite (s : State) : Host.Outcome State Fault Refusal := State.done (s.faultRecordWrite)

/-- XLT_SERVICE_TIMEOUT (R190). -/
def execXltServiceTimeout (ctx : Nat) (offset : Nat) (kind : XltType) (s : State) : Host.Outcome State Fault Refusal :=
  State.done (s.serviceTimeout ctx offset kind)

/-- FAULT_ID_HOLD_EXPIRE (R190). -/
def execFaultIdHoldExpire (ident : Nat) (s : State) : Host.Outcome State Fault Refusal :=
  State.done (s.idHoldExpire ident)

/-- XLT_ACC_FLUSH (R194). -/
def execXltAccFlush (s : State) : Host.Outcome State Fault Refusal := State.done (s.accFlush)

/-- XLT_PT_ROOT_WRITE (R200). -/
def execXltPtRootWrite (via : Via) (ctx : Nat) (value : Nat) (s : State) : Host.Outcome State Fault Refusal :=
  State.done (s.command via Reg.XLT_PT_ROOT ctx value fun t => t.ptRootAct ctx value)

end Sys2Proof.Machine
end

