-- ==== Sys2Proof/Machine/CmdTask.lean ====
section
/-! DEFINITION. The meanings of the commands: contexts, submissions, tasks and images (R272 to R300). -/
namespace Sys2Proof.Machine
open Sys2Proof Sys2Proof.Bits

/-- CTX_OPEN (R275). -/
def execCtxOpen (via : Via) (ctx : Nat) (s : State) : Host.Outcome State Fault Refusal :=
  State.done (s.command via Reg.CTX_OPEN ctx 0 fun t => t.ctxOpenAct ctx)

/-- CTX_CLOSE (R279). -/
def execCtxClose (via : Via) (ctx : Nat) (s : State) : Host.Outcome State Fault Refusal :=
  State.done (s.command via Reg.CTX_CLOSE ctx 0 fun t => t.ctxCloseAct ctx)

/-- CTX_RESUME (R288). -/
def execCtxResume (via : Via) (ctx : Nat) (s : State) : Host.Outcome State Fault Refusal :=
  State.done (s.command via Reg.CTX_RESUME ctx 0 fun t => t.ctxResumeAct ctx)

/-- CTX_CORES_WRITE (R277). -/
def execCtxCoresWrite (via : Via) (ctx : Nat) (mask : Nat) (s : State) : Host.Outcome State Fault Refusal :=
  State.done (s.command via Reg.CTX_CORES ctx mask fun t => t.ctxCoresAct ctx mask)

/-- SUBMISSION_READ (R283). -/
def execSubmissionRead (ctx : Nat) (s : State) : Host.Outcome State Fault Refusal := State.done (s.submissionRead ctx)

/-- TASK_ADMIT (R284). -/
def execTaskAdmit (ctx : Nat) (s : State) : Host.Outcome State Fault Refusal := State.done (s.taskAdmit ctx)

/-- TASK_START (R286). -/
def execTaskStart (s : State) : Host.Outcome State Fault Refusal := State.done (s.taskStart)

/-- TASK_END (R287). -/
def execTaskEnd (core : Nat) (s : State) : Host.Outcome State Fault Refusal := State.done (s.taskEnd core)

/-- CTX_IMAGE_LOAD (R292). -/
def execCtxImageLoad (via : Via) (ctx : Nat) (s : State) : Host.Outcome State Fault Refusal :=
  State.done (s.command via Reg.CTX_IMAGE_LOAD ctx 0 fun t => t.imageLoadAct ctx)

/-- IMAGE_VERIFY_COMPLETE (R292). -/
def execImageVerifyComplete (ctx : Nat) (s : State) : Host.Outcome State Fault Refusal :=
  State.done (s.imageVerified ctx)

/-- IMG_PUSH_GO (R293). -/
def execImgPushGo (via : Via) (s : State) : Host.Outcome State Fault Refusal :=
  State.done (s.command via Reg.IMG_PUSH_GO 0 0 fun t => t.pushAct)

/-- IMAGE_LOAD_RECEIVE (R293). -/
def execImageLoadReceive (pkt : Packet) (s : State) : Host.Outcome State Fault Refusal :=
  State.done (s.receive 0 .imageLoad pkt)

end Sys2Proof.Machine
end

