-- ==== Sys2Proof/Machine/Dispatch.lean ====
section
/-! DEFINITION. The command table: each command and its meaning, one arm for each row. -/
namespace Sys2Proof.Machine
open Sys2Proof

/-- The effect of a command on everything but the queue. -/
def exec (i : Instr) (s : State) : Host.Outcome State Fault Refusal :=
  match i with
  | .porNAssert => Sys2Proof.Machine.execPorNAssert s
  | .blkRstNAssert => Sys2Proof.Machine.execBlkRstNAssert s
  | .trstNAssert => Sys2Proof.Machine.execTrstNAssert s
  | .resetRelease input => Sys2Proof.Machine.execResetRelease input s
  | .resetStretcherEnd => Sys2Proof.Machine.execResetStretcherEnd s
  | .clockDetected clock => Sys2Proof.Machine.execClockDetected clock s
  | .tableClearComplete => Sys2Proof.Machine.execTableClearComplete s
  | .clkAbsentTimeout => Sys2Proof.Machine.execClkAbsentTimeout s
  | .clockMonitorWindow clock count => Sys2Proof.Machine.execClockMonitorWindow clock count s
  | .gmpRequestIssue port tag op addr beats fence data ready => Sys2Proof.Machine.execGmpRequestIssue port tag op addr beats fence data ready s
  | .gmpWriteDataBeat port => Sys2Proof.Machine.execGmpWriteDataBeat port s
  | .gmpResponseBeat port tag beat status data => Sys2Proof.Machine.execGmpResponseBeat port tag beat status data s
  | .gmpStallTimeout port tag => Sys2Proof.Machine.execGmpStallTimeout port tag s
  | .gmpPortDisable port => Sys2Proof.Machine.execGmpPortDisable port s
  | .gmpPortEnable port => Sys2Proof.Machine.execGmpPortEnable port s
  | .hcpRegisterWrite offset value strobe => Sys2Proof.Machine.execHcpRegisterWrite offset value strobe s
  | .doorbellWrite ctx tail => Sys2Proof.Machine.execDoorbellWrite ctx tail s
  | .ivAck vector asserted => Sys2Proof.Machine.execIvAck vector asserted s
  | .ivUnmask vector => Sys2Proof.Machine.execIvUnmask vector s
  | .hcpInitiatorWrite => Sys2Proof.Machine.execHcpInitiatorWrite s
  | .hcpStallTimeout => Sys2Proof.Machine.execHcpStallTimeout s
  | .fqHeadWrite head => Sys2Proof.Machine.execFqHeadWrite head s
  | .fqResolveRetry ident => Sys2Proof.Machine.execFqResolveRetry ident s
  | .fqResolveRefuse ident => Sys2Proof.Machine.execFqResolveRefuse ident s
  | .iqHeadWrite head => Sys2Proof.Machine.execIqHeadWrite head s
  | .invGo ctx all ticket => Sys2Proof.Machine.execInvGo ctx all ticket s
  | .invComplete => Sys2Proof.Machine.execInvComplete s
  | .ontanMiiFrame frame => Sys2Proof.Machine.execOntanMiiFrame frame s
  | .i3cPrivateWrite message => Sys2Proof.Machine.execI3cPrivateWrite message s
  | .i3cPrivateRead => Sys2Proof.Machine.execI3cPrivateRead s
  | .i3cDynamicAddress byStatic static addr => Sys2Proof.Machine.execI3cDynamicAddress byStatic static addr s
  | .i3cHdrEntry => Sys2Proof.Machine.execI3cHdrEntry s
  | .i3cHdrExit => Sys2Proof.Machine.execI3cHdrExit s
  | .i3cSclTooFast => Sys2Proof.Machine.execI3cSclTooFast s
  | .trfCadenceInEdge => Sys2Proof.Machine.execTrfCadenceInEdge s
  | .pmiRequest => Sys2Proof.Machine.execPmiRequest s
  | .pmiReqAck => Sys2Proof.Machine.execPmiReqAck s
  | .pmiNoackTimeout => Sys2Proof.Machine.execPmiNoackTimeout s
  | .pmiPgoodFall => Sys2Proof.Machine.execPmiPgoodFall s
  | .pmiVrAlertFall => Sys2Proof.Machine.execPmiVrAlertFall s
  | .vrAlertEnd => Sys2Proof.Machine.execVrAlertEnd s
  | .transmitUnitBoundary link => Sys2Proof.Machine.execTransmitUnitBoundary link s
  | .dataUnitReceive link raw uncorr => Sys2Proof.Machine.execDataUnitReceive link raw uncorr s
  | .replayedUnitReceive link raw uncorr => Sys2Proof.Machine.execReplayedUnitReceive link raw uncorr s
  | .controlUnitReceive link raw uncorr => Sys2Proof.Machine.execControlUnitReceive link raw uncorr s
  | .idleUnitReceive link raw uncorr => Sys2Proof.Machine.execIdleUnitReceive link raw uncorr s
  | .ackTimerExpire link => Sys2Proof.Machine.execAckTimerExpire link s
  | .replayTimeout link seq => Sys2Proof.Machine.execReplayTimeout link seq s
  | .silenceTimeout link => Sys2Proof.Machine.execSilenceTimeout link s
  | .pauseTimeout link => Sys2Proof.Machine.execPauseTimeout link s
  | .laneFail link position => Sys2Proof.Machine.execLaneFail link position s
  | .linkRetrain via link => Sys2Proof.Machine.execLinkRetrain via link s
  | .linkEnableTrue via link => Sys2Proof.Machine.execLinkEnableTrue via link s
  | .linkEnableFalse via link => Sys2Proof.Machine.execLinkEnableFalse via link s
  | .trainingStart link => Sys2Proof.Machine.execTrainingStart link s
  | .detectSuccess link ready => Sys2Proof.Machine.execDetectSuccess link ready s
  | .detectTimeout link => Sys2Proof.Machine.execDetectTimeout link s
  | .trainingWordReceive link position word => Sys2Proof.Machine.execTrainingWordReceive link position word s
  | .lockDeadline link => Sys2Proof.Machine.execLockDeadline link s
  | .trainingAttemptTimeout link => Sys2Proof.Machine.execTrainingAttemptTimeout link s
  | .trainingRecordRepeat link => Sys2Proof.Machine.execTrainingRecordRepeat link s
  | .trainingRetryWait link => Sys2Proof.Machine.execTrainingRetryWait link s
  | .freewheelExpire link => Sys2Proof.Machine.execFreewheelExpire link s
  | .packetInject index => Sys2Proof.Machine.execPacketInject index s
  | .packetHeaderArrive link => Sys2Proof.Machine.execPacketHeaderArrive link s
  | .packetComplete link => Sys2Proof.Machine.execPacketComplete link s
  | .pktStallTimeout link => Sys2Proof.Machine.execPktStallTimeout link s
  | .loadReqReceive link pkt => Sys2Proof.Machine.execLoadReqReceive link pkt s
  | .loadRspReceive pkt => Sys2Proof.Machine.execLoadRspReceive pkt s
  | .storeReceive link pkt => Sys2Proof.Machine.execStoreReceive link pkt s
  | .copyReceive link pkt => Sys2Proof.Machine.execCopyReceive link pkt s
  | .atomicReqReceive link pkt => Sys2Proof.Machine.execAtomicReqReceive link pkt s
  | .atomicRspReceive pkt => Sys2Proof.Machine.execAtomicRspReceive pkt s
  | .gatherReqReceive link pkt => Sys2Proof.Machine.execGatherReqReceive link pkt s
  | .scatterReceive link pkt => Sys2Proof.Machine.execScatterReceive link pkt s
  | .completionReceive pkt => Sys2Proof.Machine.execCompletionReceive pkt s
  | .negCompletionReceive pkt => Sys2Proof.Machine.execNegCompletionReceive pkt s
  | .windowReqReceive pkt => Sys2Proof.Machine.execWindowReqReceive pkt s
  | .windowGrantReceive pkt => Sys2Proof.Machine.execWindowGrantReceive pkt s
  | .windowGrantDeferred chip => Sys2Proof.Machine.execWindowGrantDeferred chip s
  | .rmtLoad core => Sys2Proof.Machine.execRmtLoad core s
  | .rmtStore core => Sys2Proof.Machine.execRmtStore core s
  | .rmtCopyPush core => Sys2Proof.Machine.execRmtCopyPush core s
  | .rmtCopyPull core => Sys2Proof.Machine.execRmtCopyPull core s
  | .rmtAtomic core => Sys2Proof.Machine.execRmtAtomic core s
  | .rmtGather core => Sys2Proof.Machine.execRmtGather core s
  | .rmtScatter core => Sys2Proof.Machine.execRmtScatter core s
  | .transactionIssue index => Sys2Proof.Machine.execTransactionIssue index s
  | .rmtReqTimeout tag seq => Sys2Proof.Machine.execRmtReqTimeout tag seq s
  | .rmtBackoffExpire tag seq => Sys2Proof.Machine.execRmtBackoffExpire tag seq s
  | .rmtParkLimit tag seq => Sys2Proof.Machine.execRmtParkLimit tag seq s
  | .completionCoalesce src tag gen => Sys2Proof.Machine.execCompletionCoalesce src tag gen s
  | .releaseDelay chip => Sys2Proof.Machine.execReleaseDelay chip s
  | .windowLeaseExpire chip => Sys2Proof.Machine.execWindowLeaseExpire chip s
  | .cacheHoldExpire src tag gen => Sys2Proof.Machine.execCacheHoldExpire src tag gen s
  | .casPartExpire src tag gen => Sys2Proof.Machine.execCasPartExpire src tag gen s
  | .tagQuarantineExpire tag => Sys2Proof.Machine.execTagQuarantineExpire tag s
  | .pageWalk part ctx offset access who => Sys2Proof.Machine.execPageWalk part ctx offset access who s
  | .faultRecordWrite => Sys2Proof.Machine.execFaultRecordWrite s
  | .xltServiceTimeout ctx offset kind => Sys2Proof.Machine.execXltServiceTimeout ctx offset kind s
  | .faultIdHoldExpire ident => Sys2Proof.Machine.execFaultIdHoldExpire ident s
  | .xltAccFlush => Sys2Proof.Machine.execXltAccFlush s
  | .xltPtRootWrite via ctx value => Sys2Proof.Machine.execXltPtRootWrite via ctx value s
  | .matmul core => Sys2Proof.Machine.execMatmul core s
  | .matmulEnd core => Sys2Proof.Machine.execMatmulEnd core s
  | .vectorPass core => Sys2Proof.Machine.execVectorPass core s
  | .vectorPassEnd core => Sys2Proof.Machine.execVectorPassEnd core s
  | .copyLocal core => Sys2Proof.Machine.execCopyLocal core s
  | .unwrite core => Sys2Proof.Machine.execUnwrite core s
  | .localCopyEnd core index => Sys2Proof.Machine.execLocalCopyEnd core index s
  | .ccAdd core rd ra rb => Sys2Proof.Machine.execCcAdd core rd ra rb s
  | .ccSub core rd ra rb => Sys2Proof.Machine.execCcSub core rd ra rb s
  | .ccAnd core rd ra rb => Sys2Proof.Machine.execCcAnd core rd ra rb s
  | .ccOr core rd ra rb => Sys2Proof.Machine.execCcOr core rd ra rb s
  | .ccXor core rd ra rb => Sys2Proof.Machine.execCcXor core rd ra rb s
  | .ccShl core rd ra rb => Sys2Proof.Machine.execCcShl core rd ra rb s
  | .ccShr core rd ra rb => Sys2Proof.Machine.execCcShr core rd ra rb s
  | .ccSar core rd ra rb => Sys2Proof.Machine.execCcSar core rd ra rb s
  | .ccMul core rd ra rb => Sys2Proof.Machine.execCcMul core rd ra rb s
  | .ccMulhu core rd ra rb => Sys2Proof.Machine.execCcMulhu core rd ra rb s
  | .ccSlt core rd ra rb => Sys2Proof.Machine.execCcSlt core rd ra rb s
  | .ccSltu core rd ra rb => Sys2Proof.Machine.execCcSltu core rd ra rb s
  | .ccAddi core rd ra imm => Sys2Proof.Machine.execCcAddi core rd ra imm s
  | .ccAndi core rd ra imm => Sys2Proof.Machine.execCcAndi core rd ra imm s
  | .ccOri core rd ra imm => Sys2Proof.Machine.execCcOri core rd ra imm s
  | .ccHins core rd half imm => Sys2Proof.Machine.execCcHins core rd half imm s
  | .ccHnew core rd half imm => Sys2Proof.Machine.execCcHnew core rd half imm s
  | .ccLd core size rd ra imm => Sys2Proof.Machine.execCcLd core size rd ra imm s
  | .ccSt core size rd ra imm => Sys2Proof.Machine.execCcSt core size rd ra imm s
  | .ccAmo core code wide rd ra rb => Sys2Proof.Machine.execCcAmo core code wide rd ra rb s
  | .ccSignal core ra rb => Sys2Proof.Machine.execCcSignal core ra rb s
  | .ccSet core ra rb => Sys2Proof.Machine.execCcSet core ra rb s
  | .ccWait core ra rb => Sys2Proof.Machine.execCcWait core ra rb s
  | .waitSatisfied core => Sys2Proof.Machine.execWaitSatisfied core s
  | .ccRead core rd ra => Sys2Proof.Machine.execCcRead core rd ra s
  | .ccCset core ra rb => Sys2Proof.Machine.execCcCset core ra rb s
  | .ccCread core rd ra => Sys2Proof.Machine.execCcCread core rd ra s
  | .ccWaitc core ra rb => Sys2Proof.Machine.execCcWaitc core ra rb s
  | .ccFarFlush core ra rb => Sys2Proof.Machine.execCcFarFlush core ra rb s
  | .ccFarDrop core ra rb => Sys2Proof.Machine.execCcFarDrop core ra rb s
  | .ccFence core => Sys2Proof.Machine.execCcFence core s
  | .farMaintenanceComplete core => Sys2Proof.Machine.execFarMaintenanceComplete core s
  | .ccEnqMatrix core ra => Sys2Proof.Machine.execCcEnqMatrix core ra s
  | .ccEnqVector core ra => Sys2Proof.Machine.execCcEnqVector core ra s
  | .ccEnqDma core ra => Sys2Proof.Machine.execCcEnqDma core ra s
  | .ccFarWindowSet core window ra => Sys2Proof.Machine.execCcFarWindowSet core window ra s
  | .ccMaskSetCount core mask ra => Sys2Proof.Machine.execCcMaskSetCount core mask ra s
  | .ccMaskSetSpad core mask ra => Sys2Proof.Machine.execCcMaskSetSpad core mask ra s
  | .ccTrigArm core slot ra => Sys2Proof.Machine.execCcTrigArm core slot ra s
  | .ccTrigDisarm core slot => Sys2Proof.Machine.execCcTrigDisarm core slot s
  | .ccCvInit core unit rb => Sys2Proof.Machine.execCcCvInit core unit rb s
  | .ccCvFeed1 core unit rb => Sys2Proof.Machine.execCcCvFeed1 core unit rb s
  | .ccCvFeed2 core unit rb => Sys2Proof.Machine.execCcCvFeed2 core unit rb s
  | .ccCvFeed4 core unit rb => Sys2Proof.Machine.execCcCvFeed4 core unit rb s
  | .ccCvFeed8 core unit rb => Sys2Proof.Machine.execCcCvFeed8 core unit rb s
  | .ccCvFinal core unit rd => Sys2Proof.Machine.execCcCvFinal core unit rd s
  | .ccCvGet core unit rd => Sys2Proof.Machine.execCcCvGet core unit rd s
  | .ccCvPut core unit rb => Sys2Proof.Machine.execCcCvPut core unit rb s
  | .ccCvGeta core unit rd => Sys2Proof.Machine.execCcCvGeta core unit rd s
  | .ccCvPuta core unit rb => Sys2Proof.Machine.execCcCvPuta core unit rb s
  | .ccCvAppend core unit ra => Sys2Proof.Machine.execCcCvAppend core unit ra s
  | .ccCvCheck core unit rd ra => Sys2Proof.Machine.execCcCvCheck core unit rd ra s
  | .ccCvLedger core unit ra rb => Sys2Proof.Machine.execCcCvLedger core unit ra rb s
  | .ccMarkBegin core ra => Sys2Proof.Machine.execCcMarkBegin core ra s
  | .ccMarkEnd core ra => Sys2Proof.Machine.execCcMarkEnd core ra s
  | .ccMarkPoint core ra => Sys2Proof.Machine.execCcMarkPoint core ra s
  | .ccBeq core rd ra imm => Sys2Proof.Machine.execCcBeq core rd ra imm s
  | .ccBne core rd ra imm => Sys2Proof.Machine.execCcBne core rd ra imm s
  | .ccBlt core rd ra imm => Sys2Proof.Machine.execCcBlt core rd ra imm s
  | .ccBge core rd ra imm => Sys2Proof.Machine.execCcBge core rd ra imm s
  | .ccBltu core rd ra imm => Sys2Proof.Machine.execCcBltu core rd ra imm s
  | .ccBgeu core rd ra imm => Sys2Proof.Machine.execCcBgeu core rd ra imm s
  | .ccJal core rd imm => Sys2Proof.Machine.execCcJal core rd imm s
  | .ccJr core rd ra => Sys2Proof.Machine.execCcJr core rd ra s
  | .ccEnd core imm => Sys2Proof.Machine.execCcEnd core imm s
  | .farFillComplete core => Sys2Proof.Machine.execFarFillComplete core s
  | .directoryGrant bank => Sys2Proof.Machine.execDirectoryGrant bank s
  | .farWritebackComplete index => Sys2Proof.Machine.execFarWritebackComplete index s
  | .memZeroGo via ctx => Sys2Proof.Machine.execMemZeroGo via ctx s
  | .memZeroComplete ctx => Sys2Proof.Machine.execMemZeroComplete ctx s
  | .ctxOpen via ctx => Sys2Proof.Machine.execCtxOpen via ctx s
  | .ctxClose via ctx => Sys2Proof.Machine.execCtxClose via ctx s
  | .ctxResume via ctx => Sys2Proof.Machine.execCtxResume via ctx s
  | .ctxCoresWrite via ctx mask => Sys2Proof.Machine.execCtxCoresWrite via ctx mask s
  | .ctxRouteBind via ctx => Sys2Proof.Machine.execCtxRouteBind via ctx s
  | .routeBindComplete ctx => Sys2Proof.Machine.execRouteBindComplete ctx s
  | .submissionRead ctx => Sys2Proof.Machine.execSubmissionRead ctx s
  | .taskAdmit ctx => Sys2Proof.Machine.execTaskAdmit ctx s
  | .taskStart => Sys2Proof.Machine.execTaskStart s
  | .taskEnd core => Sys2Proof.Machine.execTaskEnd core s
  | .ctxImageLoad via ctx => Sys2Proof.Machine.execCtxImageLoad via ctx s
  | .imageVerifyComplete ctx => Sys2Proof.Machine.execImageVerifyComplete ctx s
  | .imgPushGo via => Sys2Proof.Machine.execImgPushGo via s
  | .imageLoadReceive pkt => Sys2Proof.Machine.execImageLoadReceive pkt s
  | .collectiveStart ctx task => Sys2Proof.Machine.execCollectiveStart ctx task s
  | .chunkOpen ctx group chunk => Sys2Proof.Machine.execChunkOpen ctx group chunk s
  | .grantReceive pkt => Sys2Proof.Machine.execGrantReceive pkt s
  | .expUpReceive pkt => Sys2Proof.Machine.execExpUpReceive pkt s
  | .expDownReceive pkt => Sys2Proof.Machine.execExpDownReceive pkt s
  | .doneReceive pkt => Sys2Proof.Machine.execDoneReceive pkt s
  | .tallyChunkReceive pkt => Sys2Proof.Machine.execTallyChunkReceive pkt s
  | .gatherChunkReceive pkt => Sys2Proof.Machine.execGatherChunkReceive pkt s
  | .collAbortReceive pkt => Sys2Proof.Machine.execCollAbortReceive pkt s
  | .collNoticeRepeat ctx group => Sys2Proof.Machine.execCollNoticeRepeat ctx group s
  | .collTimeout ctx group => Sys2Proof.Machine.execCollTimeout ctx group s
  | .attEnableTrue via ctx => Sys2Proof.Machine.execAttEnableTrue via ctx s
  | .attEnableFalse via ctx => Sys2Proof.Machine.execAttEnableFalse via ctx s
  | .attend core => Sys2Proof.Machine.execAttend core s
  | .attendReqReceive link pkt => Sys2Proof.Machine.execAttendReqReceive link pkt s
  | .attAssemblyTimeout ctx slot => Sys2Proof.Machine.execAttAssemblyTimeout ctx slot s
  | .attendServiceStart ctx core => Sys2Proof.Machine.execAttendServiceStart ctx core s
  | .attendServiceEnd ctx core => Sys2Proof.Machine.execAttendServiceEnd ctx core s
  | .attHoldExpire ctx slot => Sys2Proof.Machine.execAttHoldExpire ctx slot s
  | .attendPartReceive pkt => Sys2Proof.Machine.execAttendPartReceive pkt s
  | .attResultTimeout core desc => Sys2Proof.Machine.execAttResultTimeout core desc s
  | .ldgEnableTrue via ctx => Sys2Proof.Machine.execLdgEnableTrue via ctx s
  | .ldgEnableFalse via ctx => Sys2Proof.Machine.execLdgEnableFalse via ctx s
  | .ldgDrainComplete ctx => Sys2Proof.Machine.execLdgDrainComplete ctx s
  | .ldgConsumerWrite via ctx value => Sys2Proof.Machine.execLdgConsumerWrite via ctx value s
  | .capArmTrue via ctx window => Sys2Proof.Machine.execCapArmTrue via ctx window s
  | .cadencePeriod => Sys2Proof.Machine.execCadencePeriod s
  | .cadenceReqReceive pkt => Sys2Proof.Machine.execCadenceReqReceive pkt s
  | .cadenceRspReceive pkt => Sys2Proof.Machine.execCadenceRspReceive pkt s
  | .hierCadenceSet via value => Sys2Proof.Machine.execHierCadenceSet via value s
  | .arriveReceive pkt => Sys2Proof.Machine.execArriveReceive pkt s
  | .releaseReceive pkt => Sys2Proof.Machine.execReleaseReceive pkt s
  | .barrierAbortReceive pkt => Sys2Proof.Machine.execBarrierAbortReceive pkt s
  | .keepaliveReceive pkt => Sys2Proof.Machine.execKeepaliveReceive pkt s
  | .takeoverReceive pkt => Sys2Proof.Machine.execTakeoverReceive pkt s
  | .arriveRepeat ctx => Sys2Proof.Machine.execArriveRepeat ctx s
  | .barTimeout ctx => Sys2Proof.Machine.execBarTimeout ctx s
  | .keepalivePeriod ctx => Sys2Proof.Machine.execKeepalivePeriod ctx s
  | .takeoverTimeout ctx => Sys2Proof.Machine.execTakeoverTimeout ctx s
  | .jobSnapshot via ctx time => Sys2Proof.Machine.execJobSnapshot via ctx time s
  | .jobReset via ctx time => Sys2Proof.Machine.execJobReset via ctx time s
  | .snapshotReceive pkt => Sys2Proof.Machine.execSnapshotReceive pkt s
  | .resetBcastReceive pkt => Sys2Proof.Machine.execResetBcastReceive pkt s
  | .bcastSecondCopy ctx => Sys2Proof.Machine.execBcastSecondCopy ctx s
  | .bcastActivate ctx seq => Sys2Proof.Machine.execBcastActivate ctx seq s
  | .promoteWindowExpire src => Sys2Proof.Machine.execPromoteWindowExpire src s
  | .escalationTimeout src unit => Sys2Proof.Machine.execEscalationTimeout src unit s
  | .srcClear via code => Sys2Proof.Machine.execSrcClear via code s
  | .fltClearAll via => Sys2Proof.Machine.execFltClearAll via s
  | .fltStickyClear via => Sys2Proof.Machine.execFltStickyClear via s
  | .fltEvtPop via => Sys2Proof.Machine.execFltEvtPop via s
  | .hangExamine => Sys2Proof.Machine.execHangExamine s
  | .rstCtx via ctx => Sys2Proof.Machine.execRstCtx via ctx s
  | .contextResetComplete ctx => Sys2Proof.Machine.execContextResetComplete ctx s
  | .engineResetIdle unit => Sys2Proof.Machine.execEngineResetIdle unit s
  | .partitionResetIdle part => Sys2Proof.Machine.execPartitionResetIdle part s
  | .fltBlockReset via => Sys2Proof.Machine.execFltBlockReset via s
  | .blockResetConfigureLimit => Sys2Proof.Machine.execBlockResetConfigureLimit s
  | .rstCtxLimit ctx => Sys2Proof.Machine.execRstCtxLimit ctx s
  | .rstEngineLimit unit => Sys2Proof.Machine.execRstEngineLimit unit s
  | .rstPartitionLimit part => Sys2Proof.Machine.execRstPartitionLimit part s
  | .rstSampleLimit unit => Sys2Proof.Machine.execRstSampleLimit unit s
  | .fltPcycRequest via => Sys2Proof.Machine.execFltPcycRequest via s
  | .pcycKickstand => Sys2Proof.Machine.execPcycKickstand s
  | .probationTurnEnd outcome => Sys2Proof.Machine.execProbationTurnEnd outcome s
  | .epochResyncComplete core => Sys2Proof.Machine.execEpochResyncComplete core s
  | .fltKickstand via => Sys2Proof.Machine.execFltKickstand via s
  | .fltKickExit via => Sys2Proof.Machine.execFltKickExit via s
  | .governorInterval => Sys2Proof.Machine.execGovernorInterval s
  | .sleepDelayExpire core => Sys2Proof.Machine.execSleepDelayExpire core s
  | .wakeTokenRefill => Sys2Proof.Machine.execWakeTokenRefill s
  | .wakeRelease core => Sys2Proof.Machine.execWakeRelease core s
  | .wakeComplete core => Sys2Proof.Machine.execWakeComplete core s
  | .wakeDelayed core waited => Sys2Proof.Machine.execWakeDelayed core waited s
  | .mmGateDelay core => Sys2Proof.Machine.execMmGateDelay core s
  | .rampStart core => Sys2Proof.Machine.execRampStart core s
  | .rampComplete core => Sys2Proof.Machine.execRampComplete core s
  | .floorTimer => Sys2Proof.Machine.execFloorTimer s
  | .pwrVid via value => Sys2Proof.Machine.execPwrVid via value s
  | .ontanRead carrier level ctx index sub => Sys2Proof.Machine.execOntanRead carrier level ctx index sub s
  | .ontanWrite carrier level ctx index sub vtype value => Sys2Proof.Machine.execOntanWrite carrier level ctx index sub vtype value s
  | .ontanPacketReceive pkt => Sys2Proof.Machine.execOntanPacketReceive pkt s
  | .relayTimeout target => Sys2Proof.Machine.execRelayTimeout target s
  | .ontEventRepeat => Sys2Proof.Machine.execOntEventRepeat s
  | .secChallenge carrier => Sys2Proof.Machine.execSecChallenge carrier s
  | .secUnlock carrier response => Sys2Proof.Machine.execSecUnlock carrier response s
  | .unlockLockoutExpire carrier => Sys2Proof.Machine.execUnlockLockoutExpire carrier s
  | .secLock carrier => Sys2Proof.Machine.execSecLock carrier s
  | .secRevoke via slot => Sys2Proof.Machine.execSecRevoke via slot s
  | .blkReady via => Sys2Proof.Machine.execBlkReady via s
  | .blkRun via => Sys2Proof.Machine.execBlkRun via s
  | .blkDrain via => Sys2Proof.Machine.execBlkDrain via s
  | .drainComplete => Sys2Proof.Machine.execDrainComplete s
  | .blkDrainTimeout => Sys2Proof.Machine.execBlkDrainTimeout s
  | .blkConfigure via => Sys2Proof.Machine.execBlkConfigure via s
  | .blkQuarantineExit via => Sys2Proof.Machine.execBlkQuarantineExit via s
  | .routeLoad via => Sys2Proof.Machine.execRouteLoad via s
  | .routeDrainUpdate via chip mask => Sys2Proof.Machine.execRouteDrainUpdate via chip mask s
  | .routeDrainComplete => Sys2Proof.Machine.execRouteDrainComplete s
  | .routeDrainTimeout => Sys2Proof.Machine.execRouteDrainTimeout s
  | .lportLinksWrite via lport mask => Sys2Proof.Machine.execLportLinksWrite via lport mask s
  | .obsClear via => Sys2Proof.Machine.execObsClear via s
  | .histogramSample => Sys2Proof.Machine.execHistogramSample s
  | .trcEnableTrue via => Sys2Proof.Machine.execTrcEnableTrue via s
  | .trcEnableFalse via => Sys2Proof.Machine.execTrcEnableFalse via s
  | .traceWrite => Sys2Proof.Machine.execTraceWrite s
  | .pcSample core => Sys2Proof.Machine.execPcSample core s
  | .breakpointHit core => Sys2Proof.Machine.execBreakpointHit core s
  | .dbgHalt via core => Sys2Proof.Machine.execDbgHalt via core s
  | .dbgDrainComplete core => Sys2Proof.Machine.execDbgDrainComplete core s
  | .dbgStep via core => Sys2Proof.Machine.execDbgStep via core s
  | .dbgResume via core => Sys2Proof.Machine.execDbgResume via core s
  | .routeLoadComplete => Sys2Proof.Machine.execRouteLoadComplete s
  | .cadenceOutPulse => Sys2Proof.Machine.execCadenceOutPulse s
  | .powerRemoved => Sys2Proof.Machine.execPowerRemoved s
  | .tapScan scan => Sys2Proof.Machine.execTapScan scan s

end Sys2Proof.Machine
end

