-- ==== Sys2Proof/Machine/Tick.lean ====
section
/-! DEFINITION. One cycle of TCLK: what the block does when no command waits (R46, R402). -/
namespace Sys2Proof.Machine
open Sys2Proof Sys2Proof.Bits

/-- The nominal increment at a place in the cycle of five, in units of 2^−16 ns (R402). -/
def cadenceStep (phase : Nat) : Nat := if phase < 3 then 0x66666 else 0x66667

/-- The cadence counter after one cycle of TCLK: the nominal increment plus *A* (R402). -/
def Cadence.advance (x : Cadence) : Cadence :=
  let t := (x.ns * 2 ^ 16 + x.frac + cadenceStep x.phase + 1024 : Nat)
  let v := ((t : Int) - 1024 + x.rate).toNat % 2 ^ 80
  { x with ns := v / 2 ^ 16, frac := v % 2 ^ 16, phase := (x.phase + 1) % 5, outHigh := x.outHigh - 1 }

/-- One cycle of TCLK. Without power nothing counts (R499). -/
def tick (s : State) : State :=
  if s.blk = .off then s else ({ s with tclk := s.tclk + 1 }).onCad Cadence.advance

end Sys2Proof.Machine
end

