-- ==== Sys2Proof/Machine/Pins.lean ====
section
/-! DEFINITION. What the block shows without being asked: the board-facing outputs (R57), the interrupt wires (R41), the
PHY resets (R31), the cadence pulse (R46) and the first page of the register window (R38). -/
namespace Sys2Proof.Machine
open Sys2Proof Sys2Proof.Bits

/-- The level that an output gives; `z` where its output enable is low. -/
inductive PinLevel where
  | z | low | high
  deriving DecidableEq, Repr

/-- Whether the output enables are high: in every state but Off and Reset (R57). -/
def State.drives (s : State) : Bool := !(s.blk == .off || s.blk == .reset)

/-- An output that is low where `low` holds. -/
def State.output (s : State) (low : Bool) : PinLevel := if !s.drives then .z else if low then .low else .high

/-- FAULT_N (R57). -/
def State.faultN (s : State) : PinLevel := s.output s.faultHeld

/-- PCYC_REQ_N (R57). -/
def State.pcycReqN (s : State) : PinLevel := s.output s.flt.pcycLow

/-- ALERT_N: low while the event queue holds an unread event (R57). -/
def State.alertN (s : State) : PinLevel := s.output (!s.flt.queue.isEmpty)

/-- KICK_N: low in Kickstand alone (R57). -/
def State.kickN (s : State) : PinLevel := s.output (s.blk == .kickstand)

/-- HCP_IRQ of a vector: built in the wire modes, and high while it is pending and not masked (R41). -/
def State.irqWire (s : State) (v : Nat) : Bool :=
  s.build.irqMode != .messages && (s.vector v).pending && !(s.vector v).mask

/-- LIP_PHY_RST_N of a link is high (R31). -/
def State.phyUp (s : State) (n : Nat) : Bool := s.drives && (s.link n).phyRstN

/-- TRF_CADENCE_OUT is high; it is held low while the counter is not valid (R46). -/
def State.cadencePin (s : State) : Bool := s.cad.valid && decide (0 < s.cad.outHigh)

/-- `HCP_STATE` (R38, R499). -/
def State.hcpState (s : State) : Nat := s.blk.code

/-- `HCP_FAULT` (R38). -/
def State.hcpFault (s : State) : Nat := s.summary

end Sys2Proof.Machine
end

