-- ==== Sys2Proof/Safety.lean ====
section
/-! DEFINITION. What claims say of a state and of a command: canonical forms, the bounds that the spec sets on the block's
stores, what every command leaves alone, and completion. -/
namespace Sys2Proof.Machine
open Sys2Proof Sys2Proof.Bits

/-- The canonical form of local memory: addresses rise, and no listed byte is the byte an unlisted address reads as. -/
abbrev Memory.wf (m : List Host.Cell) : Bool := Table.wf 0 m

/-- The canonical form of the scratchpads' bytes, an unlisted byte holding all ones. -/
def spadWf (m : List Host.Cell) : Bool := Table.wf 0xFF m

/-- A list of numbers that strictly rises. -/
def rising : List Nat → Bool
  | [] => true
  | [_] => true
  | a :: b :: l => decide (a < b) && rising (b :: l)

/-- The canonical forms of a core's registers, far windows, mask registers and accumulator banks. -/
def CoreState.canonical (x : CoreState) : Bool :=
  Table.wf 0 x.regs && Table.wf 0 x.windows && Table.wf 0 x.masks && Table.wf 0 x.bank0.cells && Table.wf 0 x.bank1.cells

/-- The canonical forms of the state's memories, synchronisation tables, dictionary and tables of units. -/
def State.canonical (s : State) : Bool :=
  Memory.wf s.mem && spadWf s.spad && rising s.memPoison && rising s.spadWritten && rising s.spadPoison &&
    Table.wf 0 s.sems && Table.wf 0 s.counters && rising (s.dict.map Prod.fst) && Table.wf LinkState.reset s.links &&
    Table.wf CoreState.reset s.cores && (s.cores.all fun e => e.2.canonical) && Table.wf CtxState.idle s.ctxs && Table.wf PortState.idle s.ports &&
    Table.wf Vector.reset s.hcp.vectors

/-- The bounds of four stores: 256 event records (R433), 128 escalation timers (R436), 16 invalidations in progress
(R195), and 1,024 trace records in the block's buffer (R513). -/
def State.bounded (s : State) : Bool :=
  decide (s.flt.queue.length ≤ 256) && decide (s.flt.timers.length ≤ 128) && decide (s.hcp.invs.length ≤ 16) &&
    decide (s.trc.buffer.length ≤ 1024)

/-- The invariant that every command keeps. -/
def State.sound (s : State) : Bool := s.canonical && s.bounded

/-- What every command leaves alone or only moves forward: the build (R22), the commands that wait, the model's clock, the
free values drawn, and the revoked image keys (R507); and the invariant it keeps. -/
structure State.Kept (s t : State) : Prop where
  build : t.build = s.build
  pending : t.pending = s.pending
  tclk : t.tclk = s.tclk
  free : s.free ≤ t.free
  revoked : ∀ k, s.revoked.testBit k = true → t.revoked.testBit k = true
  sound : s.sound = true → t.sound = true

/-- The Grave latch and the request of a power cycle, once set, stand (R437, R450). -/
structure State.Latched (s t : State) : Prop where
  grave : s.flt.grave = true → t.flt.grave = true
  request : s.flt.pcycReq = true → t.flt.pcycReq = true

/-- Whether a command that writes an entry of the dictionary passes the checks of R492 in a state, and so has its own
effect: the carrier is served, and the claim, the entry, the block state, the privilege, the access class, the type, the
range and the entry's own busy condition all allow it. -/
def State.admits (s : State) (via : Via) (key n v : Nat) : Bool :=
  s.serves via.carrier &&
    (match s.admitReq via.carrier via.level via.ctx (unitKey key n) true with
     | .ok (e, m) => e.ty.holds v && !(decide (e.access = .rwc) && decide (s.blk ≠ .configure)) && s.rangeOk e m v &&
         !s.entryBusy e m v
     | .error _ => false)

/-- Whether a port of the build is enabled and its clock runs. -/
def State.portServes (s : State) (k : Nat) : Bool :=
  s.powered && decide (k < s.build.ports) && !(s.port k).disabled && s.rst.mclk.testBit k

/-! ### Instructions of the control core -/

/-- The word of an instruction with three register fields and a function code (R290). -/
def ccWord (op rd ra rb fn : Nat) : Nat := op * 2 ^ 26 + rd * 2 ^ 21 + ra * 2 ^ 16 + rb * 2 ^ 11 + fn

/-- The word of an instruction with two register fields and an immediate (R290). -/
def ccWordImm (op rd ra imm : Nat) : Nat := op * 2 ^ 26 + rd * 2 ^ 21 + ra * 2 ^ 16 + imm

/-- Whether a core is about to execute a word: it is ready, no breakpoint hits there, and the fetch gives the word. -/
def State.about (s : State) (core w : Nat) : Bool :=
  s.ccReady core && ((s.core core).pass || (s.bkptAt core).isNone) && s.ccFetch core == .word w

/-- What an instruction leaves that only reads and writes registers of its core, and retires: the next program counter,
the count of retired instructions and the core's progress are all that changes beside the core's registers; a core that
steps halts. -/
structure State.Retired (s t : State) (core pc : Nat) : Prop where
  next : (t.core core).pc = pc
  idle : (t.core core).stall = .none
  own : (s.core core).step = false →
    t.core core = { s.core core with pc := pc, stall := .none, pass := false, regs := (t.core core).regs }
  steps : (s.core core).step = true → (t.core core).halt ≠ .running ∧ (t.core core).step = false
  cores : ∀ n, n ≠ core → t.core n = s.core n
  entries : ∀ k, k ≠ Reg.OBS_CC_RETIRED → k ≠ unitKey Reg.CTX_CC_RETIRED (s.ctxOfCore core) → t.reg k = s.reg k
  rest : t = { s with cores := t.cores, dict := t.dict, flt := { s.flt with progress := t.flt.progress } }

/-- Nothing follows a change of a semaphore or counter: no trigger is armed, and every open context is within a barrier or
has both of its barrier semaphores, which the list does not name, below the threshold (R294, R409). -/
def State.calm (s : State) (changed : List Nat) : Bool :=
  (List.range 64).all fun c => (s.ctx c).trigs.isEmpty && (!s.isOpen c || s.regAt Reg.BAR_STATE c != 0 ||
    (!changed.contains (s.regAt Reg.BAR_STEP_SEM c) && !changed.contains (s.regAt Reg.BAR_IN_SEM c) &&
      decide ((s.sem (s.regAt Reg.BAR_STEP_SEM c)).toNat < s.barThr c) && decide ((s.sem (s.regAt Reg.BAR_IN_SEM c)).toNat < s.barThr c)))

/-! ### Memory and arriving packets -/

/-- The cached leaves of a partition map a range of a context, which lies in one page of 64 KiB, to local memory at `base`;
they allow the access, and count none (R180, R184, R187, R193). -/
def State.maps (s : State) (part ctx off len : Nat) (kind : AccessKind) (remote : Bool) (base : Nat) : Bool :=
  decide (0 < len ∧ off % 65536 + len ≤ 65536 ∧ off < 2 ^ 48) && s.xlt.leaves.any (fun l => l.part == part && l.covers ctx off) &&
    s.xlt.leaves.all fun l => !(l.part == part && l.covers ctx off) ||
      ((denies l.pte kind remote).isNone && !bit l.pte 4 && decide (pteAddr l.pte + off % 2 ^ l.size = base))

/-- Local memory answers everywhere: every port of the build is enabled, and the attached memory marks no beat (R24,
R506). -/
def State.memGood (s : State) : Bool :=
  s.memAnswers.isEmpty && decide (0 < s.build.ports) && (List.range s.build.ports).all fun k => !(s.port k).disabled

/-- The bytes that local memory holds over a range. -/
def State.bytesAt (s : State) (off len : Nat) : List Byte := (List.range len).map fun i => memByte s.mem (off + i)

/-- An arriving request of a job reaches a context and finds a landing slot and room in the completion cache, no slot being
granted to its source (R113, R163, R167). -/
def State.reaches (s : State) (p : Packet) (c : Nat) : Bool :=
  s.powered && s.ctxOfJob? p.job == some c && s.regAt Reg.CTX_STATE c != 3 && Table.get s.rmt.granted 0 p.src == 0 &&
    decide (0 < s.slotsFree ∧ 0 < s.cacheFree) && s.pkt.drain.isNone

end Sys2Proof.Machine
end

