-- ==== Sys2Proof/Certificates/Slice0/Obligations.lean ====
section
/-! DEFINITION. The statements for the provers. `s.settle` is what follows a command's own effect within the block
(R110, R118, R255, R411, R436, R461): where nothing is left to follow, it is the state itself. -/
open Sys2Proof Sys2Proof.Machine Sys2Proof.Bits

/-- A step performs the front command with the rest of the queue; what follows the end of a command, and what a step does with none waiting. For every command c and state s, step of s with c put at the front of its queue is exec of c on s. With an empty queue a step answers a next state: outside Off one cycle of TCLK is counted and the cadence counter advances; in Off nothing changes (the idle tick is the model's choice, log entry 3). Where no action fell due, no packet failed within the block, no ordered packet is parked, no context has arrived at a barrier and no link is kept for kickstand mode, nothing follows the end of a command: what the statements say of a command's own effect, before its end, is then the whole next state. -/
def Obligations.StepRunsFront : Prop :=
  (∀ (c : Instr) (s : State), step { s with pending := c :: s.pending } = exec c s) ∧
  (∀ s : State, s.pending = [] → s.blk ≠ .off →
    step s = .next { s with tclk := s.tclk + 1, cad := s.cad.advance }) ∧
  (∀ s : State, s.pending = [] → s.blk = .off → step s = .next s) ∧
  (∀ s : State, s.flt.due = [] → s.pkt.lost = [] → s.rmt.parked = [] → (∀ e ∈ s.ctxs, e.2.arrived = none) → s.flt.kept = none → s.settle = s)

/-- Every command answers a next state that keeps the invariant, the build, the waiting commands, the revoked keys and the Grave latch. For every command c with any operands and every state s, exec c s answers a next state t with: the build, the queue of commands and the model's clock unchanged; the count of free values drawn not smaller; every revoked image key still revoked (R507); where s is sound, t is sound: the canonical forms of memory, scratchpads, semaphores, counters, dictionary and tables of units, and of each core's registers and accumulator banks, at most 256 event records (R433), 128 escalation timers (R436), 16 invalidations (R195) and 1,024 trace records (R513); and, unless c is POR_N_ASSERT or POWER_REMOVED, the Grave latch set if it was set and a request of a power cycle standing if it stood (R437). No command faults and none is refused. -/
def Obligations.EveryCommandKeeps : Prop :=
  ∀ (c : Instr) (s : State), ∃ t, exec c s = .next t ∧ s.Kept t ∧ (c ≠ .porNAssert → c ≠ .powerRemoved → s.Latched t)

/-- Every step keeps the invariant of the stores, and the state after reset has nothing against it. From every sound state, whatever step answers as its next state is sound, its build is unchanged, and it holds no more commands than before. (That the state after reset is sound is ResetState.) -/
def Obligations.StepKeepsSound : Prop :=
  ∀ s t : State, step s = .next t → s.sound = true →
    t.sound = true ∧ t.build = s.build ∧ t.pending = s.pending.drop 1

/-- The state after reset: sound, in Configure, every table empty, every link Down and due to train. The state after reset is sound and quiet, and no command waits. The block is in Configure with its reset inputs high (R50); no dictionary entry, context, core, semaphore or counter differs from its default; memory and the scratchpads list nothing and no scratchpad line has its written bit set (R268); no event is queued and no latch is set; every link of the build is Down and due to train (R85). The build, and that every clock is detected, are the model's choices (log entries 1 and 2). -/
def Obligations.ResetState : Prop :=
  State.reset.sound = true ∧ State.reset.quiet = true ∧ State.reset.pending = [] ∧ State.reset.blk = .configure ∧
  State.reset.rst.stage = .none ∧ State.reset.rst.porLow = false ∧ State.reset.rst.blkLow = false ∧
  State.reset.dict = [] ∧ State.reset.ctxs = [] ∧ State.reset.cores = [] ∧ State.reset.sems = [] ∧
  State.reset.counters = [] ∧ State.reset.mem = [] ∧ State.reset.memPoison = [] ∧ State.reset.spadWritten = [] ∧
  State.reset.flt.queue = [] ∧ State.reset.flt.grave = false ∧ State.reset.flt.pcycReq = false ∧
  (∀ n, n < 64 → State.reset.link n = { LinkState.reset with trainDue := true }) ∧
  State.reset.build.cores = 64 ∧ State.reset.build.links = 64 ∧ State.reset.build.ports = 16

/-- POR_N resets everything; BLK_RST_N spares the Grave latch and the sticky record; TRST_N resets the TAP; power removed. For every state: POR_N low enters Reset with the dictionary, queues, latches, the sticky record and the event sequence number at their reset values; BLK_RST_N low does the same but keeps the Grave latch, the sticky record, the event sequence number and the request of a power cycle; TRST_N low resets the TAP and nothing else; without power the block is Off. In all, attached memory, revoked keys and the build stand (that memory survives is the model's choice, log entry 24). -/
def Obligations.ResetInputsLow : Prop :=
  ∀ s : State,
    (∃ t, exec .porNAssert s = .next t ∧ t.blk = .reset ∧ t.rst.stage = .held ∧ t.rst.porLow = true ∧ t.dict = [] ∧
      t.flt.grave = false ∧ t.flt.pcycReq = false ∧ t.flt.stickyFirst = none ∧ t.flt.stickyGrave = none ∧
      t.flt.queue = [] ∧ t.flt.seq = 0 ∧ t.links = [] ∧ t.cores = [] ∧ t.ctxs = [] ∧ t.sems = [] ∧ t.counters = [] ∧
      t.spadWritten = [] ∧ t.mem = s.mem ∧ t.memPoison = s.memPoison ∧ t.revoked = s.revoked ∧ t.build = s.build) ∧
    (∃ t, exec .blkRstNAssert s = .next t ∧ t.blk = .reset ∧ t.rst.stage = .held ∧ t.rst.blkLow = true ∧ t.dict = [] ∧
      t.flt.grave = s.flt.grave ∧ t.flt.pcycReq = s.flt.pcycReq ∧ t.flt.stickyFirst = s.flt.stickyFirst ∧
      t.flt.stickyGrave = s.flt.stickyGrave ∧ t.flt.queue = [] ∧ t.flt.seq = s.flt.seq ∧ t.links = [] ∧ t.cores = [] ∧
      t.ctxs = [] ∧ t.sems = [] ∧ t.counters = [] ∧ t.spadWritten = [] ∧ t.mem = s.mem ∧ t.memPoison = s.memPoison ∧
      t.revoked = s.revoked ∧ t.build = s.build) ∧
    exec .trstNAssert s = .next { s with tap := TapState.reset }.settle ∧
    (∃ t, exec .powerRemoved s = .next t ∧ t.blk = .off ∧ t.dict = [] ∧ t.flt.grave = false ∧ t.links = [] ∧ t.cores = [] ∧
      t.ctxs = [] ∧ t.mem = s.mem ∧ t.revoked = s.revoked ∧ t.build = s.build)

/-- From the end of a reset input's low level to Configure: stretcher, clock detection, tables. In Reset, the end of the last low level starts the stretcher, and the end of POR_N's low level samples the strap; with the other input still low the block stays held. The stretcher's end starts the clock detectors; a detected clock of the build is noted. With the tables clear and CCLK and FCLK detected, a block with every clock detected, no block reset to report and no Grave latch is in Configure with every link due to train, and nothing else changed; with the Grave latch set it is in Kickstand. A missing CCLK or FCLK leads to Kickstand. -/
def Obligations.LeavingReset : Prop :=
  ∀ s : State, s.blk = .reset →
    (s.rst.stage = .held → s.rst.porLow = true → s.rst.blkLow = false → exec (.resetRelease .por) s = .next (State.settle
      { s with rst := { s.rst with porLow := false, saddr := s.rst.saddrPins, stage := .stretching } })) ∧
    (s.rst.stage = .held → s.rst.porLow = true → s.rst.blkLow = true → exec (.resetRelease .por) s = .next (State.settle
      { s with rst := { s.rst with porLow := false, saddr := s.rst.saddrPins } })) ∧
    (s.rst.stage = .held → s.rst.porLow = false → exec (.resetRelease .blk) s = .next (State.settle
      { s with rst := { s.rst with blkLow := false, stage := .stretching } })) ∧
    (s.rst.stage = .held → s.rst.porLow = true → exec (.resetRelease .blk) s = .next (State.settle
      { s with rst := { s.rst with blkLow := false } })) ∧
    (s.rst.stage = .stretching → exec .resetStretcherEnd s = .next (State.settle
      { s with rst := { s.rst with stage := .detecting } })) ∧
    (∀ c, s.rst.stage = .detecting → s.hasClock c = true → exec (.clockDetected c) s = .next (State.settle
      { s with rst := s.rst.setClock c true })) ∧
    (s.rst.stage = .detecting → s.rst.cclk = true → s.rst.fclk = true → s.rst.hclk = true →
      (∀ n, n < s.build.links → s.rst.lclk.testBit n = true) → (∀ n, n < s.build.ports → s.rst.mclk.testBit n = true) →
      s.rst.rung4 = false → s.flt.grave = false → exec .tableClearComplete s = .next (State.settle
        { s with blk := .configure, rst := { s.rst with stage := .none },
                 links := (List.range s.build.links).map fun n => (n, { LinkState.reset with trainDue := true }) })) ∧
    (s.rst.stage = .detecting → s.rst.cclk = true → s.rst.fclk = true → s.flt.grave = true →
      ∃ u : State, exec .tableClearComplete s = .next u.settle ∧ u.blk = .kickstand) ∧
    (s.rst.stage = .detecting → (s.rst.cclk = false ∨ s.rst.fclk = false) →
      ∃ u : State, exec .clkAbsentTimeout s = .next u.settle ∧ u.blk = .kickstand ∧ u.flt.kickClock = true)

/-- The clock monitor judges a window of 1,024 TCLK cycles by the range of each clock, and acts on a clock out of range. Outside Off and Reset, for a clock of the build: a window's count in the range of R52 clears the clock's fault bit and notes the clock as present, and changes nothing else; a count out of range leaves Kickstand entered for CCLK and FCLK, the port disabled for an MCLK, the cadence counter not valid for TCLK, and HCP's registers at their defaults for HCLK. The ranges are given as counts. In Off and Reset, and for a clock that the build lacks, nothing happens. -/
def Obligations.ClockMonitor : Prop :=
  (∀ (s : State) (c : ClockId) (count : Nat), s.blk ≠ .off → s.blk ≠ .reset → s.hasClock c = true →
    (clockInRange c count = true → exec (.clockMonitorWindow c count) s =
      .next (State.settle { s.clockFault c false with rst := s.rst.setClock c true })) ∧
    (clockInRange c count = false → ∃ u : State, exec (.clockMonitorWindow c count) s = .next u.settle ∧
      (c = .cclk ∨ c = .fclk → u.blk = .kickstand) ∧ (c = .tclk → u.cad.valid = false) ∧
      (∀ k, c = .mclk k → s.sound = true → (u.port k).disabled = true ∧ u.blk = s.blk) ∧
      (c = .hclk → u.hcp.vectors = [] ∧ u.hcp.queue = [] ∧ u.hcp.fq.sizeLog2 = 0 ∧ u.hcp.iq.sizeLog2 = 0 ∧ u.rst.hclk = false))) ∧
  (∀ (s : State) (c : ClockId) (count : Nat), (s.blk = .off ∨ s.blk = .reset ∨ s.hasClock c = false) →
    exec (.clockMonitorWindow c count) s = .next s.settle) ∧
  (∀ (count n : Nat),
    (clockInRange .cclk count = true ↔ 4916 ≤ count ∧ count ≤ 10813) ∧
    (clockInRange .fclk count = true ↔ 12977 ≤ count ∧ count ≤ 13238) ∧
    (clockInRange (.lclk n) count = true ↔ 11458 ≤ count ∧ count ≤ 11480) ∧
    (clockInRange (.mclk n) count = true ↔ 5243 ≤ count ∧ count ≤ 13107) ∧
    (clockInRange .hclk count = true ↔ 656 ≤ count ∧ count ≤ 7864) ∧
    (clockInRange .tclk count = true ↔ 643 ≤ count ∧ count ≤ 668))

/-- A TAP scan, the I3C address, HDR modes and a fast SCL each change only their own unit. With power, loading a TAP instruction selects its register and a scan shifts it out: one bit of delay through BYPASS, the 32-bit IDCODE of the build first through IDCODE, zeros through a locked instrument; the functional state is unchanged. An I3C target that listens takes the dynamic address that names its strap, or the one assigned while it has none; HDR entry stops it from listening and HDR exit restores it; a transfer with SCL too fast is counted. -/
def Obligations.TestAndManagementPins : Prop :=
  ∀ s : State,
    (s.blk ≠ .off →
      (∀ sel, exec (.tapScan (.select sel)) s = .next (State.settle { s with tap := { s.tap with sel := sel } })) ∧
      (∀ w v, s.tap.sel = .bypass → exec (.tapScan (.shift w v)) s =
        .next (State.settle { s with tap := { s.tap with out := 2 * v % 2 ^ w } })) ∧
      (∀ w v, s.tap.sel = .idcode → exec (.tapScan (.shift w v)) s =
        .next (State.settle { s with tap := { s.tap with out := (0x2E505000 + s.build.mfrId % 4096 + 2 ^ 32 * v) % 2 ^ w } })) ∧
      (∀ w v n, s.tap.sel = .instrument n → s.instrumentOpen n = false → exec (.tapScan (.shift w v)) s =
        .next (State.settle { s with tap := { s.tap with out := 0 } }))) ∧
    (s.i3cListens = true →
      (∀ a, exec (.i3cDynamicAddress true s.rst.saddr a) s =
        .next (State.settle { s with i3c := { s.i3c with dyn := some (a % 128) } })) ∧
      (∀ a st, s.i3c.dyn = none → exec (.i3cDynamicAddress false st a) s =
        .next (State.settle { s with i3c := { s.i3c with dyn := some (a % 128) } })) ∧
      exec .i3cSclTooFast s = .next (State.settle { s with i3c := { s.i3c with fast := s.i3c.fast + 1 } })) ∧
    (s.build.i3c = true → s.blk ≠ .off → s.blk ≠ .reset →
      exec .i3cHdrEntry s = .next (State.settle { s with i3c := { s.i3c with hdr := true } }) ∧
      exec .i3cHdrExit s = .next (State.settle { s with i3c := { s.i3c with hdr := false } }))

/-- A request on an enabled memory port is outstanding from its presentation; a waiting one transfers; write beats follow in order. With power, on an enabled port of the build, a legal request whose tag is neither retired nor in use and that conflicts with no earlier request is presented and outstanding, taken at once where the controller is ready. One that conflicts with an earlier request is held. A presented request with that tag transfers when the controller is ready. A write data beat belongs to the oldest accepted write that still lacks beats. -/
def Obligations.MemoryPortRequests : Prop :=
  (∀ (s : State) (k : Nat) (r : GmpReq) (ready : Bool), s.powered = true → k < s.build.ports → (s.port k).disabled = false →
    r.legal = true → r.sent = 0 → r.got = [] → r.addrErr = false → (s.port k).retired.contains r.tag = false →
    (∀ y ∈ (s.port k).held, y.tag ≠ r.tag) →
    ((∀ y ∈ (s.port k).outstanding, y.tag ≠ r.tag) →
      ((∀ y ∈ (s.port k).outstanding ++ (s.port k).held, r.conflicts y = false) →
        exec (.gmpRequestIssue k r.tag r.op r.addr r.beats r.fence r.data ready) s = .next (State.settle
          (s.onPort k fun p => { p with outstanding := p.outstanding ++ [{ r with accepted := ready }] }))) ∧
      ((∃ y ∈ (s.port k).outstanding ++ (s.port k).held, r.conflicts y = true) →
        exec (.gmpRequestIssue k r.tag r.op r.addr r.beats r.fence r.data ready) s = .next (State.settle
          (s.onPort k fun p => { p with held := p.held ++ [{ r with accepted := false }] })))) ∧
    (∀ a q b, (s.port k).outstanding = a ++ q :: b → q.tag = r.tag → (∀ y ∈ a, y.tag ≠ r.tag) →
      exec (.gmpRequestIssue k r.tag r.op r.addr r.beats r.fence r.data true) s = .next (State.settle
        (s.onPort k fun p => { p with outstanding := a ++ { q with accepted := true } :: b })))) ∧
  (∀ (s : State) (k : Nat) (a : List GmpReq) (r : GmpReq) (b : List GmpReq), (s.port k).outstanding = a ++ r :: b →
    (∀ y ∈ a, y.accepted = false ∨ y.data.length ≤ y.sent) → r.accepted = true → r.sent < r.data.length →
    exec (.gmpWriteDataBeat k) s = .next (State.settle
      (s.onPort k fun p => { p with outstanding := a ++ { r with sent := r.sent + 1 } :: b })))

/-- What a memory port's responses, its stall timer and its enable bit do. With the port's clock running and the port enabled: a read beat with status OK that is not the last is kept under its index; the last one ends the request and delivers every beat. A one-beat write answered OK ends the request and stores exactly the enabled bytes: every other byte of memory reads as before (R23, R24). A stall timeout on a read ends the request poisoned and retires its tag (R27). Writing 0 to the port's bit of GMP_PORT_ENABLE leaves it disabled with nothing outstanding (R506); writing 1 to a disabled port with its clock resets it. -/
def Obligations.MemoryPortResponses : Prop :=
  (∀ (s : State) (k : Nat) (r : GmpReq) (beat : Nat) (d : List Byte), s.sound = true → s.blk ≠ .off → s.blk ≠ .reset → s.rst.mclk.testBit k = true →
    (s.port k).disabled = false → (s.port k).retired.contains r.tag = false →
    (s.port k).outstanding.find? (fun y => y.tag == r.tag && y.accepted) = some r →
    (r.op = .read → beat < r.beats → (∀ g ∈ r.got, g.1 ≠ beat) →
      (r.got.length + 1 < r.beats → exec (.gmpResponseBeat k r.tag beat 0 d) s = .next (State.settle
        (s.onPort k fun p => { p with
          outstanding := updFirst (fun y => y.tag == r.tag) (fun _ => { r with got := r.got ++ [(beat, fit 128 d, false)] }) p.outstanding }))) ∧
      (r.got.length + 1 = r.beats → (s.port k).held = [] → ∃ u : State, exec (.gmpResponseBeat k r.tag beat 0 d) s = .next u.settle ∧
        (u.port k).outstanding = (s.port k).outstanding.filter (fun y => y.tag != r.tag) ∧
        ∃ x, (u.port k).last = some x ∧ x.tag = r.tag ∧ x.addr = r.addr ∧ x.beats.length = r.beats ∧
          x.beats[beat]? = some (fit 128 d, false) ∧ (x.ok = true ↔ ∀ g ∈ r.got, g.2.2 = false))) ∧
    (r.op = .write → r.beats = 1 → ∀ w : GmpBeat, r.data = [w] → r.sent = 1 →
      ∃ u : State, exec (.gmpResponseBeat k r.tag 0 0 d) s = .next u.settle ∧
        (∀ j, j < 128 → memByte u.mem (s.localOf k r.addr + j) =
          if w.strb.testBit j then (w.data[j]?).getD 0 else memByte s.mem (s.localOf k r.addr + j)) ∧
        (∀ x, (x < s.localOf k r.addr ∨ s.localOf k r.addr + 128 ≤ x) → memByte u.mem x = memByte s.mem x) ∧
        u.spad = s.spad ∧ u.dict = s.dict)) ∧
  (∀ (s : State) (k : Nat) (r : GmpReq), s.sound = true → (s.port k).outstanding.find? (fun y => y.tag == r.tag) = some r →
    r.op = .read → ∃ u : State, exec (.gmpStallTimeout k r.tag) s = .next u.settle ∧ u.mem = s.mem ∧
      r.tag ∈ (u.port k).retired ∧ ∀ y ∈ (u.port k).outstanding, y.tag ≠ r.tag ∨ y ∈ (s.port k).held) ∧
  (∀ (s : State) (k : Nat), s.sound = true → k < s.build.ports →
    (∃ u : State, exec (.gmpPortDisable k) s = .next u.settle ∧ (u.port k).disabled = true ∧ u.mem = s.mem ∧
      ((s.port k).disabled = false → (u.port k).outstanding = [] ∧ (u.port k).held = [])) ∧
    ((s.port k).disabled = true → s.rst.mclk.testBit k = true → ∃ u : State, exec (.gmpPortEnable k) s = .next u.settle ∧
      (u.port k).disabled = false ∧ (u.port k).outstanding = [] ∧ (u.port k).retired = [] ∧ (u.port k).stalled = 0))

/-- A host write to HCP's window sets its register, or is answered with HCP_T_RERR; doorbells, acknowledgements and unmasking. While HCP runs, a write that is not to a multiple of 8, or to an unmapped offset, changes nothing but HCP_T_RERR; a write of FQ_SIZE with a size of R191 (0 or 6 to 16) sets it and another is refused; IQ_SIZE and the address word of a vector alike. A doorbell of an Open context whose tail is at most the ring's size ahead is taken; another is counted and raises DOORBELL_ERROR, and the tail stands. IV_ACK clears the pending bit unless an assertion comes in the same cycle. A vector unmasked while pending writes its message of 4 data bytes. -/
def Obligations.HostWindowWrites : Prop :=
  ∀ s : State,
    (s.hcpRuns = true →
      (∀ off v st, off % 8 ≠ 0 ∨ 0x3200 ≤ off ∨ (0x18 ≤ off ∧ off < 0x1000) → exec (.hcpRegisterWrite off v st) s =
        .next (State.settle (s.onHcp fun h => { h with rerr := true }))) ∧
      (∀ v, v < 2 ^ 64 → ((v = 0 ∨ (6 ≤ v ∧ v ≤ 16)) → exec (.hcpRegisterWrite 0x3008 v 0xFF) s = .next (State.settle
          (s.onHcp fun h => { h with fq := { h.fq with sizeLog2 := v }, rerr := false }))) ∧
        (¬(v = 0 ∨ (6 ≤ v ∧ v ≤ 16)) → exec (.hcpRegisterWrite 0x3008 v 0xFF) s = .next (State.settle
          (s.onHcp fun h => { h with rerr := true })))) ∧
      (∀ w a, w < 64 → a < 2 ^ 64 → exec (.hcpRegisterWrite (0x2000 + 16 * w) a 0xFF) s = .next (State.settle
        ((s.setVector w { s.vector w with addr := a / 4 * 4 }).onHcp fun h => { h with rerr := false })))) ∧
    (∀ c tail, s.isOpen c = true →
      (tail % 2 ^ 32 + 2 ^ 32 - s.regAt Reg.CTX_RING_HEAD c) % 2 ^ 32 ≤ 2 ^ s.regAt Reg.CTX_RING_SIZE_LOG2 c →
      exec (.doorbellWrite c tail) s = .next (State.settle
        (s.onHcp fun h => { h with tails := Table.put h.tails 0 c (tail % 2 ^ 32) }))) ∧
    (∀ c tail, (s.isOpen c = false ∨
        2 ^ s.regAt Reg.CTX_RING_SIZE_LOG2 c < (tail % 2 ^ 32 + 2 ^ 32 - s.regAt Reg.CTX_RING_HEAD c) % 2 ^ 32) →
      exec (.doorbellWrite c tail) s = .next (State.settle
        ((s.bumpAt Reg.CTX_DOORBELL_ERRORS c).raise .doorbellError (.context c) c (tail % 2 ^ 32)))) ∧
    (∀ v, exec (.ivAck v false) s = .next (State.settle (s.setVector v { s.vector v with pending := false }))) ∧
    (∀ v, (s.vector v).pending = true → exec (.ivAck v true) s = .next s.settle) ∧
    (∀ v, (s.vector v).pending = false → exec (.ivUnmask v) s = .next (State.settle
      (s.setVector v { s.vector v with mask := false }))) ∧
    (∀ v, (s.vector v).pending = true → s.build.irqMode = .messages → exec (.ivUnmask v) s = .next (State.settle
      ((s.onHcp fun h => { h with queue := h.queue ++
          [{ kind := .message, addr := (s.vector v).addr, data := leBytes 4 (s.vector v).data ++ zeros 28 }] }).setVector v
        { s.vector v with mask := false, pending := false })))

/-- The initiator side of HCP: a transfer, a stall, a record given to its ring, and the heads that the host writes. While HCP runs, a transfer takes the oldest write; that of a record advances its ring's tail and asserts the ring's vector. One HCP_STALL is raised for one interval of not ready. A waiting fault record takes the slot at the ring's tail, after those already on their way. A head neither ahead of the tail nor more than the ring's size behind it is taken; another is answered with HCP_T_RERR. -/
def Obligations.HostRingsAndInitiator : Prop :=
  ∀ s : State,
    (∀ w rest, s.hcpRuns = true → s.hcp.queue = w :: rest →
      (w.kind = .message → exec .hcpInitiatorWrite s = .next (State.settle
        (s.onHcp fun h => { h with queue := rest, last := some w, stallSeen := false }))) ∧
      (w.kind = .faultRecord → exec .hcpInitiatorWrite s = .next (State.settle
        ((s.onHcp fun h => { h with queue := rest, last := some w, stallSeen := false, fq := { h.fq with tail := (h.fq.tail + 1) % 2 ^ 32 } }).assertVector s.hcp.fq.vector))) ∧
      (w.kind = .invRecord → exec .hcpInitiatorWrite s = .next (State.settle
        ((s.onHcp fun h => { h with queue := rest, last := some w, stallSeen := false, iq := { h.iq with tail := (h.iq.tail + 1) % 2 ^ 32 } }).assertVector s.hcp.iq.vector)))) ∧
    (s.hcp.queue ≠ [] → s.hcp.stallSeen = false → exec .hcpStallTimeout s = .next (State.settle
      ((s.onHcp fun h => { h with stallSeen := true }).raise .hcpStall .none 0xFF 0))) ∧
    (s.hcp.queue ≠ [] → s.hcp.stallSeen = true → exec .hcpStallTimeout s = .next s.settle) ∧
    (∀ i bs rest, s.hcp.fq.waiting = (i, bs) :: rest → s.hcp.fq.sizeLog2 ≠ 0 → (∀ w ∈ s.hcp.queue, w.kind ≠ .faultRecord) →
      (s.hcp.fq.tail % 2 ^ 32 + 2 ^ 32 - s.hcp.fq.head) % 2 ^ 32 < 2 ^ s.hcp.fq.sizeLog2 →
      exec .faultRecordWrite s = .next (State.settle (s.onHcp fun h => { h with fq := { h.fq with waiting := rest }, queue := h.queue ++ [{ kind := .faultRecord, data := bs, addr := s.hcp.fq.base + 32 * (s.hcp.fq.tail % 2 ^ 32 % 2 ^ s.hcp.fq.sizeLog2) }] }))) ∧
    (∀ v, s.hcp.fq.sizeLog2 ≠ 0 →
      ((s.hcp.fq.tail + 2 ^ 32 - v % 2 ^ 32) % 2 ^ 32 ≤ 2 ^ s.hcp.fq.sizeLog2 → exec (.fqHeadWrite v) s = .next (State.settle
        (s.onHcp fun h => { h with fq := { h.fq with head := v % 2 ^ 32 }, rerr := false }))) ∧
      (2 ^ s.hcp.fq.sizeLog2 < (s.hcp.fq.tail + 2 ^ 32 - v % 2 ^ 32) % 2 ^ 32 → exec (.fqHeadWrite v) s = .next (State.settle
        (s.onHcp fun h => { h with rerr := true })))) ∧
    (∀ v, s.hcp.iq.sizeLog2 ≠ 0 →
      ((s.hcp.iq.tail + 2 ^ 32 - v % 2 ^ 32) % 2 ^ 32 ≤ 2 ^ s.hcp.iq.sizeLog2 → s.hcp.iq.waiting = [] →
        exec (.iqHeadWrite v) s = .next (State.settle
          (s.onHcp fun h => { h with iq := { h.iq with head := v % 2 ^ 32 }, rerr := false }))) ∧
      (2 ^ s.hcp.iq.sizeLog2 < (s.hcp.iq.tail + 2 ^ 32 - v % 2 ^ 32) % 2 ^ 32 → exec (.iqHeadWrite v) s = .next (State.settle
        (s.onHcp fun h => { h with rerr := true }))))

/-- An invalidation removes every cached leaf that its range touches and no other, and completes once nothing holds it. With fewer than 16 in progress, INV_GO takes the invalidation in order, and of the cached leaves exactly those of its contexts whose pages touch the range leave; with 16 in progress it is refused. The oldest invalidation completes once no live fault in its range waits for an engine and no pinned landing touches it: its 32-byte record with ticket and context goes to its ring's slot, and nothing is lost of memory. While it is held, nothing changes. -/
def Obligations.RangeInvalidation : Prop :=
  ∀ s : State,
    (∀ c all ticket, s.hcp.invs.length < 16 →
      ∃ u : State, exec (.invGo c all ticket) s = .next u.settle ∧ u.hcp.rerr = false ∧
        (∃ x : Inval, u.hcp.invs = s.hcp.invs ++ [x] ∧ x.ctx = (if all then none else some c) ∧ x.ticket = ticket % 2 ^ 16 ∧
          x.start = s.hcp.invStart * 65536 ∧
          x.stop = min (2 ^ 48) (s.hcp.invStart * 65536 + 65536 * (s.hcp.invPagesM1 + 1)) ∧
          (∀ l, l ∈ u.xlt.leaves ↔ l ∈ s.xlt.leaves ∧
            ¬((all = true ∨ l.ctx = c) ∧ l.base < x.stop ∧ x.start < l.base + 2 ^ l.size))) ∧
        u.xlt.faults = s.xlt.faults ∧ u.spad = s.spad ∧ u.rmt = s.rmt ∧ u.ctxs = s.ctxs ∧ u.cores = s.cores) ∧
    (∀ c all ticket, 16 ≤ s.hcp.invs.length → exec (.invGo c all ticket) s = .next (State.settle
      (s.onHcp fun h => { h with rerr := true }))) ∧
    (∀ x rest, s.hcp.invs = x :: rest →
      (s.invHeld x = true → exec .invComplete s = .next s.settle) ∧
      (s.invHeld x = false → s.hcp.iq.waiting = [] → (∀ w ∈ s.hcp.queue, w.kind ≠ .invRecord) →
        s.hcp.iq.sizeLog2 ≠ 0 → (s.hcp.iq.tail % 2 ^ 32 + 2 ^ 32 - s.hcp.iq.head) % 2 ^ 32 < 2 ^ s.hcp.iq.sizeLog2 →
        ∃ u : State, exec .invComplete s = .next u.settle ∧ u.hcp.invs = rest ∧ u.mem = s.mem ∧ u.xlt = s.xlt ∧
          ∃ bs : List Byte, bs.length = 32 ∧
            bs.take 3 = leBytes 2 x.ticket ++ leBytes 1 (x.ctx.getD 0xFF) ∧
            u.hcp.queue = s.hcp.queue ++ [{ kind := .invRecord, data := bs, addr := s.hcp.iq.base + 32 * (s.hcp.iq.tail % 2 ^ 32 % 2 ^ s.hcp.iq.sizeLog2) }]))

/-- RETRY, REFUSE, the service timeout and a held identifier, for a fault of a control core. Where every fault has its identifier and no packet is parked: RETRY of a live fault takes it away and the cached leaves of its page leave; REFUSE takes it away, raises XLT_REFUSED with the identifier, and the control core that waits fails its task with 0x64; the service timeout does the same but holds the identifier and raises XLT_SERVICE_LATE. An answer that names no live fault is counted in XLT_STALE_ANSWERS, and it or the end of the holding time frees a held identifier. -/
def Obligations.FaultAnswers : Prop :=
  ∀ (s : State) (id : Nat), s.rmt.parked = [] → (∀ y ∈ s.xlt.faults, y.id.isSome) →
    (∀ f core, s.xlt.faults.find? (fun y => y.live && y.id == some id) = some f → f.who = [.engine core .control] →
      exec (.fqResolveRetry id) s = .next (State.settle
        ((s.onXlt fun x => { x with faults := x.faults.filter fun y => y.id != some id }).invalidate (some f.ctx)
          (f.off / 65536 * 65536) (f.off / 65536 * 65536 + 65536))) ∧
      exec (.fqResolveRefuse id) s = .next (State.settle
        (((s.onXlt fun x => { x with faults := x.faults.filter fun y => y.id != some id }).raise .xltRefused (.context f.ctx)
          f.ctx id).taskError core 0x64))) ∧
    (∀ f rest core, s.xlt.faults = f :: rest → f.live = true → f.id = some id → f.who = [.engine core .control] →
      ∃ u : State, exec (.xltServiceTimeout f.ctx f.off f.ty) s = .next (u.taskError core 0x64).settle ∧
        u.xlt.faults = { f with live := false, who := [] } :: rest ∧ u.free = s.free + 1 ∧
        u = ({ s with free := s.free + 1, xlt := { s.xlt with faults := { f with live := false, who := [] } :: rest } }).raise
              .xltServiceLate (.context f.ctx) f.ctx id) ∧
    (s.xlt.faults.find? (fun y => y.live && y.id == some id) = none →
      (∃ u : State, exec (.fqResolveRetry id) s = .next u.settle ∧ exec (.fqResolveRefuse id) s = .next u.settle ∧
        u = (s.onXlt fun x => { x with faults := x.faults.filter fun y => y.id != some id }).bump Reg.XLT_STALE_ANSWERS) ∧
      exec (.faultIdHoldExpire id) s = .next (State.settle
        (s.onXlt fun x => { x with faults := x.faults.filter fun y => y.live || y.id != some id })))

/-- A page access: a cached leaf that allows it serves it; an empty root entry raises or joins a fault; flushing counts; the root's register. An access that a cached leaf of its partition and context covers and allows changes nothing. Without such a leaf, where the context's root entry is not present and can be read, the access waits at an unanswered fault of its context, page and type: at the one there is, or at a new one with level 1 that carries its offset. XLT_ACC_FLUSH leaves no cached leaf with counts pending and removes none. A write of XLT_PT_ROOT that the checks admit empties the context's leaves and sets the register. -/
def Obligations.Translation : Prop :=
  (∀ (s : State) (part c off : Nat) (kind : AccessKind) (who : Accessor) (l : Leaf),
    s.xlt.leaves.find? (fun l => l.part == part && l.covers c off) = some l → denies l.pte kind who.isRemote = none →
    exec (.pageWalk part c off kind who) s = .next s.settle) ∧
  (∀ (s : State) (part c off : Nat) (kind : AccessKind) (who : Accessor),
    s.xlt.leaves.find? (fun l => l.part == part && l.covers c off) = none →
    anyPoison (s.memRead (s.regAt Reg.XLT_PT_ROOT c + 8 * walkIndex off 1) 8).1 = false →
    (plain (s.memRead (s.regAt Reg.XLT_PT_ROOT c + 8 * walkIndex off 1) 8).1)[0]? = some 0 →
    ∃ u : State, exec (.pageWalk part c off kind who) s = .next u.settle ∧
      (∃ f ∈ u.xlt.faults, f.live = true ∧ f.ctx = c ∧ f.off / 65536 = off / 65536 ∧ f.ty = .notPresent ∧ who ∈ f.who) ∧
      ((∀ f ∈ s.xlt.faults, f.live = false ∨ f.ctx ≠ c) → ∃ f, u.xlt.faults = s.xlt.faults ++ [f] ∧ f.off = off ∧ f.level = 1 ∧
        f.write = kind.writes ∧ f.who = [who]) ∧
      u.xlt.leaves = s.xlt.leaves) ∧
  (∀ s : State, ∃ u : State, exec .xltAccFlush s = .next u.settle ∧ u.xlt.faults = s.xlt.faults ∧
    u.xlt.leaves = s.xlt.leaves.map fun l => { l with reads := 0, writes := 0 }) ∧
  (∀ (s : State) (via : Via) (c v : Nat), s.sound = true → s.admits via Reg.XLT_PT_ROOT c v = true → v % 4096 = 0 → c < 64 →
    (∀ l ∈ s.xlt.leaves, l.ctx ≠ c) →
    exec (.xltPtRootWrite via c v) s = .next (State.settle ((s.setRegAt Reg.XLT_PT_ROOT c v).answered .ok)))

/-- An Ontan WRITE that passes the checks stores the value, and a READ of the entry then answers that value. For an entry that stores a number, is readable and writable, and is computed from nothing else: where the checks of R492 admit the request, the type and length are the entry's, the value is in range and the entry is not busy, ONTAN_WRITE is answered OK and stores the value (its reserved bits ignored, R18); from a sound state with nothing left to settle, ONTAN_READ on the same carrier then answers OK with that value in the entry's size. A request that the checks turn away changes nothing but its status. -/
def Obligations.OntanWriteReadsBack : Prop :=
  ∀ (s : State) (c : Carrier) (level ctx index sub n : Nat) (value : List Byte) (e : Entry),
    (s.serves c = true → s.admitReq c level ctx (256 * index + sub) true = .ok (e, n) →
      s.admitReq c level ctx (256 * index + sub) false = .ok (e, n) → (∀ k, e.ty ≠ .bytes k) → e.ty ≠ .cmd → e.ty ≠ .anyBytes →
      e.ty.lenOk value.length = true → (e.access = .rwc → s.blk = .configure) → s.rangeOk e n (leNat value) = true →
      s.entryBusy e n (leNat value) = false → s.faultWrite e.key n = none → s.ctxWrite e.key n (leNat value) value = none →
      s.blockWrite c e.key n (leNat value) value = none →
      exec (.ontanWrite c level ctx index sub e.ty.code value) s = .next (State.settle
        ((s.setRegAt e.key n (stored e.key (leNat value))).answered .ok)) ∧
      (s.sound = true → s.quiet = true → e.key % 256 ≠ 0 → e.key ≠ Reg.DBG_PC → e.key ≠ Reg.DBG_REGS → e.key ≠ Reg.SEC_CHALLENGE →
        (∀ t : State, t.derived c e.key n = none) →
        ∃ t u : State, exec (.ontanWrite c level ctx index sub e.ty.code value) s = .next t ∧
          exec (.ontanRead c level ctx index sub) t = .next u ∧ u.ont.status = .ok ∧
          u.ont.value = leBytes e.ty.size (stored e.key (leNat value)) ∧ u.dict = t.dict ∧
          ∀ k, k ≠ unitKey e.key n → t.reg k = s.reg k)) ∧
    (∀ x, s.serves c = true → s.admitReq c level ctx (256 * index + sub) true = .error x →
      ∀ vtype, exec (.ontanWrite c level ctx index sub vtype value) s = .next (State.settle (s.answered x))) ∧
    (∀ x, s.serves c = true → s.admitReq c level ctx (256 * index + sub) false = .error x →
      exec (.ontanRead c level ctx index sub) s = .next (State.settle
        { s with ont := { s.ont with status := x, value := [] } }))

/-- What the carriers of Ontan do with a message: the kept answer, foreign and broken frames, I3C transfers, in-band answers. An MII frame with a correct FCS, addressed to this block, that repeats the last request of the carrier is answered with the kept answer and changes nothing else; one of another EtherType is counted; one whose FCS fails is discarded. A private write of a READ that is new on the I3C bus leaves the answer to be read and keeps it; a private read takes it, and is not acknowledged while there is none. An in-band answer to a relayed request goes back on the carrier of the request. -/
def Obligations.OntanCarriers : Prop :=
  ∀ s : State,
    (∀ (body fcs payload a : List Byte) (m : OntMsg), s.serves .mii = true → fcs.length = 4 → body.length = 14 + payload.length →
      payload.length = max 46 (16 + ontLen payload) → slice 14 payload.length (body ++ fcs) = payload → Crc.crc32 body = leNat fcs →
      beNat (body.take 6) = s.reg Reg.MGP_MAC → s.reg Reg.MGP_MAC ≠ 2 ^ 48 - 1 → beNat (slice 12 2 body) = 0x88B5 →
      ontParse (payload.take (16 + ontLen payload)) = some m → (m.type = 1 ∨ m.type = 2) → s.forMe m = true →
      s.ont.mii.kept = some (payload.take (16 + ontLen payload), a) →
      exec (.ontanMiiFrame (body ++ fcs)) s = .next (State.settle
        { s with ont := { s.ont with last := some { carrier := .mii, dest := beNat (slice 6 6 body), bytes := a } } })) ∧
    (∀ body fcs : List Byte, s.serves .mii = true → fcs.length = 4 → 14 ≤ body.length →
      (Crc.crc32 body ≠ leNat fcs → exec (.ontanMiiFrame (body ++ fcs)) s = .next s.settle) ∧
      (Crc.crc32 body = leNat fcs → beNat (body.take 6) = s.reg Reg.MGP_MAC → beNat (slice 12 2 body) ≠ 0x88B5 →
        exec (.ontanMiiFrame (body ++ fcs)) s = .next (State.settle (s.bump Reg.MGP_FOREIGN_FRAMES)))) ∧
    (s.serves .i3c = true → s.i3cListens = true →
      (∀ raw m ty, ontParse raw = some m → m.type = 1 → m.ver / 16 = 2 → s.forMe m = true → s.ont.i3c.kept = none →
        (∀ r, r = (s.onOnt fun o => { o with i3cAnswer := none }).serveRead .i3c (m.level % 4) (m.level / 4)
            (256 * m.index + m.sub) m.vtype m.value.length → r.1.2.1 = some ty →
          ∃ u : State, exec (.i3cPrivateWrite raw) s = .next u.settle ∧
            u.ont.i3cAnswer = some (m.answer r.1.1 ty r.1.2.2) ∧ u.ont.i3c.kept = some (raw, m.answer r.1.1 ty r.1.2.2) ∧
            u.ont.status = r.1.1 ∧ u.dict = s.dict)) ∧
      (∀ raw, ontParse raw = none → exec (.i3cPrivateWrite raw) s = .next (State.settle
        ((s.onOnt fun o => { o with i3cAnswer := none }).bump Reg.ONT_BAD_FRAMES))) ∧
      (∀ a, s.ont.i3cAnswer = some a → exec .i3cPrivateRead s = .next (State.settle
        { s with ont := { s.ont with i3cAnswer := none, last := some { carrier := .i3c, dest := 0, bytes := a } } })) ∧
      (s.ont.i3cAnswer = none → exec .i3cPrivateRead s = .next s.settle)) ∧
    (∀ (p : Packet) (m : OntMsg) (r : Relay), p.op = .ontan → s.handles .ontan = true → ontParse p.payload = some m → m.type = 3 →
      s.relayOf p.src m = some r → r.carrier = .mii → exec (.ontanPacketReceive p) s = .next (State.settle
        { s with ont := { s.ont with relays := dropFirst (· == r) s.ont.relays, last := some { carrier := .mii, dest := r.addr, bytes := p.payload } } })) ∧
    (∀ (p : Packet), p.op = .ontan → s.handles .ontan = true → ontParse p.payload = none →
      exec (.ontanPacketReceive p) s = .next (State.settle (s.bump Reg.ONT_BAD_FRAMES))) ∧
    (∀ (r : Relay) (m : OntMsg), s.ont.relays.find? (fun r => r.target == m.target) = some r → ontParse r.request = some m →
      r.carrier = .mii → ∃ u : State, exec (.relayTimeout m.target) s = .next u.settle ∧
        u.ont.relays = dropFirst (· == r) s.ont.relays ∧
        ∃ x, u.ont.last = some { carrier := .mii, dest := r.addr, bytes := m.answer .relayFailed x [] }) ∧
    (∀ r rest, s.blk ≠ .off → s.blk ≠ .reset → s.flt.queue = r :: rest → s.reg Reg.ONT_EVENT_CARRIER = 1 →
      exec .ontEventRepeat s = .next (State.settle { s with ont := { s.ont with
        mii := { s.ont.mii with events := (s.ont.mii.events + 1) % 2 ^ 16 },
        last := some { carrier := .mii, dest := fld (s.reg Reg.ONT_EVENT_DEST) 47 0, bytes := ontanMessage 0x21 4 0 0 s.ont.mii.events s.ownChip 0x6010 0x02 0x0B (leBytes 2 s.flt.queue.length ++ r.bytes) } } }))

/-- Challenge, unlocking, locking and revoking. A challenge admitted on a carrier is 16 bytes that nothing fixes, kept as the carrier's challenge; with the lockout on, an unlock is answered BUSY; one that answers the challenge raises the carrier's level to Service; another is OUT_OF_RANGE, counted, and voids the challenge, the eighth in a row starting the lockout, which its expiry ends. SEC_LOCK leaves the carrier at Operator level. SEC_REVOKE revokes a key slot unless it is the last key left, and then is answered BUSY. -/
def Obligations.SecuritySessions : Prop :=
  ∀ (s : State) (c : Carrier),
    (∀ e, s.serves c = true → s.admitReq c 1 0 Reg.SEC_CHALLENGE false = .ok (e, 0) → e.key = Reg.SEC_CHALLENGE →
      ∃ (u : State) (bs : List Byte), exec (.secChallenge c) s = .next u.settle ∧ bs.length = 16 ∧ u.ont.value = bs ∧
        (u.ont.session c).challenge = some bs ∧ u.ont.status = .ok ∧ u.free = s.free + 16 ∧ u.dict = s.dict) ∧
    (∀ e r, s.serves c = true → s.admitReq c 1 0 Reg.SEC_UNLOCK true = .ok (e, 0) → e.key = Reg.SEC_UNLOCK → e.ty.code = 0x0B →
      e.ty.lenOk r.length = true → e.access = .cmd → e.ty ≠ .cmd → e.ty ≠ .anyBytes → s.rangeOk e 0 (leNat r) = true →
      s.entryBusy e 0 (leNat r) = false →
      ((s.ont.session c).lockout = true → exec (.secUnlock c r) s = .next (State.settle (s.answered .busy))) ∧
      ((s.ont.session c).lockout = false → s.unlockOk c r = true → exec (.secUnlock c r) s = .next (State.settle
        ((s.onOnt fun o => o.withSession c { s.ont.session c with level := .service, fails := 0 }).answered .ok))) ∧
      ((s.ont.session c).lockout = false → s.unlockOk c r = false → ∃ u : State, exec (.secUnlock c r) s = .next u.settle ∧
        u.dict = (s.bump Reg.SEC_UNLOCK_FAILS).dict ∧ u.ont.status = .outOfRange ∧ (u.ont.session c).challenge = none ∧
        (u.ont.session c).level = (s.ont.session c).level ∧
        ((s.ont.session c).fails = 7 → (u.ont.session c).lockout = true ∧ (u.ont.session c).fails = 0) ∧
        ((s.ont.session c).fails < 7 → (u.ont.session c).lockout = false ∧ (u.ont.session c).fails = (s.ont.session c).fails + 1))) ∧
    exec (.unlockLockoutExpire c) s = .next (State.settle
      (s.onOnt fun o => o.withSession c { s.ont.session c with lockout := false })) ∧
    (∀ e, s.serves c = true → s.admitReq c 1 0 Reg.SEC_LOCK true = .ok (e, 0) → e.key = Reg.SEC_LOCK → e.ty = .cmd → e.access = .cmd →
      e.ty.lenOk 0 = true → e.ty.code = 0x0B → s.rangeOk e 0 0 = true → s.entryBusy e 0 0 = false →
      exec (.secLock c) s = .next (State.settle
        ((s.onOnt fun o => o.withSession c { s.ont.session c with level := .operator }).answered .ok))) ∧
    (∀ via slot, s.admits via Reg.SEC_REVOKE 0 slot = true →
      ((List.range 4).filter (fun k => s.build.imageKeys.getD k 0 != 0 && !s.revoked.testBit k) ≠ [slot] →
        exec (.secRevoke via slot) s = .next (State.settle ({ s with revoked := setBit s.revoked slot }.answered .ok))) ∧
      ((List.range 4).filter (fun k => s.build.imageKeys.getD k 0 != 0 && !s.revoked.testBit k) = [slot] →
        exec (.secRevoke via slot) s = .next (State.settle (s.answered .busy))))

/-- The moves between block states, and what refuses them. Where the checks of R492 admit the command: BLK_READY moves Configure to Ready once a chip number is set, BLK_RUN Ready to Run, BLK_DRAIN Run to Drain, BLK_CONFIGURE Ready or Quarantine to Configure while no context is Open or Halted, BLK_QUARANTINE_EXIT Quarantine to Ready once no rung is in progress and LADDER_STOPPED is cleared; otherwise each is BUSY and changes nothing. Drain ends in Ready once no context holds work. When the drain's limit expires with no context left to reset it ends too; elsewhere the expiry changes nothing. -/
def Obligations.BlockStates : Prop :=
  ∀ (s : State) (via : Via),
    (s.admits via Reg.BLK_READY 0 0 = true →
      (s.blk = .configure → s.ownChip ≠ 0xFFFF → exec (.blkReady via) s = .next (State.settle
        (State.answered { s with blk := .ready, flt := { s.flt with drainLate := false } } .ok))) ∧
      ((s.blk ≠ .configure ∨ s.ownChip = 0xFFFF) → exec (.blkReady via) s = .next (State.settle (s.answered .busy)))) ∧
    (s.admits via Reg.BLK_RUN 0 0 = true →
      (s.blk = .ready → exec (.blkRun via) s = .next (State.settle
        (State.answered { s with blk := .run, flt := { s.flt with drainLate := false } } .ok))) ∧
      (s.blk ≠ .ready → exec (.blkRun via) s = .next (State.settle (s.answered .busy)))) ∧
    (s.admits via Reg.BLK_DRAIN 0 0 = true →
      (s.blk = .run → exec (.blkDrain via) s = .next (State.settle
        (State.answered { s with blk := .drain, flt := { s.flt with drainLate := false } } .ok))) ∧
      (s.blk ≠ .run → exec (.blkDrain via) s = .next (State.settle (s.answered .busy)))) ∧
    (s.admits via Reg.BLK_CONFIGURE 0 0 = true →
      ((s.blk = .ready ∨ s.blk = .quarantine) → (∀ c, c < 64 → s.regAt Reg.CTX_STATE c ≠ 1 ∧ s.regAt Reg.CTX_STATE c ≠ 2) →
        exec (.blkConfigure via) s = .next (State.settle
          (State.answered { s with blk := .configure, flt := { s.flt with drainLate := false } } .ok))) ∧
      (∀ c, c < 64 → s.regAt Reg.CTX_STATE c = 1 ∨ s.regAt Reg.CTX_STATE c = 2 →
        exec (.blkConfigure via) s = .next (State.settle (s.answered .busy)))) ∧
    (s.admits via Reg.BLK_QUARANTINE_EXIT 0 0 = true →
      (s.blk = .quarantine → s.flt.ctxResets = [] → s.flt.unitResets = [] → s.rst.rung4 = false →
        s.regAt Reg.SRC_UNCLEARED Source.ladderStopped.code = 0 → exec (.blkQuarantineExit via) s = .next (State.settle
          (State.answered { s with blk := .ready, flt := { s.flt with drainLate := false } } .ok))) ∧
      ((s.blk ≠ .quarantine ∨ s.regAt Reg.SRC_UNCLEARED Source.ladderStopped.code ≠ 0) →
        exec (.blkQuarantineExit via) s = .next (State.settle (s.answered .busy)))) ∧
    (s.blk = .drain → (∀ c, c < 64 → s.drainWork c = false) →
      (s.flt.drainLate = false → exec .drainComplete s = .next (State.settle
        { s with blk := .ready, flt := { s.flt with drainLate := false } })) ∧
      (s.flt.ctxResets = [] → s.flt.unitResets = [] → exec .blkDrainTimeout s = .next (State.settle
        { s with blk := .ready, flt := { s.flt with drainLate := false } }))) ∧
    (∀ c, c < 64 → s.drainWork c = true → exec .drainComplete s = .next s.settle) ∧
    (s.blk ≠ .drain → exec .drainComplete s = .next s.settle ∧ exec .blkDrainTimeout s = .next s.settle)

/-- The arithmetic of the control core: each instruction writes its destination and retires, and changes nothing else. For every core about to execute the word of an arithmetic instruction of R290 in a sound state: the destination holds the result (a destination X0 stays zero), every other register is as before, the program counter advances by 4, and nothing else of the state changes but the counts of retired instructions and the core's progress. A shift by 64 or more writes a free value and does everything else the same. -/
def Obligations.RegisterInstructions : Prop :=
  ∀ (s : State) (core : Nat), s.sound = true →
    let writes (c : Instr) (rd : Fin 32) (v : Word64) : Prop := ∃ u : State, exec c s = .next u.settle ∧
      s.Retired u core (((s.core core).pc + 4) % 2 ^ 64) ∧ ∀ r, u.x core r = if r = rd.val ∧ r ≠ 0 then v else s.x core r
    (∀ (rd ra rb : Fin 32),
      let a := s.x core ra; let b := s.x core rb
      (s.about core (ccWord 0 rd ra rb 0) = true → writes (.ccAdd core rd ra rb) rd (a + b)) ∧
      (s.about core (ccWord 0 rd ra rb 1) = true → writes (.ccSub core rd ra rb) rd (a - b)) ∧
      (s.about core (ccWord 0 rd ra rb 2) = true → writes (.ccAnd core rd ra rb) rd (a &&& b)) ∧
      (s.about core (ccWord 0 rd ra rb 3) = true → writes (.ccOr core rd ra rb) rd (a ||| b)) ∧
      (s.about core (ccWord 0 rd ra rb 4) = true → writes (.ccXor core rd ra rb) rd (a ^^^ b)) ∧
      (s.about core (ccWord 0 rd ra rb 5) = true → b.toNat < 64 → writes (.ccShl core rd ra rb) rd (a <<< b.toNat)) ∧
      (s.about core (ccWord 0 rd ra rb 6) = true → b.toNat < 64 → writes (.ccShr core rd ra rb) rd (a >>> b.toNat)) ∧
      (s.about core (ccWord 0 rd ra rb 7) = true → b.toNat < 64 → writes (.ccSar core rd ra rb) rd (a.sshiftRight b.toNat)) ∧
      (s.about core (ccWord 0 rd ra rb 8) = true → writes (.ccMul core rd ra rb) rd (a * b)) ∧
      (s.about core (ccWord 0 rd ra rb 9) = true → writes (.ccMulhu core rd ra rb) rd (BitVec.ofNat 64 (a.toNat * b.toNat / 2 ^ 64))) ∧
      (s.about core (ccWord 0 rd ra rb 10) = true → writes (.ccSlt core rd ra rb) rd (if a.toInt < b.toInt then 1 else 0)) ∧
      (s.about core (ccWord 0 rd ra rb 11) = true → writes (.ccSltu core rd ra rb) rd (if a.toNat < b.toNat then 1 else 0)) ∧
      (64 ≤ b.toNat → ∀ c, (c = .ccShl core rd ra rb ∧ s.about core (ccWord 0 rd ra rb 5) = true ∨
          c = .ccShr core rd ra rb ∧ s.about core (ccWord 0 rd ra rb 6) = true ∨
          c = .ccSar core rd ra rb ∧ s.about core (ccWord 0 rd ra rb 7) = true) →
        ∃ (u : State) (v : Word64), exec c s = .next u.settle ∧
          State.Retired { s with free := s.free + 1 } u core (((s.core core).pc + 4) % 2 ^ 64) ∧
          ∀ r, u.x core r = if r = rd.val ∧ r ≠ 0 then v else s.x core r)) ∧
    (∀ (rd ra : Fin 32) (imm : Fin 65536),
      (s.about core (ccWordImm 1 rd ra imm) = true → writes (.ccAddi core rd ra imm) rd (s.x core ra + BitVec.signExtend 64 (BitVec.ofNat 16 imm.val))) ∧
      (s.about core (ccWordImm 2 rd ra imm) = true → writes (.ccAndi core rd ra imm) rd (s.x core ra &&& BitVec.ofNat 64 imm.val)) ∧
      (s.about core (ccWordImm 3 rd ra imm) = true → writes (.ccOri core rd ra imm) rd (s.x core ra ||| BitVec.ofNat 64 imm.val))) ∧
    (∀ (rd : Fin 32) (half : Fin 4) (imm : Fin 65536),
      (s.about core (ccWordImm 4 rd half imm) = true → ∃ v : Word64, writes (.ccHins core rd half imm) rd v ∧
        ∀ i, i < 64 → v.getLsbD i = if 16 * half.val ≤ i ∧ i < 16 * half.val + 16 then (imm.val).testBit (i - 16 * half.val)
          else (s.x core rd).getLsbD i) ∧
      (s.about core (ccWordImm 5 rd half imm) = true → writes (.ccHnew core rd half imm) rd (BitVec.ofNat 64 (imm.val * 2 ^ (16 * half.val)))))

/-- Branches, jumps, windows, masks, markers and END. For every core about to execute the word in a sound state: a conditional branch retires to PC + 4 × IMM, the immediate sign-extended, where its condition on RD and RA holds, and to PC + 4 where not, and changes no register; JAL and JR write PC + 4 to RD and go to PC + 4 × IMM or to RA. FAR_WINDOW_SET and MASK_SET_COUNT set the window or mask named; a marker leaves a trace record of type 2. END, with no far write-back outstanding, marks the instance ended with its code and does not advance. -/
def Obligations.BranchesAndMarkers : Prop :=
  ∀ (s : State) (core : Nat), s.sound = true →
    let goes (c : Instr) (pc : Nat) : Prop := ∃ u : State, exec c s = .next u.settle ∧ s.Retired u core (pc % 2 ^ 64) ∧ ∀ r, u.x core r = s.x core r
    let here := (s.core core).pc
    (∀ (rd ra : Fin 32) (imm : Fin 65536),
      let target := here + 4 * imm.val + (if imm.val < 2 ^ 15 then 0 else 2 ^ 64 - 2 ^ 18)
      let a := s.x core rd; let b := s.x core ra
      (s.about core (ccWordImm 0x20 rd ra imm) = true → goes (.ccBeq core rd ra imm) (if a = b then target else here + 4)) ∧
      (s.about core (ccWordImm 0x21 rd ra imm) = true → goes (.ccBne core rd ra imm) (if a ≠ b then target else here + 4)) ∧
      (s.about core (ccWordImm 0x22 rd ra imm) = true → goes (.ccBlt core rd ra imm) (if a.toInt < b.toInt then target else here + 4)) ∧
      (s.about core (ccWordImm 0x23 rd ra imm) = true → goes (.ccBge core rd ra imm) (if b.toInt ≤ a.toInt then target else here + 4)) ∧
      (s.about core (ccWordImm 0x24 rd ra imm) = true → goes (.ccBltu core rd ra imm) (if a.toNat < b.toNat then target else here + 4)) ∧
      (s.about core (ccWordImm 0x25 rd ra imm) = true → goes (.ccBgeu core rd ra imm) (if b.toNat ≤ a.toNat then target else here + 4)) ∧
      (s.about core (ccWordImm 0x26 rd ra imm) = true → ∃ u : State, exec (.ccJal core rd imm) s = .next u.settle ∧
        s.Retired u core (target % 2 ^ 64) ∧ ∀ r, u.x core r = if r = rd.val ∧ r ≠ 0 then BitVec.ofNat 64 (here + 4) else s.x core r) ∧
      (s.about core (ccWordImm 0x27 rd ra imm) = true → ∃ u : State, exec (.ccJr core rd ra) s = .next u.settle ∧
        s.Retired u core b.toNat ∧ ∀ r, u.x core r = if r = rd.val ∧ r ≠ 0 then BitVec.ofNat 64 (here + 4) else s.x core r)) ∧
    (∀ (window : Fin 16) (rd ra rb : Fin 32), s.about core (ccWord 0x15 rd ra rb window) = true → ∃ u : State,
      exec (.ccFarWindowSet core window ra) s = .next u.settle ∧ (u.core core).pc = (here + 4) % 2 ^ 64 ∧
      (∀ w, Table.get (u.core core).windows 0 w = if w = window.val then (s.x core ra).toNat else Table.get (s.core core).windows 0 w) ∧
      (u.core core).regs = (s.core core).regs ∧ (∀ n, n ≠ core → u.core n = s.core n) ∧ u.mem = s.mem ∧ u.spad = s.spad) ∧
    (∀ (mask : Fin 7) (rd ra rb : Fin 32), s.about core (ccWord 0x15 rd ra rb (17 + mask)) = true → ∃ u : State,
      exec (.ccMaskSetCount core mask ra) s = .next u.settle ∧ (u.core core).pc = (here + 4) % 2 ^ 64 ∧
      (∀ m, Table.get (u.core core).masks 0 m = if m = mask.val + 1 then 2 ^ min 256 (s.x core ra).toNat - 1 else Table.get (s.core core).masks 0 m) ∧
      (u.core core).regs = (s.core core).regs ∧ (∀ n, n ≠ core → u.core n = s.core n) ∧ u.mem = s.mem ∧ u.spad = s.spad) ∧
    (∀ rd ra rb : Fin 32,
      (s.about core (ccWord 0x18 rd ra rb 0) = true → exec (.ccMarkBegin core ra) s = .next (State.settle
        ((s.traceRecord core 2 0 ((s.x core ra).toNat % 2 ^ 32)).ccNext core))) ∧
      (s.about core (ccWord 0x18 rd ra rb 1) = true → exec (.ccMarkEnd core ra) s = .next (State.settle
        ((s.traceRecord core 2 1 ((s.x core ra).toNat % 2 ^ 32)).ccNext core))) ∧
      (s.about core (ccWord 0x18 rd ra rb 2) = true → exec (.ccMarkPoint core ra) s = .next (State.settle
        ((s.traceRecord core 2 2 ((s.x core ra).toNat % 2 ^ 32)).ccNext core)))) ∧
    (∀ (rd ra : Fin 32) (imm : Fin 65536) (r : Running), s.about core (ccWordImm 0x3F rd ra imm) = true → (s.core core).run = some r →
      (∀ l ∈ s.far.lines, l.core ≠ core) → s.farQuiet core = true → ∃ u : State, exec (.ccEnd core imm) s = .next u.settle ∧
        (u.core core).run = some { r with ended := some (imm.val % 256) } ∧ (u.core core).pc = here % 2 ^ 64 ∧
        (u.core core).regs = (s.core core).regs ∧ u.ctxs = s.ctxs ∧ u.mem = s.mem ∧ u.spad = s.spad)

/-- LD, ST and AMO of the control core in its scratchpad and in local memory. For a core about to execute the word, in a sound state, at a scratchpad address that is naturally aligned and within the task's footprint, with every line touched written and none poisoned: LD writes the little-endian value of the bytes to RD; ST stores the low bytes of RD there, so that those bytes then read so and every other scratchpad byte and all of memory read as before; AMO returns the old value in RD and stores what the operation makes of it. In local memory, where the translation gives one piece, LD gives the bytes read there. A misaligned address, a wrong space bit and an address outside the footprint end the task with 0x51, 0x50 and 0x50. -/
def Obligations.LoadsAndStores : Prop :=
  ∀ (s : State) (core : Nat) (rd ra : Fin 32) (imm : Fin 65536) (size : Fin 4), s.sound = true → core < 64 →
    let addr := (s.x core ra + BitVec.signExtend 64 (BitVec.ofNat 16 imm.val)).toNat
    let len := 2 ^ size.val
    let byte (t : State) (a : Nat) : Byte := Table.get t.spad 0xFF (core * 2 ^ 21 + a)
    (addr % len = 0 → addr < 2 ^ 21 → s.inFootprint core addr len = true → s.spadWritten.contains (core * 2 ^ 15 + addr / 64) = true →
      s.spadPoison.contains (core * 2 ^ 15 + addr / 64) = false →
      (s.about core (ccWordImm (8 + size) rd ra imm) = true → ∃ u : State, exec (.ccLd core size rd ra imm) s = .next u.settle ∧
        s.Retired u core (((s.core core).pc + 4) % 2 ^ 64) ∧
        ∀ r, u.x core r = if r = rd.val ∧ r ≠ 0 then BitVec.ofNat 64 (leNat ((List.range len).map fun i => byte s (addr + i))) else s.x core r) ∧
      (s.about core (ccWordImm (12 + size) rd ra imm) = true → ∃ u : State, exec (.ccSt core size rd ra imm) s = .next u.settle ∧
        (u.core core).pc = ((s.core core).pc + 4) % 2 ^ 64 ∧ (∀ r, u.x core r = s.x core r) ∧
        (∀ i, i < len → byte u (addr + i) = ((s.x core rd) >>> (8 * i)).setWidth 8) ∧
        (∀ k, (k < core * 2 ^ 21 + addr ∨ core * 2 ^ 21 + addr + len ≤ k) → Table.get u.spad 0xFF k = Table.get s.spad 0xFF k) ∧
        u.spadWritten = s.spadWritten ∧ u.spadPoison = s.spadPoison ∧ u.mem = s.mem ∧ u.sems = s.sems ∧ u.counters = s.counters)) ∧
    (∀ (code : Fin 16) (rb : Fin 32), let wide := s.x core ra
      s.about core (ccWord 0x10 rd ra rb (16 + code)) = true → code.val < 10 → wide.toNat % 8 = 0 → wide.toNat < 2 ^ 21 →
      s.inFootprint core wide.toNat 8 = true → s.spadWritten.contains (core * 2 ^ 15 + wide.toNat / 64) = true →
      s.spadPoison.contains (core * 2 ^ 15 + wide.toNat / 64) = false → ∃ u : State, exec (.ccAmo core code true rd ra rb) s = .next u.settle ∧
        (u.core core).pc = ((s.core core).pc + 4) % 2 ^ 64 ∧
        let old := leNat ((List.range 8).map fun i => byte s (wide.toNat + i))
        (∀ r, u.x core r = if r = rd.val ∧ r ≠ 0 then BitVec.ofNat 64 old else s.x core r) ∧
        (code.val = 0 → leNat ((List.range 8).map fun i => byte u (wide.toNat + i)) = (old + (s.x core rb).toNat) % 2 ^ 64) ∧
        (∀ k, (k < core * 2 ^ 21 + wide.toNat ∨ core * 2 ^ 21 + wide.toNat + 8 ≤ k) → Table.get u.spad 0xFF k = Table.get s.spad 0xFF k)) ∧
    (∀ local_ t, addr % len = 0 → 2 ^ 62 ≤ addr → addr < 2 ^ 62 + 2 ^ 48 → s.about core (ccWordImm (8 + size) rd ra imm) = true →
      s.translateRange (s.partOfCore core) (s.ctxOfCore core) (addr % 2 ^ 48) len .read false = (.ok [(local_, len)], t) →
      anyPoison (t.memRead local_ len).1 = false → exec (.ccLd core size rd ra imm) s = .next (State.settle
        ((t.memRead local_ len).2.ccWrite core rd (BitVec.ofNat 64 (leNat (plain (t.memRead local_ len).1)))))) ∧
    (∀ c w, (c = .ccLd core size rd ra imm ∧ w = ccWordImm (8 + size) rd ra imm ∨ c = .ccSt core size rd ra imm ∧ w = ccWordImm (12 + size) rd ra imm) →
      s.about core w = true →
      (addr < 2 ^ 21 → addr % len ≠ 0 → exec c s = .next (State.settle (s.taskError core 0x51))) ∧
      (2 ^ 21 ≤ addr → addr < 2 ^ 62 → exec c s = .next (State.settle (s.taskError core 0x50))) ∧
      (addr < 2 ^ 21 → addr % len = 0 → s.inFootprint core addr len = false → exec c s = .next (State.settle (s.taskError core 0x50))))

/-- SIGNAL, SET, WAIT, READ, CSET, CREAD, WAITC, the end of a wait, and triggers. For a core about to execute the word, on a semaphore or counter of its context, in a sound state where no trigger and no barrier waits for it and no far write-back is outstanding: SIGNAL adds, saturating at 0xFFFFFFFF; SET stores the low 32 bits; WAIT retires where the value is at least the threshold and else stalls; READ and CREAD give the value; CSET stores 64 bits; WAITC compares the signed difference. Every other semaphore and counter is as before. A wait that is over retires. Arming writes the slot's record from 16 scratchpad bytes and disarming clears it. A semaphore the context does not own ends the task with 0x57. -/
def Obligations.SemaphoreInstructions : Prop :=
  ∀ (s : State) (core : Nat) (rd ra rb : Fin 32), s.sound = true →
    let c := s.ctxOfCore core
    let n := (s.x core ra).toNat
    let k := s.x core rb
    let goesOn (u : State) : Prop := (u.core core).pc = ((s.core core).pc + 4) % 2 ^ 64 ∧ (u.core core).stall = .none ∧
      (∀ m, m ≠ core → u.core m = s.core m) ∧ u.mem = s.mem ∧ u.spad = s.spad ∧ u.far = s.far ∧ u.rmt = s.rmt
    (s.ownsSem c n = true → s.calm [n] = true →
      (∀ l ∈ s.far.lines, l.core ≠ core) → s.farQuiet core = true →
      (s.about core (ccWord 0x11 rd ra rb 0) = true → ∃ u : State, exec (.ccSignal core ra rb) s = .next u.settle ∧ goesOn u ∧
        (∀ m, (u.sem m).toNat = if m = n then min ((s.sem n).toNat + k.toNat) 0xFFFFFFFF else (s.sem m).toNat) ∧
        u.counters = s.counters ∧ ∀ r, u.x core r = s.x core r) ∧
      (s.about core (ccWord 0x11 rd ra rb 1) = true → ∃ u : State, exec (.ccSet core ra rb) s = .next u.settle ∧ goesOn u ∧
        (∀ m, u.sem m = if m = n then k.setWidth 32 else s.sem m) ∧ u.counters = s.counters ∧ ∀ r, u.x core r = s.x core r)) ∧
    (s.ownsSem c n = true →
      (s.about core (ccWord 0x11 rd ra rb 2) = true →
        (k.toNat ≤ (s.sem n).toNat → ∃ u : State, exec (.ccWait core ra rb) s = .next u.settle ∧
          s.Retired u core (((s.core core).pc + 4) % 2 ^ 64) ∧ ∀ r, u.x core r = s.x core r) ∧
        ((s.sem n).toNat < k.toNat → exec (.ccWait core ra rb) s = .next (State.settle
          (s.onCore core fun x => { x with stall := .waitSem n k.toNat })))) ∧
      (s.about core (ccWord 0x11 rd ra rb 3) = true → ∃ u : State, exec (.ccRead core rd ra) s = .next u.settle ∧
        s.Retired u core (((s.core core).pc + 4) % 2 ^ 64) ∧ ∀ r, u.x core r = if r = rd.val ∧ r ≠ 0 then (s.sem n).setWidth 64 else s.x core r)) ∧
    (s.ownsCounter c n = true →
      (s.about core (ccWord 0x12 rd ra rb 0) = true → s.calm [] = true →
        ∃ u : State, exec (.ccCset core ra rb) s = .next u.settle ∧ (u.core core).pc = ((s.core core).pc + 4) % 2 ^ 64 ∧
          (∀ m, u.counter m = if m = n then k else s.counter m) ∧ ∀ r, u.x core r = s.x core r) ∧
      (s.about core (ccWord 0x12 rd ra rb 1) = true → ∃ u : State, exec (.ccCread core rd ra) s = .next u.settle ∧
        s.Retired u core (((s.core core).pc + 4) % 2 ^ 64) ∧ ∀ r, u.x core r = if r = rd.val ∧ r ≠ 0 then s.counter n else s.x core r) ∧
      (s.about core (ccWord 0x12 rd ra rb 2) = true →
        (0 ≤ (s.counter n - k).toInt → ∃ u : State, exec (.ccWaitc core ra rb) s = .next u.settle ∧
          s.Retired u core (((s.core core).pc + 4) % 2 ^ 64) ∧ ∀ r, u.x core r = s.x core r) ∧
        ((s.counter n - k).toInt < 0 → exec (.ccWaitc core ra rb) s = .next (State.settle
          (s.onCore core fun x => { x with stall := .waitCnt n k.toNat }))))) ∧
    (∀ m t, s.ccReady core = true → (s.core core).stall = .waitSem m t →
      (t ≤ (s.sem m).toNat → ∃ u : State, exec (.waitSatisfied core) s = .next u.settle ∧
        s.Retired u core (((s.core core).pc + 4) % 2 ^ 64)) ∧
      ((s.sem m).toNat < t → exec (.waitSatisfied core) s = .next s.settle)) ∧
    (∀ slot : Fin 16, s.declared core slot = true →
      (s.about core (ccWord 0x16 rd ra rb (16 + slot)) = true → exec (.ccTrigDisarm core slot) s = .next (State.settle
        ((s.onCtx c fun x => { x with trigs := Table.erase x.trigs slot }).ccNext core))) ∧
      (s.about core (ccWord 0x16 rd ra rb slot) = true → ∀ bs t, s.ccLoadSpad core n 16 = (.ok bs, t) →
        t.ownsSem (t.ctxOfCore core) (Trig.parse bs).sem = true →
        (if (Trig.parse bs).counter then t.ownsCounter (t.ctxOfCore core) (Trig.parse bs).watched else t.ownsSem (t.ctxOfCore core) (Trig.parse bs).watched) = true →
        exec (.ccTrigArm core slot ra) s = .next (State.settle
          (((t.onCtx (t.ctxOfCore core) fun x => { x with trigs := Table.insert x.trigs slot (Trig.parse bs) }).syncChanged (some (t.ctxOfCore core))).ccNext core)))) ∧
    (s.ownsSem c n = false → ∀ i w, (i = .ccSignal core ra rb ∧ w = ccWord 0x11 rd ra rb 0 ∨ i = .ccSet core ra rb ∧ w = ccWord 0x11 rd ra rb 1 ∨
        i = .ccWait core ra rb ∧ w = ccWord 0x11 rd ra rb 2 ∨ i = .ccRead core rd ra ∧ w = ccWord 0x11 rd ra rb 3) →
      s.about core w = true → exec i s = .next (State.settle (s.taskError core 0x57)))

/-- The check-value units: initialising, feeding, finalising, saving and restoring, appending, checking and recording. For a core about to execute the word: CV_INIT with an algorithm of R386 sets algorithm, initial register and alive bit, and with another ends the task with 0x60; CV_FEED feeds the low bytes of RB, byte 0 first; CV_FINAL and CV_GET give the finalised and the plain register, CV_GETA the algorithm, counter and alive bit in their bytes; CV_PUT and CV_PUTA set them. CV_APPEND in the footprint stores the alive counter and the value and restarts the unit; CV_CHECK compares what it loads; CV_LEDGER writes a ledger record of kind 3. The check value of "123456789" under CRC-32C is 0xE3069283. -/
def Obligations.CheckValueInstructions : Prop :=
  (∀ (s : State) (core : Nat) (unit : Fin 8) (rd ra rb : Fin 32),
    let u := s.cv core unit
    let v := (s.x core rb).toNat
    let word (k : Nat) : Nat := ccWord 0x17 rd ra rb (8 * k + unit)
    (s.about core (word 0) = true →
      (v % 4 = 0 → exec (.ccCvInit core unit rb) s = .next (State.settle ((s.setCv core unit { u with alg := 0, reg := 0xFFFFFFFF, alive := v.testBit 8 }).ccNext core))) ∧
      (v % 4 = 1 → exec (.ccCvInit core unit rb) s = .next (State.settle ((s.setCv core unit { u with alg := 1, reg := 0, alive := v.testBit 8 }).ccNext core))) ∧
      (v % 4 = 2 → exec (.ccCvInit core unit rb) s = .next (State.settle ((s.setCv core unit { u with alg := 2, reg := 0xFFFF, alive := v.testBit 8 }).ccNext core))) ∧
      (v % 4 = 3 → exec (.ccCvInit core unit rb) s = .next (State.settle (s.taskError core 0x60)))) ∧
    (s.about core (word 1) = true → exec (.ccCvFeed1 core unit rb) s = .next (State.settle
      ((s.setCv core unit { u with reg := cvFeed u.alg u.reg (leBytes 1 v) }).ccNext core))) ∧
    (s.about core (word 2) = true → exec (.ccCvFeed2 core unit rb) s = .next (State.settle
      ((s.setCv core unit { u with reg := cvFeed u.alg u.reg (leBytes 2 v) }).ccNext core))) ∧
    (s.about core (word 3) = true → exec (.ccCvFeed4 core unit rb) s = .next (State.settle
      ((s.setCv core unit { u with reg := cvFeed u.alg u.reg (leBytes 4 v) }).ccNext core))) ∧
    (s.about core (word 4) = true → exec (.ccCvFeed8 core unit rb) s = .next (State.settle
      ((s.setCv core unit { u with reg := cvFeed u.alg u.reg (leBytes 8 v) }).ccNext core))) ∧
    (s.about core (word 5) = true → exec (.ccCvFinal core unit rd) s = .next (State.settle
      (s.ccWrite core rd (BitVec.ofNat 64 (if u.alg = 0 then u.reg ^^^ 0xFFFFFFFF else u.reg))))) ∧
    (s.about core (word 6) = true → exec (.ccCvGet core unit rd) s = .next (State.settle (s.ccWrite core rd (BitVec.ofNat 64 u.reg)))) ∧
    (s.about core (word 7) = true → exec (.ccCvPut core unit rb) s = .next (State.settle
      ((s.setCv core unit { u with reg := v % 2 ^ (8 * cvWidth u.alg) }).ccNext core))) ∧
    (s.about core (word 8) = true → exec (.ccCvGeta core unit rd) s = .next (State.settle
      (s.ccWrite core rd (BitVec.ofNat 64 (u.alg + 256 * u.counter + 65536 * (if u.alive then 1 else 0)))))) ∧
    (s.about core (word 9) = true → v % 4 ≠ 3 → exec (.ccCvPuta core unit rb) s = .next (State.settle
      ((s.setCv core unit { alg := v % 4, reg := u.reg % 2 ^ (8 * cvWidth (v % 4)), counter := v / 256 % 256, alive := v.testBit 16 }).ccNext core))) ∧
    (s.about core (word 10) = true → (s.x core ra).toNat < 2 ^ 21 → u.alive = false → s.inFootprint core (s.x core ra).toNat (cvWidth u.alg) = true →
      exec (.ccCvAppend core unit ra) s = .next (State.settle
        (((s.spadWrite core (s.x core ra).toNat (clean (leBytes (cvWidth u.alg) u.final))).setCv core unit { u with reg := cvInitial u.alg }).ccNext core))) ∧
    (s.about core (word 10) = true → (s.x core ra).toNat < 2 ^ 21 → u.alive = true → s.inFootprint core (s.x core ra).toNat (1 + cvWidth u.alg) = true →
      exec (.ccCvAppend core unit ra) s = .next (State.settle
        (((s.spadWrite core (s.x core ra).toNat (clean (BitVec.ofNat 8 ((u.counter + 1) % 256) ::
            leBytes (cvWidth u.alg) (u.feed [BitVec.ofNat 8 ((u.counter + 1) % 256)]).final))).setCv core unit
          { u with reg := cvInitial u.alg, counter := (u.counter + 1) % 256 }).ccNext core))) ∧
    (s.about core (word 11) = true → ∀ bs t, s.ccLoad core (s.x core ra).toNat (cvWidth u.alg + ofBool u.alive) = (.ok bs, t) →
      s.meetsUnwritten core (s.x core ra).toNat (cvWidth u.alg + ofBool u.alive) = false → u.alive = false →
      exec (.ccCvCheck core unit rd ra) s = .next (State.settle ((t.setCv core unit { u with reg := cvInitial u.alg }).ccWrite core rd
        (if leNat bs = u.final then 0 else 1)))) ∧
    (s.about core (word 12) = true → exec (.ccCvLedger core unit ra rb) s = .next (State.settle
      ((s.ledgerRecord (s.ctxOfCore core) (((s.core core).run.map (·.step)).getD 0) ((s.x core ra).toNat % 2 ^ 32) ((s.x core ra).toNat / 2 ^ 32)
        0xFFFF0C00 v u.final).ccNext core)))) ∧
  CvUnit.final (CvUnit.feed .reset (([0x31, 0x32, 0x33, 0x34, 0x35, 0x36, 0x37, 0x38, 0x39] : List Nat).map (BitVec.ofNat 8))) = 0xE3069283

/-- Enqueuing descriptors, masks from the scratchpad, far maintenance, the directory and fills. For a core about to execute the word: ENQ with a queue of 16 stalls; otherwise, with no far write-back outstanding, the 64 bytes that it loads from its scratchpad join the engine's queue. MASK_SET_SPAD sets a mask from 32 bytes. FENCE and a flush or drop of a range that holds no line retire at once, or stall while a write-back is outstanding; the last COMPLETION ends the stall. The directory serves the oldest request of a bank whose line may move and starts its fill where no cache and no buffer holds the line. A completed fill installs its line; a failed one ends the task with 0x53; a completed write-back leaves the buffer. An illegal word and a failed fetch end the task with 0x60 and 0x61. -/
def Obligations.FarAndQueueInstructions : Prop :=
  ∀ (s : State) (core : Nat) (rd ra rb : Fin 32),
    let addr := (s.x core ra).toNat
    (16 ≤ (s.core core).mq.length → s.about core (ccWord 0x14 rd ra rb 0) = true →
      exec (.ccEnqMatrix core ra) s = .next (State.settle (s.onCore core fun x => { x with stall := .queueFull }))) ∧
    ((∀ l ∈ s.far.lines, l.core ≠ core) → s.farQuiet core = true →
      (∀ bs t, s.ccLoadSpad core addr 64 = (.ok bs, t) →
        (s.about core (ccWord 0x14 rd ra rb 0) = true → (s.core core).mq.length < 16 → t.engineHolds core .matrix = true →
          exec (.ccEnqMatrix core ra) s = .next (State.settle
            (((t.onCore core fun x => { x with mq := x.mq ++ [bs] }).askRamp core).ccNext core))) ∧
        (s.about core (ccWord 0x14 rd ra rb 1) = true → (s.core core).vq.length < 16 → t.engineHolds core .vector = false →
          exec (.ccEnqVector core ra) s = .next (State.settle
            (((t.engineProgress core .vector).onCore core fun x => { x with vq := x.vq ++ [bs] }).ccNext core))) ∧
        (s.about core (ccWord 0x14 rd ra rb 2) = true → (s.core core).dq.length < 16 → t.engineHolds core .dma = false →
          exec (.ccEnqDma core ra) s = .next (State.settle
            (((t.engineProgress core .dma).onCore core fun x => { x with dq := x.dq ++ [bs] }).ccNext core)))) ∧
      (s.about core (ccWord 0x13 rd ra rb 2) = true → exec (.ccFence core) s = .next (State.settle (s.ccNext core))) ∧
      (∀ chip t, 2 ^ 63 ≤ addr → addr < 2 ^ 63 + 2 ^ 52 → s.farChip core addr = (some chip, t) → t.far = s.far →
        (s.about core (ccWord 0x13 rd ra rb 0) = true → exec (.ccFarFlush core ra rb) s = .next (State.settle (t.ccNext core))) ∧
        (s.about core (ccWord 0x13 rd ra rb 1) = true → exec (.ccFarDrop core ra rb) s = .next (State.settle (t.ccNext core))))) ∧
    ((∀ l ∈ s.far.lines, l.core ≠ core) → s.farQuiet core = false → s.about core (ccWord 0x13 rd ra rb 2) = true →
      exec (.ccFence core) s = .next (State.settle (s.onCore core fun x => { x with stall := .maint }))) ∧
    (s.ccReady core = true → (s.core core).stall = .maint →
      (s.farQuiet core = true → exec (.farMaintenanceComplete core) s = .next (State.settle (s.ccNext core))) ∧
      (s.farQuiet core = false → exec (.farMaintenanceComplete core) s = .next s.settle)) ∧
    (∀ (mask : Fin 7) bs t, s.ccLoadSpad core addr 32 = (.ok bs, t) → s.about core (ccWord 0x15 rd ra rb (25 + mask)) = true →
      exec (.ccMaskSetSpad core mask ra) s = .next (State.settle
        ((t.onCore core fun x => { x with masks := Table.put x.masks 0 (mask.val + 1) (leNat bs) }).ccNext core))) ∧
    (∀ (bank : Nat) (r : DirReq), s.far.reqs = [r] → r.name.bank = bank → s.far.lines = [] → s.far.fills = [] → s.far.wbs = [] → r.core < 64 →
      ∃ u : State, exec (.directoryGrant bank) s = .next u.settle ∧ u.far.reqs = [] ∧
        u.far.fills = [{ core := r.core, ctx := r.ctx, name := r.name, own := r.own, data := none, failed := none }] ∧
        (∃ p, u.rmt.plans = s.rmt.plans ++ [p] ∧ p.dest = r.name.chip ∧ p.owner = .farFill r.core) ∧ u.mem = s.mem ∧ u.cores = s.cores) ∧
    (∀ (bank : Nat), (∀ r ∈ s.far.reqs, r.name.bank ≠ bank) → exec (.directoryGrant bank) s = .next s.settle) ∧
    (∀ (x : FarFill) (d : List Byte) (rest : List FarFill), s.far.fills = x :: rest → x.core = core → x.data = some (d, false) → x.failed = none → s.far.lines = [] →
      exec (.farFillComplete core) s = .next (State.settle (s.onFar fun f => { f with fills := rest, lines := [{ core := core, name := x.name, owned := x.own, data := d, dirty := 0, poison := false, fresh := true }] }))) ∧
    (∀ (x : FarFill) (rest : List FarFill) (code : Nat), s.far.fills = x :: rest → x.core = core → x.failed = some code → code ≠ 0 →
      exec (.farFillComplete core) s = .next (State.settle ((s.onFar fun f => { f with fills := rest }).taskError core 0x53))) ∧
    (∀ (i : Nat) (w : FarWb), s.far.wbs[i]? = some w →
      (w.ended = some 0 → exec (.farWritebackComplete i) s = .next (State.settle (s.onFar fun f => { f with wbs := f.wbs.eraseIdx i }))) ∧
      (w.ended = none → exec (.farWritebackComplete i) s = .next s.settle)) ∧
    (s.ccReady core = true → ((s.core core).pass = true ∨ s.bkptAt core = none) →
      (s.ccFetch core = .bad → exec (.ccFence core) s = .next (State.settle (s.taskError core 0x61))) ∧
      (∀ w, s.ccFetch core = .word w → ccLegal w = false → exec (.ccFence core) s = .next (State.settle (s.taskError core 0x60))))

/-- Counters cleared, histograms sampled, tracing switched, program counters sampled, and halting and stepping a core. OBS_CLEAR leaves every counter of 0x7010 and every histogram bin at 0 and touches no other entry; a histogram sample changes entries of the dictionary alone. TRC_ENABLE TRUE with a region within 2^40 starts tracing with producer and lost count 0; FALSE stops it. A trace write takes the oldest record of the buffer. DBG_HALT halts a running task that waits for nothing; a halted core with idle engines is Halted; RESUME and STEP set it going past the breakpoint, and are BUSY otherwise. A breakpoint at the next instruction halts the core. -/
def Obligations.ObservationCommands : Prop :=
  ∀ (s : State) (via : Via),
    (s.admits via Reg.OBS_CLEAR 0 0 = true → ∃ u : State, exec (.obsClear via) s = .next (u.answered .ok).settle ∧ u = { s with dict := u.dict } ∧
      (∀ k, (k / 256 = 0x7010 ∨ (0x7400 ≤ k / 256 ∧ k / 256 ≤ 0x7406)) → Table.find? u.dict k = none) ∧
      (s.sound = true → ∀ k, ¬(k / 256 = 0x7010 ∨ (0x7400 ≤ k / 256 ∧ k / 256 ≤ 0x7406)) → Table.find? u.dict k = Table.find? s.dict k)) ∧
    (s.blk ≠ .off → s.blk ≠ .reset → ∃ u : State, exec .histogramSample s = .next u.settle ∧ u = { s with dict := u.dict } ∧
      (s.sound = true → ∀ k, ¬(0x7400 ≤ k / 256 ∧ k / 256 ≤ 0x7406) → u.reg k = s.reg k)) ∧
    (s.admits via Reg.TRC_ENABLE 0 1 = true →
      (s.reg Reg.TRC_BASE + 2 ^ s.reg Reg.TRC_SIZE_LOG2 ≤ 2 ^ 40 → exec (.trcEnableTrue via) s = .next (State.settle
        ((((s.setReg Reg.TRC_ENABLE 1).setReg Reg.TRC_PRODUCER 0).setReg Reg.TRC_LOST 0).answered .ok))) ∧
      (2 ^ 40 < s.reg Reg.TRC_BASE + 2 ^ s.reg Reg.TRC_SIZE_LOG2 → exec (.trcEnableTrue via) s = .next (State.settle (s.answered .outOfRange)))) ∧
    (s.admits via Reg.TRC_ENABLE 0 0 = true → exec (.trcEnableFalse via) s = .next (State.settle
      ((s.setReg Reg.TRC_ENABLE 0).answered .ok))) ∧
    (s.trc.buffer = [] → exec .traceWrite s = .next s.settle) ∧
    (∀ b, s.trc.buffer = [b] → 0 < s.build.ports → exec .traceWrite s = .next (State.settle
      (((s.memWrite (s.reg Reg.TRC_BASE + 32 * (s.reg Reg.TRC_PRODUCER % 2 ^ (s.reg Reg.TRC_SIZE_LOG2 - 5))) (clean b)).2.setReg
        Reg.TRC_PRODUCER (s.reg Reg.TRC_PRODUCER + 1)).onTrc fun t => { t with buffer := [] }))) ∧
    (s.reg Reg.TRC_PC_PERIOD_LOG2 = 0 → ∀ n, exec (.pcSample n) s = .next s.settle) ∧
    (∀ n, s.reg Reg.TRC_PC_PERIOD_LOG2 ≠ 0 → (s.core n).halt ≠ .running → exec (.pcSample n) s = .next (State.settle (s.traceRecord n 1 1 0))) ∧
    (∀ n, s.admits via Reg.DBG_HALT n 0 = true →
      ((s.core n).run = none → exec (.dbgHalt via n) s = .next (State.settle (s.answered .busy))) ∧
      ((s.core n).run ≠ none → (s.core n).halt = .running → (s.core n).stall = .none →
        exec (.dbgHalt via n) s = .next (State.settle ((s.haltCore n).answered .ok)))) ∧
    (∀ n, (s.core n).halt = .draining → s.enginesIdle n = true → exec (.dbgDrainComplete n) s = .next (State.settle
      (s.onCore n fun x => { x with halt := .halted }))) ∧
    (∀ n, (s.core n).halt ≠ .halted →
      (s.admits via Reg.DBG_STEP n 0 = true → exec (.dbgStep via n) s = .next (State.settle (s.answered .busy))) ∧
      (s.admits via Reg.DBG_RESUME n 0 = true → exec (.dbgResume via n) s = .next (State.settle (s.answered .busy)))) ∧
    (∀ n, s.sound = true → (s.core n).halt = .halted →
      (s.admits via Reg.DBG_STEP n 0 = true → ∃ u : State, exec (.dbgStep via n) s = .next (u.answered .ok).settle ∧
        u.core n = { s.core n with halt := .running, step := true, pass := true } ∧ u.dict = s.dict ∧ u.mem = s.mem ∧ u.spad = s.spad) ∧
      (s.admits via Reg.DBG_RESUME n 0 = true → ∃ u : State, exec (.dbgResume via n) s = .next (u.answered .ok).settle ∧
        u.core n = { s.core n with halt := .running, step := false, pass := true } ∧ u.dict = s.dict ∧ u.mem = s.mem ∧ u.spad = s.spad)) ∧
    (∀ n k, s.ccReady n = true → (s.core n).pass = false → (s.core n).stall = .none → s.bkptAt n = some k →
      exec (.breakpointHit n) s = .next (State.settle (s.breakHit n k)))

/-- Requests to the regulators: which is presented, the acknowledge, the timeout, and the two inputs PMI_PGOOD and PMI_VR_ALERT. With no request presented, the waiting FORECAST is presented before the FLOOR and the FLOOR before the VID, and a presented FORECAST becomes the last one sent. An acknowledge with no release held by a FORECAST ends the request and changes nothing else. With no acknowledge in time the request is withdrawn and PMI_NOACK raised with its kind. PWR_VID and a low estimate queue a request that replaces a waiting one of its kind. A fall of PMI_PGOOD raises PMI_PGOOD_LOST and puts every built core at level 1 and no other; one already low is no event. A fall of PMI_VR_ALERT raises PWR_VR_ALERT, and the end of the alert lifts it. -/
def Obligations.RegulatorRequests : Prop :=
  ∀ s : State,
    ((s.blk ≠ .off ∧ s.blk ≠ .reset) → s.pmi.req = none →
      (∀ v rest, s.pmi.waiting = (PmiKind.forecast, v) :: rest → (∀ w ∈ rest, w.1 ≠ .forecast) →
        exec .pmiRequest s = .next (State.settle ((s.onPmi fun x => { x with req := some (.forecast, v), waiting := rest }).onPwr fun p => { p with forecast := v }))) ∧
      (∀ v a, s.pmi.waiting = [(PmiKind.vid, a), (PmiKind.floor, v)] →
        exec .pmiRequest s = .next (State.settle (s.onPmi fun x => { x with req := some (.floor, v), waiting := [(.vid, a)] }))) ∧
      (∀ v, s.pmi.waiting = [(PmiKind.vid, v)] →
        exec .pmiRequest s = .next (State.settle (s.onPmi fun x => { x with req := some (.vid, v), waiting := [] })))) ∧
    (s.pmi.req ≠ none → exec .pmiRequest s = .next s.settle) ∧
    (∀ k v, s.pmi.req = some (k, v) →
      (k ≠ .forecast → exec .pmiReqAck s = .next (State.settle (s.onPmi fun x => { x with req := none })) ∧
        exec .pmiNoackTimeout s = .next (State.settle
          ((s.raise .pmiNoack .none 0xFF (match k with | .forecast => 1 | .floor => 2 | .vid => 3)).onPmi fun x => { x with req := none }))) ∧
      (k = .forecast → s.pwr.held = none → exec .pmiReqAck s = .next (State.settle
        ((s.onPmi fun x => { x with req := none }).onPwr fun p => { p with cleared := none, held := none })))) ∧
    (s.pmi.req = none → exec .pmiReqAck s = .next s.settle ∧ exec .pmiNoackTimeout s = .next s.settle) ∧
    (∀ via v, s.admits via Reg.PWR_VID 0 v = true → exec (.pwrVid via v) s = .next (State.settle (State.answered
      (s.onPmi fun x => { x with waiting := x.waiting.filter (fun w => w.1 != .vid) ++ [(.vid, v)] }) .ok))) ∧
    (let p := min (s.pwr.est / 400000) 0xFFFF;
      (p + 8 * s.reg Reg.PWR_FORECAST_STEP < s.pwr.forecast → exec .floorTimer s = .next (State.settle
        (s.onPmi fun x => { x with waiting := x.waiting.filter (fun w => w.1 != .floor) ++ [(.floor, p)] }))) ∧
      (s.pwr.forecast ≤ p + 8 * s.reg Reg.PWR_FORECAST_STEP → exec .floorTimer s = .next s.settle)) ∧
    (s.pmi.pgood = false → exec .pmiPgoodFall s = .next s.settle) ∧
    (s.pmi.pgood = true → (s.blk = .off ∨ s.blk = .reset) → exec .pmiPgoodFall s = .next (State.settle (s.onPmi fun x => { x with pgood := false }))) ∧
    (s.pmi.pgood = true → s.blk ≠ .off → s.blk ≠ .reset → ∃ u : State, exec .pmiPgoodFall s = .next u.settle ∧
      (let r := (s.onPmi fun x => { x with pgood := false }).raise .pmiPgoodLost .none 0xFF 0
       (s.sound = true → ∀ n, n < s.build.cores → u.regAt Reg.PWR_CORE_LEVEL n = 1) ∧ u = { r with dict := u.dict } ∧
       (s.sound = true → ∀ k, (∀ n, n < s.build.cores → k ≠ unitKey Reg.PWR_CORE_LEVEL n) → u.reg k = r.reg k))) ∧
    ((s.blk ≠ .off ∧ s.blk ≠ .reset) → exec .pmiVrAlertFall s = .next (State.settle
      ((s.onPmi fun x => { x with alert := true, alertActive := true }).raise .pwrVrAlert .none 0xFF 0))) ∧
    exec .vrAlertEnd s = .next (State.settle (s.onPmi fun x => { x with alert := false, alertActive := false }))

/-- Core sleep and wake, the wake bucket, and the ramps of matrix arrays. An Idle core whose sleep delay ran out loses its masks, accumulator banks and far lines, is gated and Asleep; one that is not Idle, or with PWR_SLEEP_DELAY 0, is left alone. The bucket gains a token up to PWR_WAKE_RATE. The first waiting wake whose release a FORECAST cleared, or that the step limit always allows, takes a token and is counted; with no token, or PMI_PGOOD low, nothing happens. A woken core is Active, or Idle where it has no work, at its cap limited by the lowest Active core, or level 1 while PMI_PGOOD is low. A wake that waited over 100 µs raises WAKE_DELAYED. An array without work is gated. A cleared ramp at the head starts, and its end ungates the array. -/
def Obligations.CoreSleepAndRamps : Prop :=
  ∀ (s : State) (n : Nat), s.sound = true → n < 64 →
    (n < s.build.cores → s.regAt Reg.PWR_CORE_STATE n = 1 → s.reg Reg.PWR_SLEEP_DELAY ≠ 0 → ∃ u : State, exec (.sleepDelayExpire n) s = .next u.settle ∧
      u.core n = { s.core n with masks := [], bank0 := .zero, bank1 := .zero, gated := true } ∧ (∀ m, m ≠ n → u.core m = s.core m) ∧
      u.regAt Reg.PWR_CORE_STATE n = 2 ∧ (∀ k, k ≠ unitKey Reg.PWR_CORE_STATE n → (∀ l ∈ s.far.lines, l.core ≠ n) → u.reg k = s.reg k) ∧
      (∀ l ∈ u.far.lines, l.core ≠ n) ∧ u.mem = s.mem ∧ u.spad = s.spad ∧ u.sems = s.sems) ∧
    ((s.regAt Reg.PWR_CORE_STATE n ≠ 1 ∨ s.reg Reg.PWR_SLEEP_DELAY = 0) → exec (.sleepDelayExpire n) s = .next s.settle) ∧
    (s.blk ≠ .off → s.blk ≠ .reset → exec .wakeTokenRefill s = .next (State.settle
      (s.onPwr fun p => { p with tokens := min (p.tokens + 1) (s.reg Reg.PWR_WAKE_RATE) }))) ∧
    (∀ rest, s.pwr.wakes = n :: rest →
      ((s.pwr.tokens = 0 ∨ s.pmi.pgood = false) → exec (.wakeRelease n) s = .next s.settle) ∧
      (s.powered = true → s.pmi.pgood = true → 0 < s.pwr.tokens →
        (s.pwr.cleared = some (.wake n) → exec (.wakeRelease n) s = .next (State.settle (State.bump (s.onPwr fun p =>
          { p with cleared := none, tokens := p.tokens - 1, wakes := rest, waking := p.waking ++ [n] }) Reg.PWR_WAKES))) ∧
        (s.pwr.cleared ≠ some (.wake n) → s.pwr.held = some (.wake n) → exec (.wakeRelease n) s = .next s.settle) ∧
        (s.pwr.cleared ≠ some (.wake n) → s.pwr.held ≠ some (.wake n) → 65535 ≤ s.pwr.forecast + 4 * s.reg Reg.PWR_FORECAST_STEP →
          ∃ k, exec (.wakeRelease n) s = .next (State.settle (State.bump (State.onPwr { s with free := k } fun p =>
            { p with tokens := p.tokens - 1, wakes := rest, waking := p.waking ++ [n] }) Reg.PWR_WAKES))))) ∧
    (n ∈ s.pwr.waking → ∃ u : State, exec (.wakeComplete n) s = .next u.settle ∧ n ∉ u.pwr.waking ∧
      u.regAt Reg.PWR_CORE_STATE n = (if (s.core n).run.isSome || s.serving n then 0 else 1) ∧
      (s.pmi.pgood = false → u.regAt Reg.PWR_CORE_LEVEL n = 1) ∧
      (s.pmi.pgood = true → u.regAt Reg.PWR_CORE_LEVEL n ≤ s.regAt Reg.PWR_CORE_CAP n ∧
        ∀ m, m < s.build.cores → s.regAt Reg.PWR_CORE_STATE m = 0 → u.regAt Reg.PWR_CORE_LEVEL n ≤ s.regAt Reg.PWR_CORE_LEVEL m) ∧
      u.mem = s.mem ∧ u.spad = s.spad ∧ u.cores = s.cores) ∧
    (n ∉ s.pwr.waking → exec (.wakeComplete n) s = .next s.settle) ∧
    (∀ waited, (n ∈ s.pwr.wakes → 100000 < waited → exec (.wakeDelayed n waited) s = .next (State.settle (s.raise .wakeDelayed (.core n) 0xFF waited))) ∧
      (waited ≤ 100000 → exec (.wakeDelayed n waited) s = .next s.settle)) ∧
    (n < s.build.cores →
      (s.engineHolds n .matrix = false → exec (.mmGateDelay n) s = .next (State.settle (s.onCore n fun x => { x with gated := true }))) ∧
      (s.engineHolds n .matrix = true → exec (.mmGateDelay n) s = .next s.settle)) ∧
    (∀ rest, s.pwr.ramps = n :: rest → (∀ m ∈ n :: rest, s.engineHolds m .matrix = true) → s.powered = true → s.awake n = true →
      (s.reg Reg.PWR_RAMP_MAX ≤ s.pwr.ramping.length → exec (.rampStart n) s = .next s.settle) ∧
      (s.pwr.ramping.length < s.reg Reg.PWR_RAMP_MAX → s.pwr.cleared = some (.ramp n) → exec (.rampStart n) s = .next (State.settle
        (s.onPwr fun p => { p with cleared := none, ramps := rest, ramping := p.ramping ++ [n] })))) ∧
    (n ∈ s.pwr.ramping → (s.core n).mq = [] → ∃ u : State, exec (.rampComplete n) s = .next u.settle ∧ (u.core n).gated = false ∧ n ∉ u.pwr.ramping) ∧
    (n ∉ s.pwr.ramping → exec (.rampComplete n) s = .next s.settle)

/-- One interval of the power governor: the levels, the estimate, and the settings that the next interval uses. For a sound powered state, at the end of an interval PWR_ESTIMATE is the estimate in watts, at most 0xFFFF. With PMI_PGOOD high no core's issue level moves by more than one, none falls below 1, and a raised level stays within the core's cap; with PMI_PGOOD low every built core is at level 1. PWR_BUDGET and PWR_HYST as they then stand serve the next interval, and PWR_ALERT_BUDGET where it is lower during an alert. Memory, scratchpads, cores, links and synchronisation are untouched. -/
def Obligations.GovernorInterval : Prop :=
  ∀ s : State, s.sound = true → s.blk ≠ .off → s.blk ≠ .reset → ∃ u : State, exec .governorInterval s = .next u.settle ∧
    u.reg Reg.PWR_ESTIMATE = min (u.pwr.est / 1600000) 0xFFFF ∧
    (s.pmi.pgood = false → ∀ n, n < s.build.cores → u.regAt Reg.PWR_CORE_LEVEL n = 1) ∧
    (s.pmi.pgood = true → ∀ n, n < s.build.cores →
      let v := s.regAt Reg.PWR_CORE_LEVEL n
      let w := u.regAt Reg.PWR_CORE_LEVEL n
      v ≤ w + 1 ∧ w ≤ v + 1 ∧ (1 ≤ v → 1 ≤ w) ∧ (v < w → w ≤ s.regAt Reg.PWR_CORE_CAP n ∧ w ≤ Table.get s.pwr.caps 16 n)) ∧
    u.pwr.hyst = s.reg Reg.PWR_HYST ∧
    u.pwr.budget = (if s.pmi.alertActive then min (s.reg Reg.PWR_BUDGET) (s.reg Reg.PWR_ALERT_BUDGET) else s.reg Reg.PWR_BUDGET) ∧
    (∀ n, n < s.build.cores → Table.get u.pwr.caps 16 n = s.regAt Reg.PWR_CORE_CAP n) ∧
    u.mem = s.mem ∧ u.spad = s.spad ∧ u.cores = s.cores ∧ u.links = s.links ∧ u.sems = s.sems ∧ u.counters = s.counters ∧
    u.blk = s.blk ∧ u.pmi = s.pmi

/-- A flow unit reads back: the kind, the fill, the check and the contents of the 256 bytes sent are those of the unit. For every data or replayed unit of 1 to 31 64-bit slots with a first head of at most 31 and a sequence number below 4096, the 256 bytes that a transmitter sends read back the same kind, fill, first head, slots and XOFF bit, and for a replayed unit the sequence number; they pass the check under the seed of their kind and sequence. Control and idle units do so too, and each legal control record of a control unit reads back from its eight bytes. It says that no field of a unit is dropped or confused with another. -/
def Obligations.FlowUnitsReadBack : Prop :=
  (∀ u : FlowUnit, (u.kind = .data ∨ u.kind = .replayed) → u.data.fill = u.data.slots.length → 1 ≤ u.data.slots.length → u.data.slots.length ≤ 31 →
      u.data.firstHead < 32 → (∀ x ∈ u.data.slots, x < 2 ^ 64) → u.seq < 4096 →
    u.bytes.length = 256 ∧ rawKind u.bytes = u.kind ∧ rawData u.bytes = u.data ∧ bit (le 0 4 u.bytes) 29 = u.xoff ∧
      (u.kind = .replayed → fld (le 0 4 u.bytes) 18 7 = u.seq) ∧ rawCheck u.bytes (unitSeed u.kind u.seq) = true) ∧
  (∀ u : FlowUnit, (u.kind = .control ∨ u.kind = .idle) → u.records.length ≤ 31 → (u.kind = .idle → u.records = []) →
    u.bytes.length = 256 ∧ rawKind u.bytes = u.kind ∧ rawFill u.bytes = u.records.length ∧ bit (le 0 4 u.bytes) 29 = u.xoff ∧
      rawCheck u.bytes (unitSeed u.kind u.seq) = true ∧
      ∀ i r, u.records[i]? = some r → slice (4 + 8 * i) 8 u.bytes = r.bytes) ∧
  CtlRecord.parse CtlRecord.empty.bytes = .empty ∧
  (∀ c, c < 4096 → CtlRecord.parse (CtlRecord.ack c).bytes = .ack c) ∧
  (∀ a n, a < 4096 → 1 ≤ n → n ≤ 2047 → CtlRecord.parse (CtlRecord.sack a n).bytes = .sack a n ∧
    CtlRecord.parse (CtlRecord.nack a n).bytes = .nack a n) ∧
  (∀ c l e p, c < 65536 → l < 256 → e < 65536 → p < 32 → CtlRecord.parse (CtlRecord.ident c l e p).bytes = .ident c l e p) ∧
  (∀ a b c d k, a < 256 → b < 256 → c < 256 → d < 256 → k < 65536 →
    CtlRecord.parse (CtlRecord.version a b c d k).bytes = .version a b c d k) ∧
  (∀ r t e, t < 4096 → e < 65536 → CtlRecord.parse (CtlRecord.confirm r t e).bytes = .confirm r t e)

/-- What a link sends at a unit boundary, and the timers of acknowledgement and replay. In a sound state, at a unit boundary of a link: one neither Active nor in Exchange sends nothing; due NACK records go first; then the oldest unit due for replay, counted in LINK_REPLAYS and in its replays; then a due ACK; then a new data unit with the next sequence number, which enters the replay buffer while the queue gives up its slots; otherwise an idle unit. Each carries the link's XOFF. The acknowledge timer makes ACK and SACK records due; the replay timer makes one more replay of a unit due, or takes the link down at LINK_REPLAY_LIMIT. -/
def Obligations.LinkTransmission : Prop :=
  ∀ (s : State) (n : Nat), s.sound = true → n < 64 →
    let l := s.link n
    (l.active = false → l.stage ≠ .exchange → exec (.transmitUnitBoundary n) s = .next s.settle) ∧
    (l.active = true → ∃ u : State, exec (.transmitUnitBoundary n) s = .next u.settle ∧ (∀ m, m ≠ n → u.link m = s.link m) ∧
      (s.reg Reg.TLM_RATE_LOG2 = 0 → u = { s with links := u.links, dict := u.dict, pkt := { s.pkt with members := u.pkt.members } }) ∧
      (∀ a k, l.nackDue = [(a, k)] → ∃ rs, (u.link n).lastSent = some { kind := .control, xoff := l.xoffOut, seq := 0, data := { firstHead := 31, fill := 0, slots := [] }, records := .nack a k :: rs } ∧ (u.link n).nackDue = [] ∧
          (u.link n).replay = l.replay ∧ (u.link n).txQueue = l.txQueue ∧ (u.link n).txNext = l.txNext) ∧
      (l.nackDue = [] → l.identDue = false → l.confirmDue = false →
        (∀ a r b, l.replay = a ++ r :: b → (∀ x ∈ a, x.due = false ∧ x.seq ≠ r.seq) → r.due = true →
          u.link n = { l with replay := a ++ { r with due := false, replays := r.replays + 1 } :: b, lastSent := some { kind := .replayed, xoff := l.xoffOut, seq := r.seq, data := r.data, records := [] } } ∧
          u.regAt Reg.LINK_REPLAYS n = (s.regAt Reg.LINK_REPLAYS n + 1) % 2 ^ 32) ∧
        ((∀ x ∈ l.replay, x.due = false) →
          (l.ackDue = true → ∃ rs, (u.link n).lastSent = some { kind := .control, xoff := l.xoffOut, seq := 0, data := { firstHead := 31, fill := 0, slots := [] }, records := .ack ((match l.missing with | m :: _ => m + 4095 | [] => l.next + 4095) % 4096) :: rs } ∧ (u.link n).ackDue = false ∧
              (u.link n).replay = l.replay) ∧
          (l.ackDue = false → l.xoffIn = false → l.txQueue ≠ [] → l.replay = [] → u.link n = { l with
              txNext := (l.txNext + 1) % 4096, txQueue := l.txQueue.drop 31, txPos := l.txPos + (l.txQueue.take 31).length, replay := [{ seq := l.txNext, data := l.nextData, replays := 0, pos := l.txPos, due := false }], txHeads := l.txHeads + (l.txQueue.take 31).countP (·.head), lastSent := some { kind := .data, xoff := l.xoffOut, seq := l.txNext, data := l.nextData, records := [] } }) ∧
          (l.ackDue = false → (l.xoffIn = true ∨ l.txQueue = [] ∨ 1024 ≤ l.replay.length) → u.link n = { l with
              lastSent := some { kind := .idle, xoff := l.xoffOut, seq := 0, data := { firstHead := 31, fill := 0, slots := [] }, records := [] } })))) ∧
    (l.active = true → l.ackTimer = true → exec (.ackTimerExpire n) s = .next (State.settle
      (s.onLink n fun l => { l with ackDue := true, ackTimer := false, sinceAck := 0 }))) ∧
    ((l.active = false ∨ l.ackTimer = false) → exec (.ackTimerExpire n) s = .next s.settle) ∧
    (∀ a r b, l.active = true → l.replay = a ++ r :: b → (∀ x ∈ a ++ b, x.seq ≠ r.seq) → r.due = false →
      (r.replays < l.set.replayLimit → exec (.replayTimeout n r.seq) s = .next (State.settle
        (s.onLink n fun l => { l with replay := a ++ { r with due := true } :: b }))) ∧
      (l.set.replayLimit ≤ r.replays → exec (.replayTimeout n r.seq) s = .next (State.settle (s.goDown n .replayLimit)))) ∧
    (l.active = false → ∀ q, exec (.replayTimeout n q) s = .next s.settle)

/-- What a link takes from a data, replayed, control or idle unit, good or bad. In a sound state, on an Active link whose error counts stay within limits: a good unit of sequence NEXT with nothing missing is delivered and NEXT advances; one of sequence NEXT+1 is held, NEXT is recorded missing with a NACK due; a unit with a flagged word, or FILL 0, is bad: NEXT is recorded missing and nothing delivered; the eighth bad unit running takes the link down with cause FRAMING. A replayed unit that is missing fills the gap; one neither missing nor new is counted a duplicate. A control unit's ACK and SACK free replay entries and its NACK makes units due. An idle unit takes the XOFF bit. An inactive link takes nothing. -/
def Obligations.LinkReception : Prop :=
  ∀ (s : State) (n : Nat) (raw : List Byte), s.sound = true → n < 64 →
    let l := s.link n
    let calm : Prop := (∀ p ∈ l.chosen, l.laneErrs.getD p 0 ≤ l.set.laneThreshold) ∧ s.regAt Reg.LINK_BAD_UNITS n < l.set.errThreshold ∧ l.badRun < 7
    (l.active = false → ∀ e, exec (.dataUnitReceive n raw e) s = .next s.settle ∧ exec (.replayedUnitReceive n raw e) s = .next s.settle ∧
      exec (.idleUnitReceive n raw e) s = .next s.settle) ∧
    (l.active = true → calm → rawKind raw = .data → rawFill raw ≠ 0 → l.next < 4096 →
      (rawCheck raw l.next = true → l.missing = [] → l.held = [] → l.hasRoom false = true → ∃ u : State, exec (.dataUnitReceive n raw []) s = .next u.settle ∧
        u = { s with links := u.links, dict := u.dict } ∧ (∀ m, m ≠ n → u.link m = s.link m) ∧ (u.link n).active = true ∧
        (u.link n).next = (l.next + 1) % 4096 ∧ (u.link n).missing = [] ∧ (u.link n).held = [] ∧
        (u.link n).rxFlits = l.rxFlits ++ (rawData raw).flits ∧ (u.link n).xoffIn = bit (le 0 4 raw) 29 ∧ (u.link n).badRun = 0) ∧
      (rawCheck raw l.next = false → rawCheck raw ((l.next + 1) % 4096) = true → l.missing = [] → l.held = [] → l.nackDue = [] → l.hasRoom true = true →
        ∃ u : State, exec (.dataUnitReceive n raw []) s = .next u.settle ∧ u = { s with links := u.links, dict := u.dict } ∧
          (u.link n).next = (l.next + 2) % 4096 ∧ (u.link n).missing = [l.next] ∧ (u.link n).nackDue = [(l.next, 1)] ∧
          (u.link n).held = [((l.next + 1) % 4096, rawData raw)] ∧ (u.link n).rxFlits = l.rxFlits)) ∧
    (∀ e, l.active = true → rawKind raw = .data → (e ≠ [] ∨ rawFill raw = 0) → (∀ p ∈ l.chosen, l.laneErrs.getD p 0 + e.count p ≤ l.set.laneThreshold) →
      (l.badRun < 7 → s.regAt Reg.LINK_BAD_UNITS n < l.set.errThreshold → ∃ u : State, exec (.dataUnitReceive n raw e) s = .next u.settle ∧
        u = { s with links := u.links, dict := u.dict } ∧ (u.link n).next = (l.next + 1) % 4096 ∧ (u.link n).missing = l.missing ++ [l.next] ∧
        (u.link n).rxFlits = l.rxFlits ∧ (u.link n).held = l.held ∧ (u.link n).badRun = l.badRun + 1) ∧
      (7 ≤ l.badRun → ∃ u : State, exec (.dataUnitReceive n raw e) s = .next u.settle ∧ (u.link n).active = false ∧
        u.regAt Reg.LINK_DOWN_CAUSE n = 2)) ∧
    (∀ q, l.active = true → calm → rawKind raw = .replayed → rawFill raw ≠ 0 → fld (le 0 4 raw) 18 7 = q → rawCheck raw (0x1000 ||| q) = true →
      2048 ≤ (q + 4096 - l.next) % 4096 →
      (l.missing = [q] → l.held = [] → ∃ u : State, exec (.replayedUnitReceive n raw []) s = .next u.settle ∧ (u.link n).missing = [] ∧
        (u.link n).next = l.next ∧ (u.link n).rxFlits = l.rxFlits ++ (rawData raw).flits) ∧
      (q ∉ l.missing → ∃ u : State, exec (.replayedUnitReceive n raw []) s = .next u.settle ∧ (u.link n).missing = l.missing ∧
        (u.link n).next = l.next ∧ (u.link n).rxFlits = l.rxFlits ∧ u.regAt Reg.LINK_DUP_UNITS n = (s.regAt Reg.LINK_DUP_UNITS n + 1) % 2 ^ 32)) ∧
    (l.active = true → calm → rawKind raw = .idle → rawCheck raw 0x3000 = true → ∃ u : State, exec (.idleUnitReceive n raw []) s = .next u.settle ∧
      u = { s with links := u.links, dict := u.dict } ∧ (u.link n).xoffIn = bit (le 0 4 raw) 29 ∧ (u.link n).next = l.next ∧ (u.link n).rxFlits = l.rxFlits) ∧
    (l.active = true → calm → rawKind raw = .control → rawCheck raw 0x2000 = true → rawFill raw = 1 →
      (∀ c, CtlRecord.parse (slice 4 8 raw) = .ack c → ∃ u : State, exec (.controlUnitReceive n raw []) s = .next u.settle ∧
        (u.link n).replay = l.replay.filter fun r => 2048 ≤ (c + 4096 - r.seq) % 4096) ∧
      (∀ a k, CtlRecord.parse (slice 4 8 raw) = .sack a k → ∃ u : State, exec (.controlUnitReceive n raw []) s = .next u.settle ∧
        (u.link n).replay = l.replay.filter fun r => k ≤ (r.seq + 4096 - a) % 4096) ∧
      (∀ a k, CtlRecord.parse (slice 4 8 raw) = .nack a k → (∀ r ∈ l.replay, r.replays < l.set.replayLimit) →
        ∃ u : State, exec (.controlUnitReceive n raw []) s = .next u.settle ∧
          (u.link n).replay = l.replay.map fun r => if (r.seq + 4096 - a) % 4096 < k then { r with due := true } else r)) ∧
    (l.active = false → l.stage ≠ .exchange → ∀ e, exec (.controlUnitReceive n raw e) s = .next s.settle)

/-- A link going down: the causes that take it down, what going down and flushing do, and what an inactive link ignores. When an Active link goes down it stops being Active, enters Freewheel where the setting gives one, is due to train, clears its error window and the partner's XOFF, counts LINK_DOWN_EVENTS, records the cause of R92, raises LINK_DOWN, and keeps its replay buffer, queue and held units; with no freewheel it flushes at once. Silence, an expired pause, a failed working lane, and LINK_RETRAIN take it down with causes 3, 6, 1 and 8. A flush with nothing stored advances the epoch, returns both sequence counts to 0 and counts LINK_FLUSHES. LINK_ENABLE FALSE flushes and leaves the link Down; the freewheel interval's end flushes. -/
def Obligations.LinkGoingDown : Prop :=
  ∀ (s : State) (n : Nat) (via : Via), s.sound = true → n < 64 →
    let l := s.link n
    (l.active = true → l.set.freewheel ≠ 0 →
      let down (c : Nat) : State := State.raise ((((s.onLink n fun l => { l with
        active := false, stage := .idle, freewheel := true, trainDue := true, attempts := 0, winUnits := 0, laneErrs := [0, 0, 0, 0, 0], badRun := 0, xoffIn := false, ackTimer := false }).bumpAt Reg.LINK_DOWN_EVENTS n).setRegAt Reg.LINK_DOWN_CAUSE n c).setRegAt Reg.LINK_BAD_UNITS n 0)
        .linkDown (.link n) 0xFF c
      exec (.silenceTimeout n) s = .next (State.settle (down 3)) ∧
      (l.xoffIn = true → exec (.pauseTimeout n) s = .next (State.settle (down 6))) ∧
      (s.admits via Reg.LINK_RETRAIN n 0 = true → exec (.linkRetrain via n) s = .next (State.settle ((down 8).answered .ok)))) ∧
    (∀ pos, pos < 4 → l.active = true → pos ∈ l.chosen → ∃ u : State, exec (.laneFail n pos) s = .next u.settle ∧ (u.link n).active = false ∧
      (u.link n).failed = setBit l.failed pos ∧ u.regAt Reg.LINK_DOWN_CAUSE n = 1 ∧
      u.regAt Reg.LINK_DOWN_EVENTS n = (s.regAt Reg.LINK_DOWN_EVENTS n + 1) % 2 ^ 32 ∧ ∀ m, m ≠ n → u.link m = s.link m) ∧
    (l.active = true → l.chosen = [0, 1, 2, 3] → l.single = false → l.failed = 0 → exec (.laneFail n 4) s = .next (State.settle
      ((s.onLink n fun l => { l with failed := 16 }).raise .spareLost (.link n) 0xFF 0))) ∧
    (l.active = false → exec (.silenceTimeout n) s = .next s.settle ∧ (∀ pos, exec (.laneFail n pos) s = .next s.settle) ∧
      (s.admits via Reg.LINK_RETRAIN n 0 = true → exec (.linkRetrain via n) s = .next (State.settle (State.answered
        (s.onLink n fun l => { l with heldDown := false, attempts := 0, trainDue := true, stage := .idle }) .ok)))) ∧
    (l.xoffIn = false → exec (.pauseTimeout n) s = .next s.settle) ∧
    (l.active = false → l.freewheel = true → l.wasActive = true → l.failed = 0 → l.replay = [] → l.txQueue = [] → l.txPkts = [] → l.held = [] → l.asm = none →
      l.rxFlits = [] → ∃ u : State, exec (.freewheelExpire n) s = .next u.settle ∧ u.link n = { l with
          missing := [], nackDue := [], ackDue := false, txNext := 0, next := 0, txPos := 0, freewheel := false, wasActive := false, xoffIn := false } ∧
        u.regAt Reg.LINK_EPOCH n = (s.regAt Reg.LINK_EPOCH n + 1) % 2 ^ 16 ∧
        u.regAt Reg.LINK_FLUSHES n = (s.regAt Reg.LINK_FLUSHES n + 1) % 2 ^ 32 ∧ u = { s with links := u.links, dict := u.dict }) ∧
    ((l.active = true ∨ l.freewheel = false) → exec (.freewheelExpire n) s = .next s.settle) ∧
    (s.admits via Reg.LINK_ENABLE n 0 = true → ∃ u : State, exec (.linkEnableFalse via n) s = .next (u.answered .ok).settle ∧
      (u.link n).active = false ∧ (u.link n).stage = .idle ∧ (u.link n).phyRstN = false ∧ (u.link n).trainDue = false ∧ (u.link n).txNext = 0 ∧ (u.link n).next = 0 ∧
      (l.wasActive = true → (u.link n).replay = [] ∧ (u.link n).txQueue = [] ∧ (u.link n).held = [] ∧ (u.link n).missing = []) ∧
      u.regAt Reg.LINK_ENABLE n = 0 ∧ u.mem = s.mem)

/-- Training: the start of an attempt, detection, training words, the deadlines and the retry wait. A link that is due, enabled, clocked, not Active and not Held Down starts an attempt in Detect with the settings of 0x3000; LINK_ENABLE TRUE on a disabled link makes it due. Detect ends in Align with four ready positions and only then. A good training word on an offered ready position counts a run and locks it at 64; a bad one restarts the run; on an Active link a good one takes the link down with cause PARTNER. The lock deadline with too few lanes, the detect and attempt deadlines fail the attempt, which counts it, or holds the link down with LINK_TRAIN_FAIL at the last retry. The wait after a failure starts the next; in Exchange the records fall due again. -/
def Obligations.LinkTraining : Prop :=
  ∀ (s : State) (n : Nat) (via : Via), s.sound = true → n < 64 →
    let l := s.link n
    let begun : State := s.onLink n fun l => { l with stage := .detect, phyRstN := true, trainDue := false, set := s.linkSettings, positions := [.blank, .blank, .blank, .blank, .blank], gotIdent := none, gotVersion := none, sentConfirm := none, identDue := false, confirmDue := false }
    (l.active = false → l.heldDown = false → s.rst.lclk.testBit n = true → s.regAt Reg.LINK_ENABLE n ≠ 0 →
      (l.trainDue = true → exec (.trainingStart n) s = .next begun.settle) ∧
      (l.trainDue = false → exec (.trainingStart n) s = .next s.settle) ∧
      (l.stage = .idle → l.attempts ≠ 0 → exec (.trainingRetryWait n) s = .next begun.settle)) ∧
    (l.attempts = 0 → exec (.trainingRetryWait n) s = .next s.settle) ∧
    (s.admits via Reg.LINK_ENABLE n 1 = true → s.regAt Reg.LINK_ENABLE n = 0 → l.active = false → exec (.linkEnableTrue via n) s = .next (State.settle (State.answered
      ((s.setRegAt Reg.LINK_ENABLE n 1).onLink n fun l => { l with heldDown := false, attempts := 0, trainDue := true, stage := .idle }) .ok))) ∧
    (∀ ready, l.stage = .detect → l.offerSingle = false →
      (4 ≤ popCount 5 ready → exec (.detectSuccess n ready) s = .next (State.settle (s.onLink n fun l => { l with
        stage := .align, positions := (List.range 5).map fun p => { Position.blank with ready := ready.testBit p } }))) ∧
      (popCount 5 ready < 4 → exec (.detectSuccess n ready) s = .next s.settle)) ∧
    (∀ ready, l.stage ≠ .detect → exec (.detectSuccess n ready) s = .next s.settle ∧ exec (.detectTimeout n) s = .next s.settle) ∧
    (l.exhausted = false → l.stage = .detect →
      (l.attempts + 1 < l.set.retries → exec (.detectTimeout n) s = .next (State.settle (s.onLink n fun l => { l with
        attempts := l.attempts + 1, stage := .idle, phyRstN := false, trainDue := false }))) ∧
      (l.set.retries ≤ l.attempts + 1 → exec (.detectTimeout n) s = .next (State.settle ((s.onLink n fun l => { l with
        attempts := l.attempts + 1, heldDown := true, phyRstN := false, stage := .idle, trainDue := false }).raise .linkTrainFail (.link n) 0xFF 0)))) ∧
    (l.exhausted = false → (l.stage = .align ∨ l.stage = .exchange) → l.attempts + 1 < l.set.retries →
      exec (.trainingAttemptTimeout n) s = .next (State.settle (s.onLink n fun l => { l with
        attempts := l.attempts + 1, stage := .idle, phyRstN := false, trainDue := false })) ∧
      (l.stage = .align → l.offerSingle = false → l.single = false → (∀ p ∈ l.positions, p.locked = false) → l.positions.length = 5 →
        ∃ u : State, exec (.lockDeadline n) s = .next u.settle ∧ (u.link n).stage = .idle ∧ (u.link n).phyRstN = false ∧
          (u.link n).attempts = l.attempts + 1 ∧ u = { s with links := u.links })) ∧
    (l.stage ≠ .align → exec (.lockDeadline n) s = .next s.settle) ∧
    (l.stage = .exchange → exec (.trainingRecordRepeat n) s = .next (State.settle (s.onLink n fun l => { l with
      identDue := true, confirmDue := l.confirmDue || l.sentConfirm.isSome }))) ∧
    (∀ pos (w : Word128), pos < 5 →
      let good : Prop := fld w.toNat 127 64 = 0xA5C33C5A0F9669F0 ∧ Crc.crc16 ((leBytes 16 w.toNat).drop 2) = fld w.toNat 15 0 ∧ (fld w.toNat 60 58 = 1 ∨ fld w.toNat 60 58 = 2)
      (l.active = true → good → exec (.trainingWordReceive n pos w) s = .next (State.settle (s.goDown n .partner))) ∧
      (l.active = true → ¬good → exec (.trainingWordReceive n pos w) s = .next s.settle) ∧
      (∀ old, l.active = false → l.stage = .align → l.positions[pos]? = some old → old.ready = true → l.offered pos = true →
        (¬good → exec (.trainingWordReceive n pos w) s = .next (State.settle (s.onLink n fun l => { l with positions := l.positions.set pos { old with good := 0 } }))) ∧
        (good → ∃ u : State, exec (.trainingWordReceive n pos w) s = .next u.settle ∧ u = { s with links := u.links } ∧
          (u.link n).positions[pos]? = some { old with
            good := (if old.good ≠ 0 ∧ fld w.toNat 50 35 = (old.count + 1) % 65536 then old.good + 1 else 1), count := fld w.toNat 50 35, locked := old.locked || decide (64 ≤ (if old.good ≠ 0 ∧ fld w.toNat 50 35 = (old.count + 1) % 65536 then old.good + 1 else 1)), partner := fld w.toNat 63 61, readyWords := old.readyWords + (if fld w.toNat 60 58 = 2 then 1 else 0) })))

/-- A packet reads back: the flits sent parse to the same packet, with the declared length, one marked head and the payload check. For every packet whose fields fit their widths, control packets with at most 16 payload bytes and no data header, data packets with at most 4096, the flits that a transmitter makes are as many as the class and payload length declare, only the first is marked as a head, they parse to the same packet, the first flit declares its class and length, and a data packet's stored check is the CRC-32C of its payload. It says that no header field is dropped or confused with another. -/
def Obligations.PacketsReadBack : Prop :=
  ∀ p : Packet, p.job < 2 ^ 12 → p.dest < 2 ^ 16 → p.src < 2 ^ 16 → p.tag < 2 ^ 16 → p.gen < 2 ^ 8 → p.seq < 2 ^ 20 →
    p.destOffset < 2 ^ 48 → p.counter < 2 ^ 16 → p.opArg < 2 ^ 16 → (p.data = true → p.payload.length ≤ 4096) →
    (p.data = false → p.payload.length ≤ 16 ∧ p.destOffset = 0 ∧ p.counter = 0 ∧ p.countEn = false ∧ p.countUnit = false ∧ p.opArg = 0) →
    p.flits.length = flitCount p.data p.payload.length ∧ parsePacket (p.flits.map (·.bits)) = some p ∧
    (∃ f rest, p.flits = f :: rest ∧ f.head = true ∧ (∀ x ∈ rest, x.head = false) ∧ declared f.bits = some (p.data, p.payload.length)) ∧
    (p.data = true → p.payload ≠ [] → storedCheck (p.flits.map (·.bits)) = Crc.crc32c 0 p.payload)

/-- A packet arriving on a link: its header admitted or dropped and counted, its end handled whole, a damaged payload answered, a stalled one torn. In a sound state without telemetry, with a packet's flits at the front of a link's receive buffer and none in progress, the header's arrival takes the header flits and starts the packet, admitted when the checks of R109 pass, else dropped, counted under its reason and in LINK_PKT_DROPS. With all its flits in, an admitted packet leaves the buffer and has exactly the effect of its *_RECEIVE command; with too few nothing happens; with a wrong payload check it is counted in DROP_CHECK and answered NEG_COMPLETION CHECK. A stalled packet with a parsed admitted header is torn: counted and answered NEG_COMPLETION TORN. -/
def Obligations.PacketArrival : Prop :=
  ∀ (s : State) (n : Nat) (p : Packet) (rest : List Flit), s.sound = true → n < 64 → s.reg Reg.TLM_RATE_LOG2 = 0 →
    parsePacket (p.flits.map (·.bits)) = some p → p.flits.length = flitCount p.data p.payload.length →
    (∀ x ∈ p.flits.drop 1, x.head = false) → (p.flits.head?.bind fun f => declared f.bits) = some (p.data, p.payload.length) →
    let l := s.link n
    let h := if p.data then 4 else 2
    (l.asm = none → l.skip = false → l.rxFlits = p.flits ++ rest → ∃ u : State, exec (.packetHeaderArrive n) s = .next u.settle ∧
      (u.link n).rxFlits = p.flits.drop h ++ rest ∧ (u.link n).rxHeads = l.rxHeads + 1 ∧ (∀ m, m ≠ n → u.link m = s.link m) ∧
      u = { s with links := u.links, dict := u.dict } ∧
      (s.checkHeader n p = none → (u.link n).asm = some { flits := (p.flits.take h).map (·.bits), due := p.flits.length - h, admitted := true, dropped := false } ∧
        u.dict = s.dict) ∧
      (∀ key, s.checkHeader n p = some key → (u.link n).asm = some { flits := (p.flits.take h).map (·.bits), due := p.flits.length - h, admitted := false, dropped := true } ∧
        u.reg key = (s.reg key + 1) % 2 ^ 32 ∧ u.regAt Reg.LINK_PKT_DROPS n = (s.regAt Reg.LINK_PKT_DROPS n + 1) % 2 ^ 32)) ∧
    (∀ a, l.asm = some a → a.admitted = true → a.flits = (p.flits.take h).map (·.bits) → a.due = p.flits.length - h → h ≤ p.flits.length →
      (l.rxFlits = p.flits.drop h ++ rest → (p.data = true → payCheck p.payload = storedCheck (p.flits.map (·.bits))) →
        ∃ t : State, (t.link n).asm = none ∧ (t.link n).rxFlits = rest ∧ (∀ m, m ≠ n → t.link m = s.link m) ∧ t = { s with links := t.links } ∧
          (p.op = .store → exec (.packetComplete n) s = exec (.storeReceive n p) t) ∧ (p.op = .loadReq → exec (.packetComplete n) s = exec (.loadReqReceive n p) t) ∧
          (p.op = .copy → exec (.packetComplete n) s = exec (.copyReceive n p) t) ∧ (p.op = .scatter → exec (.packetComplete n) s = exec (.scatterReceive n p) t) ∧
          (p.op = .completion → exec (.packetComplete n) s = exec (.completionReceive p) t) ∧
          (p.op = .windowReq → exec (.packetComplete n) s = exec (.windowReqReceive p) t) ∧
          (p.op = .collAbort → exec (.packetComplete n) s = exec (.collAbortReceive p) t)) ∧
      (l.rxFlits.length < p.flits.length - h → exec (.packetComplete n) s = .next s.settle) ∧
      (a.dropped = false → l.freewheel = false → l.xoffOut = false → l.rxFlits = [] → h < p.flits.length → p.mcast = false → p.op ≠ .negCompletion → s.pkt.drain = none →
        ∃ (u : State) (q : Packet) (w : Waiting), exec (.pktStallTimeout n) s = .next u.settle ∧ (u.link n).asm = none ∧ (u.link n).skip = true ∧
          u.reg Reg.DROP_TORN = (s.reg Reg.DROP_TORN + 1) % 2 ^ 32 ∧ u.pkt.wait = s.pkt.wait ++ [w] ∧ w.pkt = q ∧ q.op = .negCompletion ∧ q.dest = p.src ∧
          q.job = p.job ∧ q.tag = p.tag ∧ q.gen = p.gen ∧ q.seq = p.seq ∧ q.payload = leBytes 8 0x01)) ∧
    (∀ a body, l.asm = some a → a.admitted = true → a.due = body.length → l.rxFlits = body ++ rest → (∀ x ∈ body, x.head = false) →
      parsePacket (a.flits ++ body.map (·.bits)) = some p → p.data = true → payCheck p.payload ≠ storedCheck a.flits → p.mcast = false → s.pkt.drain = none →
      ∃ (u : State) (w : Waiting), exec (.packetComplete n) s = .next u.settle ∧ (u.link n).asm = none ∧
        u.reg Reg.DROP_CHECK = (s.reg Reg.DROP_CHECK + 1) % 2 ^ 32 ∧ u.mem = s.mem ∧
        (p.op ≠ .negCompletion → u.pkt.wait = s.pkt.wait ++ [w] ∧ w.pkt.op = .negCompletion ∧ w.pkt.dest = p.src ∧ w.pkt.tag = p.tag ∧ w.pkt.seq = p.seq ∧
          w.pkt.payload = leBytes 8 0x02))

/-- Injection: a packet without a path fails, an unordered one goes whole to the one open link of its port, one for this chip is handled within. PACKET_INJECT of an index with no waiting packet, or in Off or Reset, changes nothing. A packet whose candidate set is empty leaves the waiting list and fails with its reason; one that must wait for a freewheeling link waits. An unordered packet that nothing holds back, whose only candidate port has one open member, is put whole at the end of that link's transmit queue, and leaves the list. An ordered one alone of its pair goes to the first Active member of the port at (SRC xor DST) modulo the candidates, and is pinned there. A packet for the block's own chip is handled at once. -/
def Obligations.PacketInjection : Prop :=
  ∀ (s : State) (i : Nat), s.sound = true →
    (s.pkt.wait[i]? = none → exec (.packetInject i) s = .next s.settle) ∧
    ((s.blk = .off ∨ s.blk = .reset) → exec (.packetInject i) s = .next s.settle) ∧
    (∀ w, s.pkt.wait[i]? = some w → s.blk ≠ .off → s.blk ≠ .reset →
      ((w.pkt.mcast = true ∨ w.pkt.dest ≠ s.ownChip) →
        (∀ r, s.path w.pkt = .fail r → exec (.packetInject i) s = .next (State.settle
          (s.onPkt fun k => { k with wait := k.wait.eraseIdx i, lost := k.lost ++ [(w.pkt, r)] }))) ∧
        (s.path w.pkt = .wait → exec (.packetInject i) s = .next s.settle) ∧
        (∀ q n, q < 64 → n < 64 → s.path w.pkt = .ports [q] → s.heldBack i w = false →
          (w.pkt.ordered = false → s.openMembers w.pkt q = [n] → ∃ u : State, exec (.packetInject i) s = .next u.settle ∧
            (u.link n).txQueue = (s.link n).txQueue ++ w.pkt.flits ∧ u.pkt.wait = s.pkt.wait.eraseIdx i ∧ u.pkt.pins = s.pkt.pins ∧
            (∀ m, m ≠ n → u.link m = s.link m) ∧ u.dict = s.dict ∧ u.mem = s.mem) ∧
          (w.pkt.ordered = false → s.openMembers w.pkt q = [] → exec (.packetInject i) s = .next s.settle) ∧
          (w.pkt.ordered = true → w.pkt.mcast = false → s.pkt.pins = [] → (s.activeMembers q).head? = some n → s.txUnits n < s.entryLimit w.pkt →
            ∃ u : State, exec (.packetInject i) s = .next u.settle ∧ (u.link n).txQueue = (s.link n).txQueue ++ w.pkt.flits ∧
              u.pkt.wait = s.pkt.wait.eraseIdx i ∧ u.pkt.pins = [{ src := w.pkt.src, dest := w.pkt.dest, port := q, link := n }]))) ∧
      (w.pkt.mcast = false → w.pkt.dest = s.ownChip → s.heldBack i w = false → w.pkt.op = .completion → exec (.packetInject i) s =
        exec (.completionReceive w.pkt) (s.onPkt fun k => { k with wait := k.wait.eraseIdx i })))

/-- Loading routes, draining a chip, changing a port's links, and binding a context to the routes. ROUTE_LOAD starts a load unless one is in progress; its completion, with memory readable, no reference held and the table inside 2^40, puts every word of memory into its route entry and reports 0, and past the end reports 4 and loads none. ROUTE_DRAIN_UPDATE is accepted only with a major-4 link among the ports; it completes once nothing targets the chip and writes the entry, or times out with 3; held packets go on. LPORT_LINKS takes a legal free set, at once on inactive links. CTX_ROUTE_BIND starts a bind outside Configure; the bind ends Bound with a reference on each valid chip, or Refused with its code. -/
def Obligations.RouteTables : Prop :=
  ∀ (s : State) (via : Via), s.sound = true →
    (s.admits via Reg.ROUTE_LOAD 0 0 = true →
      (s.pkt.loading = false → exec (.routeLoad via) s = .next (State.settle (((s.onPkt fun k => { k with loading := true }).setReg Reg.ROUTE_CMD_STATUS 2).answered .ok))) ∧
      (s.pkt.loading = true → exec (.routeLoad via) s = .next (State.settle (s.answered .busy)))) ∧
    (s.pkt.loading = false → exec .routeLoadComplete s = .next s.settle) ∧
    (s.pkt.loading = true → 2 ^ 40 < s.reg Reg.ROUTE_LOAD_BASE + 524288 → exec .routeLoadComplete s = .next (State.settle
      ((s.onPkt fun k => { k with loading := false }).setReg Reg.ROUTE_CMD_STATUS 4))) ∧
    (s.pkt.loading = true → s.reg Reg.ROUTE_LOAD_BASE + 524288 ≤ 2 ^ 40 → s.reg Reg.ROUTE_LOAD_BASE + 524288 ≤ s.build.memBytes → s.memPoison = [] →
      s.memAnswers = [] → 0 < s.build.ports → (∀ k, k < s.build.ports → (s.port k).disabled = false) → s.pkt.refs = [] →
      ∃ u : State, exec .routeLoadComplete s = .next u.settle ∧ u.reg Reg.ROUTE_CMD_STATUS = 0 ∧ u.pkt.loading = false ∧ u.mem = s.mem ∧
        ∀ d, d < 65536 → u.routeEntry d = leNat ((List.range 8).map fun i => memByte s.mem (s.reg Reg.ROUTE_LOAD_BASE + 8 * d + i))) ∧
    (∀ chip mask, s.admits via Reg.ROUTE_DRAIN_UPDATE 0 0 = true → s.pkt.drain = none →
      (∀ p ∈ bitsOf 64 (s.routeEntry chip ||| mask), ∀ n ∈ s.activeMembers p, (s.link n).version / 256 = 4 → exec (.routeDrainUpdate via chip mask) s = .next (State.settle
        (((s.onPkt fun k => { k with drain := some (chip, mask) }).setReg Reg.ROUTE_CMD_STATUS 2).answered .ok))) ∧
      ((∀ p ∈ bitsOf 64 (s.routeEntry chip ||| mask), ∀ n ∈ s.activeMembers p, (s.link n).version / 256 ≠ 4) →
        exec (.routeDrainUpdate via chip mask) s = .next (State.settle (s.answered .busy)))) ∧
    (∀ d m, s.pkt.drain = some (d, m) →
      (s.chipQuiet d = true → exec .routeDrainComplete s = .next (State.settle (((s.setReg (routeKey d) m).onPkt fun k =>
        { k with drain := none, wait := k.wait ++ k.drainHeld, drainHeld := [] }).setReg Reg.ROUTE_CMD_STATUS 0))) ∧
      (s.chipQuiet d = false → exec .routeDrainComplete s = .next s.settle) ∧
      exec .routeDrainTimeout s = .next (State.settle ((s.onPkt fun k =>
        { k with drain := none, wait := k.wait ++ k.drainHeld, drainHeld := [] }).setReg Reg.ROUTE_CMD_STATUS 3))) ∧
    (∀ lport mask, lport < 64 → s.admits via Reg.LPORT_LINKS lport mask = true →
      (popCount 64 mask ∈ [0, 1, 2, 4, 8, 16] → mask < 2 ^ s.build.links → (∀ q, q < 64 → q ≠ lport → s.regAt Reg.LPORT_LINKS q &&& mask = 0) →
        ∃ u : State, exec (.lportLinksWrite via lport mask) s = .next (u.answered .ok).settle ∧ u.regAt Reg.LPORT_LINKS lport = mask ∧
          (∀ q, q < 64 → q ≠ lport → u.regAt Reg.LPORT_LINKS q = s.regAt Reg.LPORT_LINKS q) ∧ u.links = s.links ∧
          (∀ n, n < s.build.links → (s.link n).active = false → (u.membersOf lport).testBit n = mask.testBit n) ∧
          (∀ n q, n < s.build.links → q < 64 → (s.link n).active = true → (u.membersOf q).testBit n = (s.membersOf q).testBit n)) ∧
      (popCount 64 mask ∉ [0, 1, 2, 4, 8, 16] → exec (.lportLinksWrite via lport mask) s = .next (State.settle (s.answered .outOfRange)))) ∧
    (∀ c, s.admits via Reg.CTX_ROUTE_BIND c 0 = true →
      (s.blk ≠ .configure → s.regAt Reg.CTX_ROUTE_STATE c ≠ 1 → c ∉ s.pkt.binding → exec (.ctxRouteBind via c) s = .next (State.settle
        (State.answered (s.onPkt fun k => { k with binding := setIns c k.binding }) .ok))) ∧
      ((s.blk = .configure ∨ s.regAt Reg.CTX_ROUTE_STATE c = 1) → exec (.ctxRouteBind via c) s = .next (State.settle (s.answered .busy)))) ∧
    (∀ c, c ∉ s.pkt.binding → exec (.routeBindComplete c) s = .next s.settle) ∧
    (∀ c, c < 64 → c ∈ s.pkt.binding →
      (∀ code rank, s.bindEarly c = some (code, rank) → exec (.routeBindComplete c) s = .next (State.settle
        (((s.onPkt fun k => { k with binding := setDel c k.binding }).setRegAt Reg.CTX_ROUTE_STATE c 2).setRegAt Reg.CTX_BIND_ERROR c (code * 65536 + rank)))) ∧
      (∀ ranks t1 x t2 y t3, s.bindEarly c = none → (s.onPkt fun k => { k with binding := setDel c k.binding }).readRanks c = (ranks, t1) → t1.ranksRefusal c ranks = none →
        t1.readTree (s.regAt Reg.JOB_TREE_BASE c) = (.ok x, t2) → t2.readTree (s.regAt Reg.JOB_TREE_BASE c + 256) = (.ok y, t3) → t1.sound = true → t3.sound = true →
        t3.pkt = t1.pkt → t1.pkt = { s.pkt with binding := setDel c s.pkt.binding } →
        ∃ u : State, exec (.routeBindComplete c) s = .next u.settle ∧ u.regAt Reg.CTX_ROUTE_STATE c = 1 ∧ (u.ctx c).trees = [x, y] ∧ (u.ctx c).alt = false ∧
          (u.ctx c).alives = [] ∧ ∀ d, Table.get u.pkt.refs 0 d = Table.get s.pkt.refs 0 d + (if ∃ e ∈ ranks, e.1.testBit 16 ∧ fld e.1 15 0 = d then 1 else 0)))

/-- Route entry d in the object dictionary: its place, type, access, privilege, default, meaning, and when a write to it is refused. For every chip number d, entry 0x4400 + (d >> 7), subindex (d & 0x7F) + 1, which lies in indexes 0x4400 to 0x45FF, exists in every build as a U64, readable and writable at Operator privilege, with default 0. What it holds is the mask of the logical ports among which a packet for d chooses; an entry that nothing has written reads 0. A write of an Operator is answered OK and sets the mask where the chip has no reference under R113, and is answered BUSY where it has one (R135). -/
def Obligations.RouteEntriesInTheDictionary : Prop :=
  ∀ (s : State) (d : Nat), d < 65536 →
    let index := 0x4400 + d >>> 7
    let sub := (d &&& 0x7F) + 1
    let key := 256 * index + sub
    0x4400 ≤ index ∧ index ≤ 0x45FF ∧ 1 ≤ sub ∧ sub ≤ 128 ∧
    (∃ e, s.entry? key = some (e, 0) ∧ e.key = key ∧ e.ty = .u64 ∧ e.access = .rw ∧ e.priv = .operator ∧ e.dflt = 0 ∧
      ∀ v, s.entryBusy e 0 v = decide (Table.get s.pkt.refs 0 d ≠ 0)) ∧
    (Table.find? s.dict key = none → s.reg key = 0) ∧ s.routeEntry d = s.reg key ∧
    (∀ p : Packet, p.mcast = false → p.dest = d → s.routePorts p = bitsOf 64 (s.reg key)) ∧
    (∀ (c : Carrier) (level ctx v : Nat), s.serves c = true → 1 ≤ level → level ≤ (s.ont.session c).level.toNat → s.blk ≠ .kickstand → v < 2 ^ 64 →
      (Table.get s.pkt.refs 0 d = 0 → exec (.ontanWrite c level ctx index sub (Ty.code .u64) (leBytes 8 v)) s = .next (State.settle ((s.setReg key v).answered .ok))) ∧
      (Table.get s.pkt.refs 0 d ≠ 0 → exec (.ontanWrite c level ctx index sub (Ty.code .u64) (leBytes 8 v)) s = .next (State.settle (s.answered .busy))))

/-- An arriving LOAD, STORE, COPY, SCATTER, ATOMIC or GATHER request takes its effect on memory once and is answered. For a request of a bound job that finds a slot, unordered, over a mapped page and good memory: STORE, COPY and SCATTER put the payload in memory, byte by byte and nowhere else, keep a completion-cache entry, and answer COMPLETION; a later copy only answers again, and a context being reset answers NEG_COMPLETION CTX_RESET. LOAD_REQ changes no memory and answers one LOAD_RSP for each 4 KiB, the bytes of the range in order. ATOMIC_REQ writes the new value of R148 and answers the old one; a lone part of a 64-bit CAS is held. A GATHER_REQ of one element answers its bytes under its index. -/
def Obligations.RemoteRequestsServed : Prop :=
  ∀ (s : State) (link c base : Nat) (p : Packet), s.sound = true → s.memGood = true → p.ordered = false →
    (∀ cmd, ((p.op = .store ∧ cmd = .storeReceive link p) ∨ (p.op = .copy ∧ cmd = .copyReceive link p) ∨ (p.op = .scatter ∧ cmd = .scatterReceive link p)) →
      s.reg Reg.RMT_CMPL_COALESCE = 0 → p.opArg = p.tag →
      (s.reaches p c = true → s.cached? p p.seq = none → p.countEn = false →
        s.maps (s.partOfLink link) c p.destOffset p.payload.length .write true base = true → base + p.payload.length ≤ s.build.memBytes →
        ∃ (u : State) (w : Waiting), exec cmd s = .next u.settle ∧
          (∀ x, memByte u.mem x = if base ≤ x ∧ x < base + p.payload.length then p.payload.getD (x - base) 0 else memByte s.mem x) ∧
          (∃ e ∈ u.rmt.cache, e.src = p.src ∧ e.tag = p.tag ∧ e.gen = p.gen ∧ e.seq = p.seq ∧ e.result = .completion) ∧
          u.pkt.wait = s.pkt.wait ++ [w] ∧ w.pkt.op = .completion ∧ w.pkt.dest = p.src ∧ w.pkt.tag = p.tag ∧ w.pkt.gen = p.gen ∧ w.pkt.seq = p.seq ∧
          w.pkt.payload = leBytes 8 1 ∧ u.dict = s.dict ∧ u.spad = s.spad ∧ u.counters = s.counters ∧ u.sems = s.sems ∧ u.cores = s.cores) ∧
      (∀ e, s.reaches p c = true → s.cached? p p.seq = some e → e.result = .completion →
        ∃ (u : State) (w : Waiting), exec cmd s = .next u.settle ∧ u.mem = s.mem ∧ u.rmt.cache = s.rmt.cache ∧ u.pkt.wait = s.pkt.wait ++ [w] ∧
          w.pkt.op = .completion ∧ w.pkt.seq = p.seq ∧ u.reg Reg.RMT_CACHE_HITS = (s.reg Reg.RMT_CACHE_HITS + 1) % 2 ^ 32) ∧
      (s.powered = true → s.ctxOfJob? p.job = some c → s.regAt Reg.CTX_STATE c = 3 → s.pkt.drain = none → p.mcast = false →
        ∃ (u : State) (w : Waiting), exec cmd s = .next u.settle ∧ u.mem = s.mem ∧ u.pkt.wait = s.pkt.wait ++ [w] ∧ w.pkt.op = .negCompletion ∧
          w.pkt.dest = p.src ∧ w.pkt.seq = p.seq ∧ w.pkt.payload = leBytes 8 0x15)) ∧
    (s.reaches p c = true → p.op = .loadReq → s.memPoison = [] →
      let len := le 6 3 p.payload + 1
      s.maps (s.partOfLink link) c (le 0 6 p.payload) len .read true base = true → base + len ≤ s.build.memBytes →
      ∃ (u : State) (ws : List Waiting), exec (.loadReqReceive link p) s = .next u.settle ∧ u.mem = s.mem ∧ u.pkt.wait = s.pkt.wait ++ ws ∧
        ws.length = ceilDiv len 4096 ∧ ws.flatMap (·.pkt.payload) = s.bytesAt base len ∧
        ∀ (i : Nat) (w : Waiting), ws[i]? = some w → w.pkt.op = .loadRsp ∧ w.pkt.dest = p.src ∧ w.pkt.tag = p.tag ∧ w.pkt.gen = p.gen ∧ w.pkt.seq = i ∧ w.pkt.opArg = 0) ∧
    (s.reaches p c = true → p.op = .atomicReq → s.memPoison = [] → s.rmt.casParts = [] → s.cached? p p.seq = none → p.countEn = false →
      let code := fld (le 6 1 p.payload) 3 0
      let n := if bit (le 6 1 p.payload) 4 then 8 else 4
      let off := le 0 6 p.payload
      code < 10 → ¬(code = 2 ∧ n = 8) → off % n = 0 → s.maps (s.partOfLink link) c off n .atomic true base = true → base + n ≤ s.build.memBytes →
      let old := leNat (s.bytesAt base n)
      let operand := if code = 2 then le 12 4 p.payload else le 8 n p.payload
      ∃ (u : State) (w : Waiting), exec (.atomicReqReceive link p) s = .next u.settle ∧
        u.mem = (match atomicNew code (8 * n) old operand (le 8 4 p.payload) with | some v => storeBytes s.mem base (leBytes n v) | none => s.mem) ∧
        u.pkt.wait = s.pkt.wait ++ [w] ∧ w.pkt.op = .atomicRsp ∧ w.pkt.dest = p.src ∧ w.pkt.tag = p.tag ∧ w.pkt.payload = leBytes 8 old ∧
        (∃ e ∈ u.rmt.cache, e.src = p.src ∧ e.tag = p.tag ∧ e.gen = p.gen ∧ e.seq = p.seq ∧ e.result = .old old)) ∧
    (s.reaches p c = true → p.op = .atomicReq → p.isCasPart = true → s.rmt.casParts = [] → s.cached? p 0 = none →
      exec (.atomicReqReceive link p) s = .next (State.settle (s.onRmt fun r => { r with casParts := [p] }))) ∧
    (∀ v, s.reaches p c = true → p.op = .gatherReq → p.opArg = p.tag → p.payload = leBytes 8 v → v < 2 ^ 64 → p.countEn = false → s.memPoison = [] →
      s.maps (s.partOfLink link) c (fld v 47 0) (fld v 59 48 + 1) .read true base = true → base + fld v 59 48 + 1 ≤ s.build.memBytes →
      ∃ (u : State) (w : Waiting), exec (.gatherReqReceive link p) s = .next u.settle ∧ u.mem = s.mem ∧ u.pkt.wait = s.pkt.wait ++ [w] ∧ w.pkt.op = .loadRsp ∧
        w.pkt.dest = p.src ∧ w.pkt.tag = p.tag ∧ w.pkt.seq = fld v 63 60 ∧ w.pkt.payload = s.bytesAt base (fld v 59 48 + 1))

/-- What the requester takes from COMPLETION, NEG_COMPLETION, LOAD_RSP and ATOMIC_RSP. For a tracker entry alone in the tracker, of a matching generation, with no packet waiting for its window: a COMPLETION marks the SEQ done, and ends a wholly prepared far write-back, whose tag is then to be released; an answer to no entry counts RMT_STALE_RSP and changes nothing else. NEG_COMPLETION PARKED stops the SEQ's timer; TORN or CHECK with attempts left puts it in backoff, counted; BUSY does so and makes it wait for a grant; FAULT fails it. A LOAD_RSP's bytes land in the scratchpad at their piece's place and the SEQ of the last piece is done; an ATOMIC_RSP's old value lands in its slot. -/
def Obligations.RemoteAnswersTaken : Prop :=
  ∀ (s : State) (p : Packet) (t : Txn) (x : SeqState), s.sound = true → s.powered = true →
    (s.rmt.txns = [] →
      (p.op = .loadRsp → exec (.loadRspReceive p) s = .next (State.settle (s.bump Reg.RMT_STALE_RSP))) ∧
      (p.op = .atomicRsp → exec (.atomicRspReceive p) s = .next (State.settle (s.bump Reg.RMT_STALE_RSP))) ∧
      (p.op = .completion → p.payload = leBytes 8 1 → exec (.completionReceive p) s = .next (State.settle (s.bump Reg.RMT_STALE_RSP))) ∧
      (p.op = .negCompletion → s.ctxOfJob? p.job = none → exec (.negCompletionReceive p) s = .next (State.settle (s.bump Reg.RMT_STALE_RSP)))) ∧
    (s.rmt.txns = [t] → p.tag = t.tag → t.quarantined = false → t.cas = none → t.kind ≠ .image → p.gen = s.genOf t.ctx → x.phase = .waiting →
        (s.window t.dest).queue = [] →
      let withSeq (q : Nat) (y : SeqState) : State := s.onRmt fun r => { r with txns := [{ t with seqs := [(q, y)] }] }
      let hurt (q : Nat) (y : SeqState) : State := s.onRmt fun r => { r with txns := [{ t with seqs := [(q, y)], tainted := true }] }
      (t.seqs = [(p.seq, x)] →
        (p.op = .completion → p.payload = leBytes 8 1 →
          (t.complete = false → exec (.completionReceive p) s = .next (State.settle (withSeq p.seq { x with phase := .done, outstanding := 0 }))) ∧
          (∀ core id w, t.complete = true → t.tainted = false → t.poisoned = false → t.kind = .push → t.owner = .farWb core id → s.far.wbs = [w] → w.id = id →
            ∃ u : State, exec (.completionReceive p) s = .next u.settle ∧ u.rmt.txns = [] ∧ u.far.wbs = [{ w with ended := some 0 }] ∧
              (u.window t.dest).releases = (s.window t.dest).releases ++ [(t.tag, t.gen, s.regAt Reg.CTX_JOB_ID t.ctx)] ∧ u.mem = s.mem ∧ u.spad = s.spad)) ∧
        (p.op = .negCompletion → x.outstanding ≤ 1 →
          (le 0 1 p.payload = 0x11 → exec (.negCompletionReceive p) s = .next (State.settle (withSeq p.seq { x with phase := .parked }))) ∧
          ((le 0 1 p.payload = 1 ∨ le 0 1 p.payload = 2) → x.attempts < 1 + s.reg Reg.RMT_RETRY_LIMIT → exec (.negCompletionReceive p) s = .next (State.settle
            (hurt p.seq { x with phase := .backoff, outstanding := 0, negs := x.negs + 1, needGrant := false, pendingCount := true }))) ∧
          (le 0 1 p.payload = 0x10 → x.busies < s.reg Reg.RMT_BUSY_LIMIT → exec (.negCompletionReceive p) s = .next (State.settle
            (hurt p.seq { x with phase := .backoff, outstanding := 0, negs := x.negs + 1, busies := x.busies + 1, needGrant := true, pendingCount := false }))) ∧
          (le 0 1 p.payload = 0x12 → t.complete = false → exec (.negCompletionReceive p) s = .next (State.settle
            (hurt p.seq { x with phase := .failed 0x12, outstanding := 0 }))))) ∧
      (∀ pc, t.seqs = [(0, x)] → t.space = .spad → t.complete = false → t.pieces = [pc] →
        (p.op = .loadRsp → t.kind = .load → pc.seq = p.seq → p.payload.length = pc.len → bit p.opArg 0 = false → ∃ u : State, exec (.loadRspReceive p) s = .next u.settle ∧
          u.spad = (s.spadWrite t.core pc.addr (clean p.payload)).spad ∧ u.spadWritten = (s.spadWrite t.core pc.addr (clean p.payload)).spadWritten ∧
          u.rmt.txns = [{ t with pieces := [], seqs := [(0, { x with phase := .done, outstanding := 0 })] }] ∧ u.mem = s.mem ∧ u.dict = s.dict) ∧
        (p.op = .atomicRsp → t.kind = .atomic → p.seq = 0 → ∃ u : State, exec (.atomicRspReceive p) s = .next u.settle ∧
          u.spad = (s.spadWrite t.core pc.addr (clean (fit 8 p.payload))).spad ∧
          u.rmt.txns = [{ t with pieces := [], seqs := [(0, { x with phase := .done, outstanding := 0 })] }] ∧ u.mem = s.mem)))

/-- Windows and grants, and the timers of remote operations on both sides. WINDOW_REQ frees the cache entries it releases and grants what is free, or is kept pending with a grant of 0; a deferred grant follows once slots are free. WINDOW_GRANT adds to the window; the lease drops it. The release delay sends a WINDOW_REQ that asks no slot. Request timeout and backoff send a SEQ again, counted, within the attempt limit; past it, and at the park limit, the SEQ fails and RMT_RETRIES is raised. The coalescing timer sends the gathered COMPLETION. Cache hold frees a transaction's entries and raises RMT_CACHE_EXPIRED; a lone CAS part is discarded; a tag's quarantine ends with its release. -/
def Obligations.WindowsAndRemoteTimers : Prop :=
  ∀ (s : State) (p : Packet), s.sound = true → s.powered = true → s.pkt.drain = none →
    (p.op = .windowReq → le 2 1 p.payload = 0 → 0 < le 0 2 p.payload → (∀ e ∈ s.rmt.pendingReqs, e.1 ≠ p.src) → ∃ (u : State) (w : Waiting),
      exec (.windowReqReceive p) s = .next u.settle ∧ u.pkt.wait = s.pkt.wait ++ [w] ∧ w.pkt.op = .windowGrant ∧ w.pkt.dest = p.src ∧
      w.pkt.payload = leBytes 8 (s.grantable p.src (le 0 2 p.payload)) ∧
      Table.get u.rmt.granted 0 p.src = Table.get s.rmt.granted 0 p.src + s.grantable p.src (le 0 2 p.payload) ∧
      u.rmt.pendingReqs = s.rmt.pendingReqs ++ (if s.grantable p.src (le 0 2 p.payload) = 0 then [(p.src, p.job, le 0 2 p.payload)] else [])) ∧
    (p.op = .windowReq → le 2 1 p.payload = 1 → le 0 2 p.payload = 0 → exec (.windowReqReceive p) s = .next (State.settle
      (s.onRmt fun r => { r with cache := r.cache.filter fun e => !(e.src == p.src && e.tag == le 4 2 p.payload && e.gen == p.gen) }))) ∧
    (p.op = .windowGrant → (s.window p.src).queue = [] → ∃ u : State, exec (.windowGrantReceive p) s = .next u.settle ∧
      u.window p.src = { s.window p.src with asked := decide (le 0 2 p.payload = 0), granted := min 1024 ((s.window p.src).granted + le 0 2 p.payload) } ∧
      (∀ d, d ≠ p.src → u.window d = s.window d) ∧ u = { s with rmt := { s.rmt with windows := u.rmt.windows } }) ∧
    (∀ chip, (s.rmt.pendingReqs = [] → exec (.windowGrantDeferred chip) s = .next s.settle) ∧
      (∀ job n, s.rmt.pendingReqs = [(chip, job, n)] → 0 < s.grantable chip n → ∃ (u : State) (w : Waiting), exec (.windowGrantDeferred chip) s = .next u.settle ∧
        u.rmt.pendingReqs = [] ∧ Table.get u.rmt.granted 0 chip = Table.get s.rmt.granted 0 chip + s.grantable chip n ∧ u.pkt.wait = s.pkt.wait ++ [w] ∧
        w.pkt.op = .windowGrant ∧ w.pkt.dest = chip ∧ w.pkt.payload = leBytes 8 (s.grantable chip n))) ∧
    (∀ chip, (∃ u : State, exec (.windowLeaseExpire chip) s = .next u.settle ∧ (u.window chip).granted = 0 ∧ Table.get u.rmt.granted 0 chip = 0 ∧
      ∀ d, d ≠ chip → u.window d = s.window d ∧ Table.get u.rmt.granted 0 d = Table.get s.rmt.granted 0 d)) ∧
    (∀ chip, ((s.window chip).releases = [] → exec (.releaseDelay chip) s = .next s.settle) ∧
      (∀ tag gen job c, (s.window chip).releases = [(tag, gen, job)] → c < 64 → s.regAt Reg.CTX_JOB_ID c = job → s.regAt Reg.CTX_ROUTE_STATE c = 1 →
        ∃ (u : State) (w : Waiting), exec (.releaseDelay chip) s = .next u.settle ∧ (u.window chip).releases = [] ∧ u.pkt.wait = s.pkt.wait ++ [w] ∧
          w.pkt.op = .windowReq ∧ w.pkt.dest = chip ∧ w.pkt.gen = gen ∧ w.pkt.job = job ∧ w.pkt.payload = leBytes 2 0 ++ [1, 0] ++ fit 12 (leBytes 2 tag))) ∧
    (∀ (t : Txn) (q : Nat) (x : SeqState), s.rmt.txns = [t] → t.seqs = [(q, x)] → t.cas = none → t.kind = .push → t.complete = false → (s.window t.dest).queue = [] →
      let core := t.core
      (x.phase = .waiting → x.attempts < 1 + s.reg Reg.RMT_RETRY_LIMIT → (s.window t.dest).releases = [] → ∃ (u : State) (w : Waiting),
        exec (.rmtReqTimeout t.tag q) s = .next u.settle ∧ u.pkt.wait = s.pkt.wait ++ [w] ∧ w.pkt.op = x.pkt.op ∧ w.pkt.tag = t.tag ∧ w.pkt.gen = t.gen ∧ w.exclude = x.port ∧
        u.rmt.txns = [{ t with tainted := true, seqs := [(q, x.sent false)] }] ∧ u.reg Reg.RMT_TIMEOUT_REISSUES = (s.reg Reg.RMT_TIMEOUT_REISSUES + 1) % 2 ^ 32) ∧
      (x.phase = .waiting → 1 + s.reg Reg.RMT_RETRY_LIMIT ≤ x.attempts → exec (.rmtReqTimeout t.tag q) s = .next (State.settle
        ((s.onRmt fun r => { r with txns := [{ t with seqs := [(q, { x with phase := .failed 0x20, outstanding := 0 })], tainted := true }] }).raise .rmtRetries (.core core)
          t.ctx (0x20 + 65536 * t.dest)))) ∧
      (x.phase = .backoff → x.needGrant = false → x.pkt.ordered = false → (s.window t.dest).releases = [] → ∃ (u : State) (w : Waiting),
        exec (.rmtBackoffExpire t.tag q) s = .next u.settle ∧ u.pkt.wait = s.pkt.wait ++ [w] ∧ w.pkt.op = x.pkt.op ∧ w.pkt.tag = t.tag ∧
        u.rmt.txns = [{ t with tainted := true, seqs := [(q, x.sent false)] }] ∧ u.reg Reg.RMT_NEG_REISSUES = (s.reg Reg.RMT_NEG_REISSUES + 1) % 2 ^ 32) ∧
      (x.phase ≠ .backoff → exec (.rmtBackoffExpire t.tag q) s = .next s.settle) ∧
      (x.phase = .parked → exec (.rmtParkLimit t.tag q) s = .next (State.settle
        ((s.onRmt fun r => { r with txns := [{ t with seqs := [(q, { x with phase := .failed 0x21, outstanding := 0 })], tainted := true }] }).raise .rmtRetries (.core core)
          t.ctx (0x21 + 65536 * t.dest)))) ∧
      (x.phase ≠ .parked → exec (.rmtParkLimit t.tag q) s = .next s.settle) ∧
      (t.quarantined = false → exec (.tagQuarantineExpire t.tag) s = .next s.settle) ∧
      (t.quarantined = true → ∃ u : State, exec (.tagQuarantineExpire t.tag) s = .next u.settle ∧ u.rmt.txns = [] ∧
        (u.window t.dest).releases = (s.window t.dest).releases ++ [(t.tag, t.gen, s.regAt Reg.CTX_JOB_ID t.ctx)])) ∧
    (∀ m q, s.rmt.masks = [m] → m.seqs = [q] → ∃ (u : State) (w : Waiting), exec (.completionCoalesce m.src m.tag m.gen) s = .next u.settle ∧ u.rmt.masks = [] ∧
      u.pkt.wait = s.pkt.wait ++ [w] ∧ w.pkt.op = .completion ∧ w.pkt.dest = m.src ∧ w.pkt.tag = m.tag ∧ w.pkt.seq = q ∧ w.pkt.payload = leBytes 8 1) ∧
    (s.rmt.masks = [] → ∀ a b c, exec (.completionCoalesce a b c) s = .next s.settle) ∧
    (∀ e, s.rmt.cache = [e] → exec (.cacheHoldExpire e.src e.tag e.gen) s = .next (State.settle
      ((s.onRmt fun r => { r with cache := [] }).raise .rmtCacheExpired .none 0xFF (e.src + 65536 * e.tag)))) ∧
    (∀ a b c, exec (.casPartExpire a b c) s = .next (State.settle
      (s.onRmt fun r => { r with casParts := r.casParts.filter fun q => !(q.src == a && q.tag == b && q.gen == c) })))

/-- Remote descriptors: what each operation issues, and how a waiting transaction obtains its entry and leaves. For a core whose DMA engine may take the descriptor at its queue's head, accepted by the checks of R149 and with a valid rank, each of the seven operations leaves the queue, is in progress with the rank's chip as peer, and makes the transactions of R147: a load asks its range in one, a store sends its bytes in one, a push copies in packets of at most 4 KiB that together cover the length, a pull asks at most 256 KiB each and covers it, an atomic lands 8 bytes, a gather or scatter has an item for each element. A waiting load that may issue obtains a free tag of its partition, and its LOAD_REQ leaves. -/
def Obligations.RemoteDescriptors : Prop :=
  (∀ (s : State) (core dest : Nat) (bs : List Byte) (t : State), s.sound = true → ((s.core core).run.bind fun r => r.arg) = none → s.dmaHead? core = some bs →
    let d := RmtDesc.parse bs
    let c := s.ctxOfCore core
    d.statusEn = false → d.localCountEn = false →
    (d.op ≤ 5 → d.refusal [] = none → (d.space = 0 → s.inFootprint core d.addr (d.localLen []) = true) → s.rankChip c d.rank = (some dest, t) →
        t.cores = s.cores → t.rmt = s.rmt →
      ∀ cmd, ((d.op = 1 ∧ cmd = .rmtLoad core) ∨ (d.op = 2 ∧ cmd = .rmtStore core) ∨ (d.op = 3 ∧ cmd = .rmtCopyPush core) ∨ (d.op = 4 ∧ cmd = .rmtCopyPull core) ∨
          (d.op = 5 ∧ cmd = .rmtAtomic core)) →
        ∃ (u : State) (desc : Desc) (plans : List TxnPlan), exec cmd s = .next u.settle ∧ (u.core core).dq = (s.core core).dq.drop 1 ∧
          u.rmt.descs = s.rmt.descs ++ [desc] ∧ desc.core = core ∧ desc.op = d.op ∧ desc.peer = dest ∧ desc.left = plans.length ∧
          u.rmt.plans = s.rmt.plans ++ plans ∧ (∀ q ∈ plans, q.dest = dest ∧ q.ctx = c ∧ q.owner = .dma core desc.id ∧ q.tag = none) ∧
          ((d.op = 1 ∨ d.op = 2 ∨ d.op = 5) → ∃ q i, plans = [q] ∧ q.items = [i] ∧ i.addr = d.addr ∧ i.reads = decide (d.op = 2) ∧
            (d.op = 1 → q.kind = .load ∧ i.len = d.len ∧ i.pkt.op = .loadReq ∧ i.pkt.payload = loadReqBody d.offset d.len) ∧
            (d.op = 2 → q.kind = .push ∧ i.len = d.len ∧ i.pkt.op = .store ∧ i.pkt.destOffset = d.offset) ∧
            (d.op = 5 → q.kind = .atomic ∧ i.len = 8 ∧ i.pkt.op = .atomicReq ∧ (q.cas.isSome ↔ d.code = 2 ∧ d.wide = true))) ∧
          (d.op = 3 → ((plans.flatMap (·.items)).map (·.len)).sum = d.len ∧
            ∀ q ∈ plans, q.kind = .push ∧ ∀ i ∈ q.items, i.len ≤ 4096 ∧ i.reads = true ∧ i.pkt.op = .copy ∧ i.pkt.destOffset + d.addr = i.addr + d.offset) ∧
          (d.op = 4 → ((plans.flatMap (·.items)).map (·.len)).sum = d.len ∧
            ∀ q ∈ plans, q.kind = .load ∧ ∀ i ∈ q.items, i.len ≤ 2 ^ 18 ∧ i.reads = false ∧ i.pkt.op = .loadReq)) ∧
    (let elems := (words64 (plain (s.spadRead core d.table (8 * d.count)).1)).map parseElem
     s.inFootprint core d.table (8 * d.count) = true → d.refusal elems = none → (d.space = 0 → s.inFootprint core d.addr (d.localLen elems) = true) →
      (s.spadRead core d.table (8 * d.count)).2 = s → s.rankChip c d.rank = (some dest, t) → t.cores = s.cores → t.rmt = s.rmt →
      ∀ cmd, ((d.op = 6 ∧ cmd = .rmtGather core) ∨ (d.op = 7 ∧ cmd = .rmtScatter core)) →
        ∃ (u : State) (q : TxnPlan), exec cmd s = .next u.settle ∧ u.rmt.plans = s.rmt.plans ++ [q] ∧ q.dest = dest ∧ q.items.length = elems.length ∧
          q.kind = (if d.op = 6 then .gather else .scatter) ∧ (∀ i ∈ q.items, i.reads = decide (d.op = 7) ∧ i.pkt.op = (if d.op = 6 then .gatherReq else .scatter)) ∧
          q.items.map (·.len) = elems.map fun e => e.2.1)) ∧
  (∀ (s : State) (core : Nat), s.sound = true → ((s.core core).run.bind fun r => r.arg) = none → s.dmaHead? core = none →
    exec (.rmtLoad core) s = .next s.settle ∧ exec (.rmtStore core) s = .next s.settle ∧ exec (.rmtCopyPush core) s = .next s.settle ∧
    exec (.rmtCopyPull core) s = .next s.settle ∧ exec (.rmtAtomic core) s = .next s.settle ∧ exec (.rmtGather core) s = .next s.settle ∧
    exec (.rmtScatter core) s = .next s.settle) ∧
  (∀ (s : State) (p : TxnPlan) (i : PlanItem) (core id : Nat), s.sound = true → s.rmt.plans = [p] → p.owner = .dma core id → p.tag = none → p.kind = .load → p.space = .spad →
    p.items = [i] → i.reads = false → 0 < i.len → i.pkt.op = .loadReq → p.cas = none → p.part < 8 → p.ctx < 64 → s.mayIssue p = true → s.engineStalled core .dma = false →
    s.rmt.txns = [] → s.rmt.windows = [] → s.pkt.drain = none → ∃ (u : State) (t : Txn) (w : Waiting), exec (.transactionIssue 0) s = .next u.settle ∧ u.rmt.plans = [] ∧
      u.rmt.txns = [t] ∧ t.tag / 8192 = p.part ∧ t.dest = p.dest ∧ t.gen = s.regAt Reg.CTX_GENERATION p.ctx ∧ t.complete = true ∧ (t.pieces.map (·.len)).sum = i.len ∧
      u.pkt.wait = s.pkt.wait ++ [w] ∧ w.pkt.op = .loadReq ∧ w.pkt.tag = t.tag ∧ w.pkt.gen = t.gen ∧ w.pkt.dest = i.pkt.dest) ∧
  (∀ s : State, s.rmt.plans = [] → exec (.transactionIssue 0) s = .next s.settle)

/-- What MATMUL and a vector pass compute, and what their ends release. A MATMUL that its engine may take and no check refuses leaves the queue and occupies the array; the other bank, memory and scratchpads stand. With INT8 operands every output element is the old value, or 0 with CLEAR, to which each block of 32 products is added exactly and then saturated to INT32, block by block; without CLEAR no other element changes. A refused one ends its task with the code of the check. A vector pass of one row whose clause is one IADD of S0 and S1 in 32-bit lanes, all lanes active, writes the lane sums modulo 2^32 to D and nothing else. MATMUL_END queues the bank where EMIT is set, VECTOR_PASS_END writes the summary and frees the tile; both raise DONE_SEM by 1. -/
def Obligations.MatrixAndVectorWork : Prop :=
  ∀ (s : State) (core : Nat) (bs : List Byte) (rest : List (List Byte)), s.sound = true →
    let at8 (a : Nat) : Int := signed 8 (leNat (plain (s.spadRead core a 1).1))
    let at32 (t : State) (a : Nat) : Nat := leNat (plain (t.spadRead core a 4).1)
    ((s.core core).mq = bs :: rest → s.mmReady core (MmDesc.parse bs) = true →
      let d := MmDesc.parse bs
      (∀ code, s.mmRefusal core d = some code → exec (.matmul core) s = .next (State.settle (s.taskError core code))) ∧
      (s.mmRefusal core d = none → ∃ u : State, exec (.matmul core) s = .next u.settle ∧ (u.core core).mq = rest ∧
        (u.core core).mm = some { bank := d.sel, emit := d.emit, doneSem := if d.doneEn then some d.doneSem else none } ∧
        (u.core core).bank (1 - d.sel) = (s.core core).bank (1 - d.sel) ∧ (u.core core).vq = (s.core core).vq ∧ (u.core core).regs = (s.core core).regs ∧
        u.mem = s.mem ∧ u.spad = s.spad ∧ u.spadWritten = s.spadWritten ∧ u.sems = s.sems ∧ u.counters = s.counters ∧ (∀ m, m ≠ core → u.core m = s.core m) ∧
        (d.aFmt = 7 →
          let old (m n : Nat) : Int := if d.clear then 0 else signed 32 (((s.core core).bank d.sel).get m n)
          let block (m n j : Nat) : Int := ((List.range 32).map fun k => at8 (d.aAddr + 32 * (d.kb * m + j) + k) * at8 (d.bAddr + 32 * (d.kb * n + j) + k)).sum
          (∀ m n, m < d.m → n < d.n → signed 32 (((u.core core).bank d.sel).get m n) =
            (List.range d.kb).foldl (fun acc j => max (-2 ^ 31) (min (2 ^ 31 - 1) (acc + block m n j))) (old m n)) ∧
          (∀ m n, n < 256 → (d.m ≤ m ∨ d.n ≤ n) → ((u.core core).bank d.sel).get m n = if d.clear then 0 else ((s.core core).bank d.sel).get m n)))) ∧
    ((s.core core).mq = [] → exec (.matmul core) s = .next s.settle) ∧
    ((s.core core).vq = bs :: rest → (s.core core).run.isSome = true → s.powered = true → s.awake core = true → (s.core core).vp = none →
      let d := VpDesc.parse bs
      (∀ code, s.vpRefusal core d = some code → exec (.vectorPass core) s = .next (State.settle (s.taskError core code))) ∧
      (∀ w, s.vpRefusal core d = none → unpack 32 (plain (s.spadRead core d.clause (4 * d.len)).1) = [w] → fld w 31 26 = 1 → fld w 25 23 = 0 → fld w 22 17 = 8 →
          fld w 16 11 = 9 → bit w 4 = false → d.rows = 1 → d.rowMask = 0 → d.lastMask = 0 → d.redOp = 0 → d.s0.en = true → d.s0.queue = false → d.s1.en = true →
          d.s0.fmt = 0 → d.s1.fmt = 0 → d.s2.en = false → d.d.en = true → d.d.fmt = 0 → ∃ u : State, exec (.vectorPass core) s = .next u.settle ∧
        (∀ l, l < 256 → at32 u (d.d.addr + 4 * l) = (at32 s (d.s0.addr + 4 * l) + at32 s (d.s1.addr + 4 * l)) % 2 ^ 32) ∧
        (∀ a, (a < d.d.addr ∨ d.d.addr + 1024 ≤ a) → plain (u.spadRead core a 1).1 = plain (s.spadRead core a 1).1) ∧
        (u.core core).vq = rest ∧ (u.core core).vp.isSome = true ∧ u.mem = s.mem ∧ u.sems = s.sems ∧ (∀ m, m ≠ core → u.core m = s.core m))) ∧
    ((s.core core).vq = [] → exec (.vectorPass core) s = .next s.settle) ∧
    (∀ r, (s.core core).mm = some r → s.calm r.doneSem.toList = true → (∀ n ∈ r.doneSem, (s.sem n).toNat < 0xFFFFFFFF) →
      ∃ u : State, exec (.matmulEnd core) s = .next u.settle ∧ (u.core core).mm = none ∧
        (u.core core).tiles = (s.core core).tiles ++ (if r.emit then [r.bank] else []) ∧ (∀ n, u.sem n = if r.doneSem = some n then s.sem n + 1 else s.sem n) ∧
        (u.core core).bank0 = (s.core core).bank0 ∧ (u.core core).bank1 = (s.core core).bank1 ∧ u.mem = s.mem ∧ u.spad = s.spad ∧ u.dict = s.dict) ∧
    ((s.core core).mm = none → exec (.matmulEnd core) s = .next s.settle) ∧
    (∀ r, (s.core core).vp = some r → r.red = none → s.calm r.doneSem.toList = true → (∀ n ∈ r.doneSem, (s.sem n).toNat < 0xFFFFFFFF) →
      ∃ u : State, exec (.vectorPassEnd core) s = .next u.settle ∧ (u.core core).vp = none ∧
        (u.core core).tiles = (if r.bank.isSome then (s.core core).tiles.drop 1 else (s.core core).tiles) ∧
        (∀ n, u.sem n = if r.doneSem = some n then s.sem n + 1 else s.sem n) ∧ u.mem = s.mem ∧ u.dict = s.dict ∧
        (r.summary = none → u.spad = s.spad) ∧
        (∀ a ws, r.summary = some (a, ws) → ∀ i, plain (u.spadRead core i 1).1 = if a ≤ i ∧ i < a + ws.length then [ws.getD (i - a) 0] else plain (s.spadRead core i 1).1)) ∧
    ((s.core core).vp = none → exec (.vectorPassEnd core) s = .next s.settle)

/-- What local copies, UNWRITE and MEM_ZERO_GO do, and what the end of a local descriptor sets off. A COPY_LOCAL at the queue head that no check refuses moves its bytes: within the scratchpad, from the scratchpad to a mapped page of local memory, or back; no other byte of either changes. UNWRITE makes its lines read as never written, all ones and poisoned, and no other. A refused descriptor ends the task with the code of the check; no descriptor of the kind at the head: nothing happens. The end of a descriptor advances its counter by the length and raises DONE_SEM by 1, or ends the task with its error. MEM_ZERO_GO is BUSY while a fill runs or a task of the context runs; the fill's end leaves the mapped page zero and MEM_ZERO_STATE 2, or 3 beyond the address space. -/
def Obligations.LocalCopiesAndZeroFill : Prop :=
  (∀ (s : State) (core : Nat) (bs : List Byte), s.sound = true → ((s.core core).run.bind fun r => r.arg) = none → s.dmaHead? core = some bs →
    let d := LocalDesc.parse bs
    let at8 (t : State) (a : Nat) : List Byte := plain (t.spadRead core a 1).1
    let run : CopyRun := { doneSem := if d.doneEn then some d.doneSem else none, counter := if d.countEn then some (d.counter, d.len) else none, error := none }
    let queued (u : State) : Prop := (u.core core).dq = (s.core core).dq.drop 1 ∧ (u.core core).copies = (s.core core).copies ++ [run] ∧ u.sems = s.sems ∧ u.counters = s.counters
    (d.kind ≠ 0x10 → exec (.copyLocal core) s = .next s.settle) ∧ (d.kind ≠ 0x11 → exec (.unwrite core) s = .next s.settle) ∧
    (d.fence = true → s.dmaIdle core = false → exec (.copyLocal core) s = .next s.settle ∧ exec (.unwrite core) s = .next s.settle) ∧
    ((d.fence = false ∨ s.dmaIdle core = true) →
      (∀ code, s.localRefusal core d = some code → (d.kind = 0x10 → exec (.copyLocal core) s = .next (State.settle (s.taskError core code))) ∧
        (d.kind = 0x11 → exec (.unwrite core) s = .next (State.settle (s.taskError core code)))) ∧
      (s.localRefusal core d = none →
        (d.kind = 0x10 → d.src = 0 → d.dst = 0 → ∃ u : State, exec (.copyLocal core) s = .next u.settle ∧ queued u ∧ u.mem = s.mem ∧
          (∀ a, at8 u a = if d.dstAddr ≤ a ∧ a < d.dstAddr + d.len then at8 s (a - d.dstAddr + d.srcAddr) else at8 s a)) ∧
        (d.kind = 0x10 → s.memGood = true → ∀ base, base + d.len ≤ s.build.memBytes →
          (d.src = 0 → d.dst = 1 → s.maps (s.partOfCore core) (s.ctxOfCore core) d.dstAddr d.len .write false base = true →
            ∃ u : State, exec (.copyLocal core) s = .next u.settle ∧ queued u ∧ u.spad = s.spad ∧ u.spadWritten = s.spadWritten ∧
              (∀ x, [memByte u.mem x] = if base ≤ x ∧ x < base + d.len then at8 s (x - base + d.srcAddr) else [memByte s.mem x])) ∧
          (d.src = 1 → d.dst = 0 → s.maps (s.partOfCore core) (s.ctxOfCore core) d.srcAddr d.len .read false base = true →
            ∃ u : State, exec (.copyLocal core) s = .next u.settle ∧ queued u ∧ u.mem = s.mem ∧
              (∀ a, at8 u a = if d.dstAddr ≤ a ∧ a < d.dstAddr + d.len then [memByte s.mem (a - d.dstAddr + base)] else at8 s a))) ∧
        (d.kind = 0x11 → ∃ u : State, exec (.unwrite core) s = .next u.settle ∧ queued u ∧ u.mem = s.mem ∧ u.spad = s.spad ∧
          (∀ a, (u.spadRead core a 1).1 = if d.dstAddr ≤ a ∧ a < d.dstAddr + d.len then [(0xFF, true)] else (s.spadRead core a 1).1))))) ∧
  (∀ (s : State) (core : Nat), ((s.core core).run.bind fun r => r.arg) = none → s.dmaHead? core = none →
    exec (.copyLocal core) s = .next s.settle ∧ exec (.unwrite core) s = .next s.settle) ∧
  (∀ (s : State) (core i : Nat), s.sound = true →
    ((s.core core).copies[i]? = none → exec (.localCopyEnd core i) s = .next s.settle) ∧
    (∀ r, (s.core core).copies[i]? = some r →
      (∀ code, r.error = some code → exec (.localCopyEnd core i) s = .next (State.settle
        (((s.onCore core fun x => { x with copies := x.copies.eraseIdx i }).descProgress core .dma).taskError core code))) ∧
      (r.error = none → s.calm r.doneSem.toList = true → (∀ n ∈ r.doneSem, (s.sem n).toNat < 0xFFFFFFFF) → ∃ u : State, exec (.localCopyEnd core i) s = .next u.settle ∧
        (u.core core).copies = (s.core core).copies.eraseIdx i ∧ (∀ n, u.sem n = if r.doneSem = some n then s.sem n + 1 else s.sem n) ∧
        (∀ n, u.counter n = match r.counter with | some (k, by_) => if k = n then s.counter n + BitVec.ofNat 64 by_ else s.counter n | none => s.counter n) ∧
        u.mem = s.mem ∧ u.spad = s.spad ∧ u.dict = s.dict))) ∧
  (∀ (s : State) (via : Via) (c : Nat), s.sound = true → s.admits via Reg.MEM_ZERO_GO c 0 = true →
    (((s.ctx c).zero.isSome || (s.ctx c).tasks.any (·.running)) = true → exec (.memZeroGo via c) s = .next (State.settle (s.answered .busy))) ∧
    (((s.ctx c).zero.isSome || (s.ctx c).tasks.any (·.running)) = false → ∃ u : State, exec (.memZeroGo via c) s = .next (State.settle (u.answered .ok)) ∧
      (u.ctx c).zero = some (s.regAt Reg.MEM_ZERO_START c, s.regAt Reg.MEM_ZERO_START c + 65536 * (s.regAt Reg.MEM_ZERO_PAGES_M1 c + 1)) ∧
      u.regAt Reg.MEM_ZERO_STATE c = 1 ∧ u.mem = s.mem ∧ u.cores = s.cores)) ∧
  (∀ (s : State) (c : Nat), s.sound = true → c < 64 → ((s.ctx c).zero = none → exec (.memZeroComplete c) s = .next s.settle) ∧
    (∀ a, (s.ctx c).zero = some (a, a + 65536) → a % 65536 = 0 →
      (2 ^ 48 ≤ a → ∃ u : State, exec (.memZeroComplete c) s = .next u.settle ∧ (u.ctx c).zero = none ∧ u.regAt Reg.MEM_ZERO_STATE c = 3 ∧ u.mem = s.mem) ∧
      (∀ base, s.memGood = true → base + 65536 ≤ s.build.memBytes → s.maps 0 c a 65536 .write false base = true →
        ∃ u : State, exec (.memZeroComplete c) s = .next u.settle ∧ (u.ctx c).zero = none ∧ u.regAt Reg.MEM_ZERO_STATE c = 2 ∧ u.spad = s.spad ∧ u.cores = s.cores ∧
          ∀ x, memByte u.mem x = if base ≤ x ∧ x < base + 65536 then 0 else memByte s.mem x)))

/-- Opening, closing and resuming a context, and its core mask. CTX_OPEN is BUSY unless the context is Closed and the block left Configure. Where a row of R275 fails it answers out of range, records the row, and changes nothing else; a mask beyond the build fails row 1, an unbound context some row. Otherwise the context is Open, its generation one more modulo 256, its windows' semaphores and counters zero and no other, its ring head, tail and STEP 0, without work. CTX_CLOSE is BUSY when Closed, in reset, or with an admitted task; else the context is Closed and unbound. CTX_RESUME opens a Halted one and is BUSY for another. CTX_CORES is taken in a Closed context, and in an Open one where the added cores exist and no scratchpad ranges clash. -/
def Obligations.ContextLifecycle : Prop :=
  (∀ (s : State) (via : Via) (c : Nat), s.sound = true → s.admits via Reg.CTX_OPEN c 0 = true →
    ((s.regAt Reg.CTX_STATE c ≠ 0 ∨ s.blk = .configure) → exec (.ctxOpen via c) s = .next (State.settle (s.answered .busy))) ∧
    (s.regAt Reg.CTX_STATE c = 0 → s.blk ≠ .configure →
      (∀ row, s.openRow c = row → row ≠ 0 → exec (.ctxOpen via c) s = .next (State.settle (State.answered (s.setRegAt Reg.CTX_OPEN_ERROR c row) .outOfRange))) ∧
      (2 ^ s.build.cores ≤ s.regAt Reg.CTX_CORES c → s.openRow c = 1) ∧ (s.regAt Reg.CTX_ROUTE_STATE c ≠ 1 → 1 ≤ s.openRow c ∧ s.openRow c ≤ 7) ∧
      (s.openRow c = 0 → ∃ u : State, exec (.ctxOpen via c) s = .next (State.settle (u.answered .ok)) ∧ u.regAt Reg.CTX_STATE c = 1 ∧ u.regAt Reg.CTX_OPEN_ERROR c = 0 ∧
        u.regAt Reg.CTX_GENERATION c = (s.regAt Reg.CTX_GENERATION c + 1) % 256 ∧ u.regAt Reg.CTX_RING_HEAD c = 0 ∧ u.ringTail c = 0 ∧ u.regAt Reg.JOB_STEP c = 0 ∧
        (∀ n, u.sem n = if s.ownsSem c n then 0 else s.sem n) ∧ (∀ n, u.counter n = if s.ownsCounter c n then 0 else s.counter n) ∧
        (u.ctx c).subs = [] ∧ (u.ctx c).tasks = [] ∧ (u.ctx c).trigs = [] ∧ (∀ d, d ≠ c → u.ctx d = s.ctx d) ∧
        u.mem = s.mem ∧ u.spad = s.spad ∧ u.cores = s.cores ∧ u.links = s.links ∧ u.blk = s.blk))) ∧
  (∀ (s : State) (via : Via) (c : Nat), s.sound = true → s.admits via Reg.CTX_CLOSE c 0 = true →
    ((s.regAt Reg.CTX_STATE c = 0 ∨ s.regAt Reg.CTX_STATE c = 3 ∨ (s.ctx c).tasks ≠ []) → exec (.ctxClose via c) s = .next (State.settle (s.answered .busy))) ∧
    (s.regAt Reg.CTX_STATE c ≠ 0 → s.regAt Reg.CTX_STATE c ≠ 3 → (s.ctx c).tasks = [] → ∃ u : State, exec (.ctxClose via c) s = .next (State.settle (u.answered .ok)) ∧
      u.regAt Reg.CTX_STATE c = 0 ∧ u.regAt Reg.CTX_ROUTE_STATE c = 0 ∧ (u.ctx c).subs = [] ∧ (u.ctx c).trigs = [] ∧ (u.ctx c).arrived = none ∧
      (∀ d, d ≠ c → u.ctx d = s.ctx d) ∧ u.sems = s.sems ∧ u.counters = s.counters ∧ u.mem = s.mem ∧ u.cores = s.cores)) ∧
  (∀ (s : State) (via : Via) (c : Nat), s.sound = true → s.admits via Reg.CTX_RESUME c 0 = true →
    (s.regAt Reg.CTX_STATE c ≠ 2 → exec (.ctxResume via c) s = .next (State.settle (s.answered .busy))) ∧
    (s.regAt Reg.CTX_STATE c = 2 → ∃ u : State, exec (.ctxResume via c) s = .next (State.settle (u.answered .ok)) ∧ u.regAt Reg.CTX_STATE c = 1 ∧
      (u.ctx c).subs = (s.ctx c).subs ∧ (u.ctx c).tasks = (s.ctx c).tasks ∧ (∀ d, d ≠ c → u.ctx d = s.ctx d) ∧ u.mem = s.mem ∧ u.cores = s.cores)) ∧
  (∀ (s : State) (via : Via) (c mask : Nat), s.sound = true → s.admits via Reg.CTX_CORES c mask = true →
    (s.regAt Reg.CTX_STATE c = 0 → exec (.ctxCoresWrite via c mask) s = .next (State.settle (State.answered (s.setRegAt Reg.CTX_CORES c mask) .ok))) ∧
    (2 ≤ s.regAt Reg.CTX_STATE c → exec (.ctxCoresWrite via c mask) s = .next (State.settle (s.answered .busy))) ∧
    (s.regAt Reg.CTX_STATE c = 1 →
      let added := mask - (mask &&& s.regAt Reg.CTX_CORES c)
      (2 ^ s.build.cores ≤ added → exec (.ctxCoresWrite via c mask) s = .next (State.settle (s.answered .busy))) ∧
      (∀ d, d < 64 → d ≠ c → s.regAt Reg.CTX_STATE d ≠ 0 → added &&& s.ownedCores d ≠ 0 → rangesMeet (s.spadRange c) (s.spadRange d) = true →
        exec (.ctxCoresWrite via c mask) s = .next (State.settle (s.answered .busy))) ∧
      (added < 2 ^ s.build.cores → (∀ d, d < 64 → d ≠ c → s.regAt Reg.CTX_STATE d ≠ 0 → added &&& s.ownedCores d = 0 ∨ rangesMeet (s.spadRange c) (s.spadRange d) = false) →
        (s.ctx c).tasks = [] → exec (.ctxCoresWrite via c mask) s = .next (State.settle (State.answered (s.setRegAt Reg.CTX_CORES c mask) .ok)))))

/-- A submission read and checked, a task admitted, started and ended. SUBMISSION_READ of an Open context in Run with an entry to read enters it after the others: refused with reason 6 for a count of 0 or over 65,536, 9 when not Bound, 7 when the entry is poisoned, else with the graph's descriptors, unrefused where no task has a reason. TASK_ADMIT gives the next task a slot while one is free; a refused submission halts the context. TASK_START starts the task decided on: it runs, each core of its set gets its program counter, X1 to X4 and footprint, and the pointer moves past its context. TASK_END of a task that is over, its writes performed, frees its cores; a success raises its output semaphore by 1, a failure halts the context and raises none. -/
def Obligations.SubmissionsAndTasks : Prop :=
  (∀ (s : State) (c base : Nat), s.sound = true → c < 64 → s.regAt Reg.CTX_STATE c = 1 → s.blk = .run → s.ringTail c ≠ (s.ctx c).read → s.dispatcherStalled c false = false →
      s.memGood = true →
    let a := s.regAt Reg.CTX_RING_BASE c + 64 * ((s.ctx c).read % 2 ^ s.regAt Reg.CTX_RING_SIZE_LOG2 c)
    let e := s.bytesAt a 64
    let count := le 8 4 e
    let enters (u : State) (descs : List (List Byte)) (fail : Option SubEnd) : Prop := (u.ctx c).read = ((s.ctx c).read + 1) % 2 ^ 32 ∧
      (u.ctx c).subs = (s.ctx c).subs ++
        [{ index := (s.ctx c).read, descs := descs, count := count, vector := bit (le 12 1 e) 0, result := le 16 8 e, next := 0, ended := 0, fail := fail, done := false }] ∧
      (u.ctx c).tasks = (s.ctx c).tasks ∧ u.mem = s.mem ∧ u.sems = s.sems ∧ u.cores = s.cores
    a + 64 ≤ s.build.memBytes →
      (s.memPoison.contains (a / 128) = true → ∃ u : State, exec (.submissionRead c) s = .next u.settle ∧ enters u [] (some (refusedEnd 7 0 0))) ∧
      (s.memPoison = [] →
        ((count = 0 ∨ 65536 < count) → ∃ u : State, exec (.submissionRead c) s = .next u.settle ∧ enters u [] (some (refusedEnd 6 0 0))) ∧
        (0 < count → count ≤ 65536 → s.regAt Reg.CTX_ROUTE_STATE c ≠ 1 →
          ∃ u : State, exec (.submissionRead c) s = .next u.settle ∧ enters u [] (some (refusedEnd 9 0 0))) ∧
        (0 < count → s.regAt Reg.CTX_ROUTE_STATE c = 1 → s.maps 0 c (le 0 8 e) (64 * count) .read false base = true → base + 64 * count ≤ s.build.memBytes →
          ∃ (u : State) (fail : Option SubEnd), exec (.submissionRead c) s = .next u.settle ∧
            enters u ((List.range count).map fun k => s.bytesAt (base + 64 * k) 64) fail ∧
            (fail = none ↔ ∀ k, k < count → s.taskReason c (s.bytesAt (base + 64 * k) 64) = 0) ∧
            (∀ x, fail = some x → x.outcome = 1 ∧ x.index < count ∧ x.reason = s.taskReason c (s.bytesAt (base + 64 * x.index) 64) ∧
              ∀ k, k < x.index → s.taskReason c (s.bytesAt (base + 64 * k) 64) = 0)))) ∧
  (∀ (s : State) (c : Nat), (s.regAt Reg.CTX_STATE c ≠ 1 ∨ s.blk ≠ .run ∨ s.ringTail c = (s.ctx c).read) → exec (.submissionRead c) s = .next s.settle) ∧
  (∀ (s : State) (c : Nat) (v : Submission), s.sound = true → c < 64 → s.regAt Reg.CTX_STATE c = 1 → (s.ctx c).subs = [v] → v.done = false → s.blk = .run →
    (v.fail = none → v.next < v.count → s.regAt Reg.CTX_TASK_SLOTS c ≤ (s.ctx c).tasks.length → exec (.taskAdmit c) s = .next s.settle) ∧
    (v.fail = none → v.next < v.count → (s.ctx c).tasks.length < s.regAt Reg.CTX_TASK_SLOTS c → ∃ u : State, exec (.taskAdmit c) s = .next u.settle ∧
      (u.ctx c).tasks = (s.ctx c).tasks ++ [Task.parse s.disp.nextTask v.index v.next ((v.descs[v.next]?).getD [])] ∧
      (u.ctx c).subs = [{ v with next := v.next + 1 }] ∧ (∀ d, d ≠ c → u.ctx d = s.ctx d) ∧ u.dict = s.dict ∧ u.mem = s.mem ∧ u.cores = s.cores ∧ u.sems = s.sems) ∧
    (∀ x, v.fail = some x → x.outcome = 1 → ∃ u : State, exec (.taskAdmit c) s = .next u.settle ∧ u.regAt Reg.CTX_STATE c = 2 ∧
      (u.ctx c).tasks = (s.ctx c).tasks.filter (·.running) ∧ u.cores = s.cores ∧ u.sems = s.sems)) ∧
  (∀ (s : State) (c : Nat), s.regAt Reg.CTX_STATE c ≠ 1 → exec (.taskAdmit c) s = .next s.settle) ∧
  (∀ (s : State), s.sound = true → (s.blk = .run ∨ s.blk = .drain) →
    (s.decision = none → exec .taskStart s = .next s.settle) ∧
    (∀ c t, s.decision = some (c, some t) → ∃ u : State, exec .taskStart s = .next u.settle ∧ u.disp.ptr = (c + 1) % 64 ∧
      (∃ v ∈ (u.ctx c).tasks, v.id = t.id ∧ v.running = true) ∧
      (∀ i core, t.runsOn[i]? = some core → (u.core core).pc = t.entry ∧ u.x core 1 = BitVec.ofNat 64 i ∧ u.x core 2 = BitVec.ofNat 64 t.arg ∧
        u.x core 3 = BitVec.ofNat 64 t.index ∧ u.x core 4 = BitVec.ofNat 64 core ∧
        ∃ r, (u.core core).run = some r ∧ r.ctx = c ∧ r.task = t.id ∧ r.spadBase = 65536 * t.spadBase ∧ r.spadLen = 65536 * t.spadLen ∧ r.ended = none ∧
          r.arg = if t.kind = 0 then none else some t.arg) ∧
      (∀ core, core ∉ t.runsOn → u.core core = s.core core) ∧ u.mem = s.mem ∧ u.spad = s.spad ∧ u.sems = s.sems ∧ u.counters = s.counters)) ∧
  (∀ (s : State) (core : Nat), s.sound = true →
    (s.taskOf? core = none → exec (.taskEnd core) s = .next s.settle) ∧
    (∀ t r v, (s.core core).run = some r → s.taskOf? core = some t →
      (s.taskOver t = false → exec (.taskEnd core) s = .next s.settle) ∧
      (s.taskOver t = true → r.ctx < 64 → s.regAt Reg.CTX_STATE r.ctx = 1 → s.far.lines = [] → s.taskQuiet t = true → (s.ctx r.ctx).tasks = [t] → (s.ctx r.ctx).subs = [v] →
          v.index = t.sub → v.fail = none → v.done = false → v.ended + 1 < v.count → t.runsOn.contains core = true →
        ((s.endOf t).1 = 0 → t.outs.length ≤ 1 → s.calm t.outs = true → (∀ n ∈ t.outs, (s.sem n).toNat < 0xFFFFFFFF) → ∃ u : State, exec (.taskEnd core) s = .next u.settle ∧
          (u.core core).run = none ∧ (u.ctx r.ctx).tasks = [] ∧ (u.ctx r.ctx).subs = [{ v with ended := v.ended + 1 }] ∧
          (∀ n, u.sem n = if t.outs = [n] then s.sem n + 1 else s.sem n) ∧ u.regAt Reg.CTX_STATE r.ctx = 1 ∧ u.mem = s.mem) ∧
        ((s.endOf t).1 ≠ 0 → ∃ u : State, exec (.taskEnd core) s = .next u.settle ∧ (u.core core).run = none ∧ (u.ctx r.ctx).tasks = [] ∧
          u.regAt Reg.CTX_STATE r.ctx = 2 ∧ u.sems = s.sems))))

/-- A task image read, checked, exchanged or rejected, and an image pushed to another block and taken from one. CTX_IMAGE_LOAD is BUSY while one is verified or exchanged. A header that fails R291 is recorded with its error and nothing is copied; otherwise the whole image is copied to the home not in use, with error 4 for an unknown or revoked key, 5 for a false signature, or none. At IMAGE_VERIFY_COMPLETE an error rejects it, the Active image standing; else it is Active with its serial and declaration, undeclared slots are disarmed, and the state is Exchanging while a task runs from the old home. IMG_PUSH_GO plans packets of 4,096 bytes that cover the length, in order. An IMAGE_LOAD is refused with BAD_REQ or BUSY, or its payload is written at the stage and answered COMPLETION. -/
def Obligations.ImagesLoadedAndPushed : Prop :=
  (∀ (s : State) (via : Via) (c : Nat), s.sound = true → s.admits via Reg.CTX_IMAGE_LOAD c 0 = true → s.memGood = true → s.memPoison = [] →
    let stage := s.regAt Reg.CTX_IMAGE_STAGE c
    let h := s.bytesAt stage 256
    let useA := !((s.ctx c).image.any (·.homeA))
    let img : Image := { homeA := useA, codeLen := le 8 4 h, decl := le 16 2 h, serial := le 20 4 h }
    let home := if useA then s.regAt Reg.CTX_IMAGE_HOME_A c else s.regAt Reg.CTX_IMAGE_HOME_B c
    let bs := s.bytesAt stage (256 + le 8 4 h + le 12 4 h)
    let begun (u : State) (e : Nat) : Prop := exec (.ctxImageLoad via c) s = .next (State.settle (u.answered .ok)) ∧ (u.ctx c).loading = some (img, e) ∧
      u.regAt Reg.CTX_IMAGE_STATE c = 1 ∧ (u.ctx c).image = (s.ctx c).image ∧ u.cores = s.cores ∧ u.spad = s.spad
    ((s.regAt Reg.CTX_IMAGE_STATE c = 1 ∨ s.regAt Reg.CTX_IMAGE_STATE c = 3) → exec (.ctxImageLoad via c) s = .next (State.settle (s.answered .busy))) ∧
    (s.regAt Reg.CTX_IMAGE_STATE c ≠ 1 → s.regAt Reg.CTX_IMAGE_STATE c ≠ 3 → stage + maxImage ≤ s.build.memBytes → home + maxImage ≤ s.build.memBytes →
      (slice 0 4 h ≠ [0x49, 0x4D, 0x47, 0x35] → headerError h = 1) ∧
      (∀ e, headerError h = e → e ≠ 0 → ∃ u : State, begun u e ∧ u.mem = s.mem) ∧
      (headerError h = 0 → ∃ u : State, u.mem = storeBytes s.mem home bs ∧
        (s.imageKeyOk h = false → begun u 4) ∧ (s.imageKeyOk h = true → signatureOk bs = false → begun u 5) ∧
        (s.imageKeyOk h = true → signatureOk bs = true → begun u 0)))) ∧
  (∀ (s : State) (c : Nat), s.sound = true → c < 64 →
    ((s.ctx c).loading = none → exec (.imageVerifyComplete c) s = .next s.settle) ∧
    (∀ img e, (s.ctx c).loading = some (img, e) → e ≠ 0 → exec (.imageVerifyComplete c) s = .next (State.settle (State.raiseCtx
      (((s.onCtx c fun x => { x with loading := none }).setRegAt Reg.CTX_IMAGE_ERROR c e).setRegAt Reg.CTX_IMAGE_STATE c (if (s.ctx c).image.isSome then 2 else 0))
      .imageRejected c e))) ∧
    (∀ img, (s.ctx c).loading = some (img, 0) → ∃ u : State, exec (.imageVerifyComplete c) s = .next u.settle ∧ (u.ctx c).image = some img ∧ (u.ctx c).loading = none ∧
      u.regAt Reg.CTX_IMAGE_SERIAL c = img.serial ∧ u.regAt Reg.CTX_TRIG_DECL c = img.decl ∧ u.regAt Reg.CTX_IMAGE_ERROR c = 0 ∧
      (u.ctx c).trigs = (s.ctx c).trigs.filter (fun e => img.decl.testBit e.1) ∧ u.sems = s.sems ∧ u.mem = s.mem ∧ u.cores = s.cores ∧
      ((s.ctx c).image = none → u.regAt Reg.CTX_IMAGE_STATE c = 2 ∧ (u.ctx c).old = none) ∧
      (∀ i n r, (s.ctx c).image = some i → n < 64 → (s.core n).run = some r → r.ctx = c → r.codeLen ≠ 0 → r.home = s.homeOf c i →
        u.regAt Reg.CTX_IMAGE_STATE c = 3 ∧ (u.ctx c).old = some i) ∧
      (∀ i, (s.ctx c).image = some i → (∀ n r, (s.core n).run = some r → r.ctx ≠ c) → u.regAt Reg.CTX_IMAGE_STATE c = 2 ∧ (u.ctx c).old = none))) ∧
  (∀ (s : State) (via : Via), s.sound = true → s.admits via Reg.IMG_PUSH_GO 0 0 = true →
    ((s.disp.pushing = true ∨ s.ownChip = 0xFFFF) → exec (.imgPushGo via) s = .next (State.settle (s.answered .busy))) ∧
    (s.disp.pushing = false → s.ownChip ≠ 0xFFFF → ∃ (u : State) (q : TxnPlan), exec (.imgPushGo via) s = .next (State.settle (u.answered .ok)) ∧ u.disp.pushing = true ∧
      u.reg Reg.IMG_PUSH_STATE = 1 ∧ u.reg Reg.IMG_PUSH_STATUS = 0 ∧ u.rmt.plans = s.rmt.plans ++ [q] ∧ q.kind = .image ∧ q.part = 0 ∧
      q.dest = fld (s.reg Reg.IMG_PUSH_DEST) 15 0 ∧ (q.items.map (·.len)).sum = s.reg Reg.IMG_PUSH_LEN ∧
      (∀ k i, q.items[k]? = some i → i.addr = s.reg Reg.IMG_PUSH_SRC + 4096 * k ∧ i.seq = k ∧ 0 < i.len ∧ i.len ≤ 4096 ∧ (k + 1 < q.items.length → i.len = 4096) ∧
        i.pkt.op = .imageLoad ∧ i.pkt.ordered = true ∧ i.pkt.gen = 0 ∧ i.pkt.job = 0 ∧ i.pkt.destOffset = 4096 * k ∧ i.pkt.seq = k ∧
        i.pkt.opArg = fld (s.reg Reg.IMG_PUSH_DEST) 21 16))) ∧
  (∀ (s : State) (p : Packet), s.sound = true → s.powered = true → p.op = .imageLoad → p.mcast = false → s.pkt.drain = none →
    let c := fld p.opArg 5 0
    let answers (u : State) (op : Opcode) (v : Nat) : Prop := ∃ w : Waiting, exec (.imageLoadReceive p) s = .next u.settle ∧ u.pkt.wait = s.pkt.wait ++ [w] ∧ w.pkt.op = op ∧
      w.pkt.dest = p.src ∧ w.pkt.tag = p.tag ∧ w.pkt.seq = p.seq ∧ w.pkt.payload = leBytes 8 v
    ((s.regAt Reg.CTX_IMAGE_INBAND c = 0 ∨ maxImage < p.destOffset + p.payload.length) → ∃ u : State, answers u .negCompletion 0x13 ∧ u.mem = s.mem) ∧
    (s.regAt Reg.CTX_IMAGE_INBAND c ≠ 0 → p.destOffset + p.payload.length ≤ maxImage →
      (s.regAt Reg.CTX_IMAGE_STATE c = 1 → ∃ u : State, answers u .negCompletion 0x10 ∧ u.mem = s.mem) ∧
      (s.regAt Reg.CTX_IMAGE_STATE c ≠ 1 → s.memGood = true → s.regAt Reg.CTX_IMAGE_STAGE c + maxImage ≤ s.build.memBytes →
        ∃ u : State, answers u .completion 1 ∧ u.mem = storeBytes s.mem (s.regAt Reg.CTX_IMAGE_STAGE c + p.destOffset) p.payload ∧ u.spad = s.spad ∧ u.cores = s.cores ∧
          u.dict = s.dict)))

/-- A collective's start, and what a member does with GRANT, EXP_DOWN, DONE, GATHER_CHUNK, COLL_ABORT and its timeout. A COLLECTIVE task whose descriptor is readable waits while its group is in use; else it takes ALIVE, one more modulo 256: a refused descriptor aborts with cause DESC and code 0x70, a reduction with owned chunks runs with its ranges pinned, and an ALL_GATHER copies its owned chunk to its place in the output and multicasts its pieces. A GRANT one ALIVE ahead is kept, or dropped and counted when the store is full; one for FSUM is answered with an EXP_UP of the chunk's block bytes. EXP_DOWN sends the chunk's slices in order. DONE of the last rank ends it. A GATHER_CHUNK lands at its place in the output and nowhere else. A stale packet is counted; an abort, a foreign hash or the timeout ends the collective with its cause, the abort received sending nothing. -/
def Obligations.CollectiveMember : Prop :=
  (∀ (s : State) (c task core a base : Nat) (r : Running) (t : Task), s.sound = true → c < 64 → s.collTask? c task = some (core, r, a) → (s.ctx c).tasks = [t] →
      s.awake core = true → s.engineStalled core .reduction = false → s.memGood = true → s.memPoison = [] →
      s.maps (s.partOfCore core) c a 64 .read false base = true → base + 64 ≤ s.build.memBytes →
    let d := CollDesc.parse (s.bytesAt base 64)
    let n := s.regAt Reg.CTX_RANK_COUNT c
    let rank := s.regAt Reg.CTX_OWN_RANK c
    let alive := (Table.get (s.ctx c).alives 0 d.group + 1) % 256
    let len := d.lengths n rank
    let o := d.owned n rank
    let taken (u : State) : Prop := exec (.collectiveStart c task) s = .next u.settle ∧ (u.ctx c).alives = Table.put (s.ctx c).alives 0 d.group alive ∧
      (u.core core).run = some { r with arg := none } ∧ u.reg Reg.COLL_STARTED = (s.reg Reg.COLL_STARTED + 1) % 2 ^ 32 ∧ u.spad = s.spad ∧ u.sems = s.sems
    ((s.ctx c).colls.any (fun y => y.group == d.group) = true → exec (.collectiveStart c task) s = .next s.settle) ∧
    ((s.ctx c).colls.any (fun y => y.group == d.group) = false → d.ledger = false → s.captureWindow c d.tensor r.step = none →
      (d.refused n rank = true → ∃ u : State, taken u ∧ (u.ctx c).colls = (s.ctx c).colls ∧ (u.ctx c).tasks = [{ t with error := some (0x70, core, 0) }] ∧
        u.reg Reg.COLL_ABORTS = (s.reg Reg.COLL_ABORTS + 1) % 2 ^ 32 ∧ u.regAt Reg.COLL_LAST_CAUSE c = 2 ∧ u.mem = s.mem) ∧
      (∀ bi bo, d.refused n rank = false → (s.ranksOk c).1 = true → s.groupOk c d.group = true → s.disp.early = [] → s.pkt.drain = none →
        s.maps (s.partOfCore core) c d.inAddr len.1 .read false bi = true → s.maps (s.partOfCore core) c d.outAddr len.2 .write false bo = true →
        bi + len.1 ≤ s.build.memBytes → bo + len.2 ≤ s.build.memBytes →
          (d.op = 1 → o.1 < o.2 → ∃ (u : State) (k : Coll), taken u ∧ (u.ctx c).colls = (s.ctx c).colls ++ [k] ∧ k.group = d.group ∧ k.alive = alive ∧ k.n = n ∧
            k.rank = rank ∧ k.hash = d.hash n ∧ k.inp = [(bi, len.1)] ∧ k.out = [(bo, len.2)] ∧ k.next = 0 ∧ k.open_ = [] ∧ u.mem = s.mem ∧ u.pkt.wait = s.pkt.wait) ∧
          (d.op = 2 → o.2 = o.1 + 1 → ∃ (u : State) (ws : List Waiting), taken u ∧ u.mem = storeBytes s.mem (bo + fmtBytes d.inFmt (4096 * o.1)) (s.bytesAt bi len.1) ∧
            u.pkt.wait = s.pkt.wait ++ ws ∧ ws.length = d.pieces o.1 ∧
            ∀ (i : Nat) (w : Waiting), ws[i]? = some w → w.pkt.op = .gatherChunk ∧ w.pkt.mcast = true ∧ w.pkt.dest = d.group ∧ w.pkt.gen = alive ∧ w.pkt.seq = i ∧
              w.pkt.destOffset = fmtBytes d.inFmt (4096 * o.1) + 2048 * i ∧ w.pkt.payload.drop 16 = slice (2048 * i) 2048 (s.bytesAt bi len.1))))) ∧
  (∀ (s : State) (c task : Nat), s.collTask? c task = none → exec (.collectiveStart c task) s = .next s.settle) ∧
  (∀ (s : State) (c : Nat) (p : Packet), s.sound = true → s.powered = true → s.pkt.drain = none → c < 64 → s.ctxOfJob? p.job = some c →
    let g := p.tag % 4096
    let next := (Table.get (s.ctx c).alives 0 g + 1) % 256
    let ended (u : State) (cause rank : Nat) : Prop := (u.ctx c).colls = [] ∧ u.reg Reg.COLL_ABORTS = (s.reg Reg.COLL_ABORTS + 1) % 2 ^ 32 ∧
      u.regAt Reg.COLL_LAST_CAUSE c = cause ∧ u.regAt Reg.COLL_LAST_RANK c = rank ∧ u.regAt Reg.COLL_LAST_GROUP c = g ∧ u.mem = s.mem
    let events (ws : List Waiting) : Prop := ∀ x ∈ ws, x.pkt.op = .ontan
    let tells (u : State) (k : Coll) (cause : Nat) : Prop := ∃ (w : Waiting) (ws : List Waiting), u.pkt.wait = s.pkt.wait ++ w :: ws ∧ events ws ∧ w.pkt.op = .collAbort ∧ w.pkt.mcast = true ∧ w.pkt.dest = g ∧
      w.pkt.gen = k.alive ∧ w.pkt.payload = leBytes 1 cause ++ [0] ++ leBytes 2 k.rank ++ zeros 4
    let inMem (k : Coll) : Prop := s.memGood = true ∧ ∀ e ∈ k.inp, e.1 + e.2 ≤ s.build.memBytes
    (p.op = .tallyExp → p.seq = 1 → p.gen = next → s.disp.early.contains (s.earlyPart c, p) = false →
      (s.earlyUsed (s.earlyPart c) < 1024 → exec (.grantReceive p) s = .next (State.settle (s.onDisp fun d => { d with early := d.early ++ [(s.earlyPart c, p)] }))) ∧
      (1024 ≤ s.earlyUsed (s.earlyPart c) → exec (.grantReceive p) s = .next (State.settle (s.bump Reg.COLL_EARLY_DROPPED)))) ∧
    ((s.ctx c).colls = [] → exec (.collTimeout c g) s = .next s.settle ∧
      (p.op = .tallyExp → p.seq = 3 → exec (.expDownReceive p) s = .next (State.settle (s.bump Reg.COLL_STALE))) ∧
      (p.op = .tallyExp → p.seq = 4 → exec (.doneReceive p) s = .next (State.settle (s.bump Reg.COLL_STALE))) ∧
      (p.op = .gatherChunk → exec (.gatherChunkReceive p) s = .next (State.settle (s.bump Reg.COLL_STALE))) ∧
      (p.op = .collAbort → exec (.collAbortReceive p) s = .next (State.settle (s.bump Reg.COLL_STALE)))) ∧
    (∀ k : Coll, (s.ctx c).colls = [k] → k.ctx = c → k.group = g → k.alive = p.gen → k.d.ledger = false → k.window = none →
      (∃ u : State, exec (.collTimeout c g) s = .next u.settle ∧ ended u 1 k.rank ∧ tells u k 1) ∧
      (p.op = .collAbort → ∃ u : State, exec (.collAbortReceive p) s = .next u.settle ∧ ended u (le 0 1 p.payload) (le 2 2 p.payload) ∧
        ∃ ws, u.pkt.wait = s.pkt.wait ++ ws ∧ events ws) ∧
      (p.op = .tallyExp → le 8 4 p.payload ≠ k.hash → (p.seq = 3 → ∃ u : State, exec (.expDownReceive p) s = .next u.settle ∧ ended u 3 k.rank ∧ tells u k 3) ∧
        (p.seq = 4 → ∃ u : State, exec (.doneReceive p) s = .next u.settle ∧ ended u 3 k.rank ∧ tells u k 3)) ∧
      (p.op = .tallyExp → le 8 4 p.payload = k.hash → le 0 1 p.payload = p.seq → k.d.reduces = true →
        (p.seq = 1 → p.gen ≠ next → le 4 4 p.payload = 1 → k.d.kind = 1 → p.destOffset < k.d.chunks → k.owns p.destOffset = false → k.expSent.contains p.destOffset = false → inMem k →
          ∃ (u : State) (w : Waiting), exec (.grantReceive p) s = .next u.settle ∧ (u.ctx c).colls = [{ k with expSent := setIns p.destOffset k.expSent }] ∧
            u.pkt.wait = s.pkt.wait ++ [w] ∧ w.pkt.op = .tallyExp ∧ w.pkt.seq = 2 ∧ w.pkt.dest = p.src ∧ w.pkt.destOffset = p.destOffset ∧ w.pkt.gen = k.alive ∧
            w.pkt.payload = leBytes 1 2 ++ [0] ++ leBytes 2 k.rank ++ leBytes 4 1 ++ leBytes 4 k.hash ++ zeros 4 ++
              blockBytes (chunkLanes k.d.inFmt (s.collInput k p.destOffset).1) ∧ u.mem = s.mem) ∧
        (p.seq = 3 → k.d.kind = 1 → p.destOffset < k.d.chunks → k.owns p.destOffset = false → k.sliceSent.contains p.destOffset = false → k.dones.length < k.n → inMem k →
          let blocks := contribution 1 (fit 128 (p.payload.drop 16)) (chunkLanes k.d.inFmt (s.collInput k p.destOffset).1)
          (blocks = none → ∃ u : State, exec (.expDownReceive p) s = .next u.settle ∧ ended u 4 k.rank ∧ tells u k 4) ∧
          (∀ bl, blocks = some bl → ∃ (u : State) (ws : List Waiting), exec (.expDownReceive p) s = .next u.settle ∧
            (u.ctx c).colls = [{ k with sliceSent := setIns p.destOffset k.sliceSent }] ∧ u.pkt.wait = s.pkt.wait ++ ws ∧ ws.length = ceilDiv bl.length 4 ∧ u.mem = s.mem ∧
            ∀ (i : Nat) (w : Waiting), ws[i]? = some w → w.pkt.op = .tallyChunk ∧ w.pkt.dest = p.src ∧ w.pkt.mcast = false ∧ w.pkt.destOffset = p.destOffset ∧
              w.pkt.seq = i ∧ w.pkt.gen = k.alive)) ∧
        (p.seq = 4 → le 2 2 p.payload < k.n → let k2 : Coll := { k with dones := setIns (le 2 2 p.payload) k.dones }
          ∃ u : State, exec (.doneReceive p) s = .next u.settle ∧ (u.ctx c).colls = (if k2.finished then [] else [k2]) ∧ u.mem = s.mem ∧ u.pkt.wait = s.pkt.wait ∧
            u.dict = s.dict)) ∧
      (∀ base len, p.op = .gatherChunk → le 0 4 p.payload = k.hash → k.d.reduces = false → p.payload.length > 16 → k.out = [(base, len)] → s.memGood = true →
          base + len ≤ s.build.memBytes → p.destOffset + (p.payload.length - 16) ≤ len → len = fmtBytes k.d.inFmt k.d.elems →
        let chunk := p.destOffset / fmtBytes k.d.inFmt 4096
        let piece := 8 * chunk + p.destOffset % fmtBytes k.d.inFmt 4096 / 2048
        let k2 : Coll := { k with landed := setIns piece k.landed }
        ∃ u : State, exec (.gatherChunkReceive p) s = .next u.settle ∧ u.mem = storeBytes s.mem (base + p.destOffset) (p.payload.drop 16) ∧ u.pkt.wait = s.pkt.wait ∧
          ((k.owns chunk = true ∨ k.landed.contains piece = true) → (u.ctx c).colls = [k]) ∧
          (k.owns chunk = false → k.landed.contains piece = false → (u.ctx c).colls = if k2.finished then [] else [k2]))))

/-- A chunk at its owner: opened, its exponents and slices joined, closed; the repeats; and why the order of additions does not matter. An owner opens its next chunk where its depth and the reduction store allow: its own contribution is in and GRANT is multicast; a full store is counted once per wait. EXP_UP joins the block bytes by their maximum and adds the members. A TALLY_CHUNK adds its values, members and check to the slice of its index; blocks of different agreed bytes, or an unopened chunk, abort with PROTOCOL. When every slice is complete and the checks agree the rounded chunk is written to its place and closed; a differing check aborts with CHECK and is counted. A repeat sends the GRANT of an open chunk again. Up to 4,194,304 finite tallies below 2^104 in magnitude add to their exact sum in any order, and slice checks add modulo 2^64 - 1. -/
def Obligations.CollectiveOwner : Prop :=
  (∀ (s : State) (c : Nat) (k : Coll), s.sound = true → c < 64 → s.pkt.drain = none → (s.ctx c).colls = [k] → k.ctx = c → k.d.reduces = true →
    let g := k.group
    let o := k.d.owned k.n k.rank
    let chunk := o.1 + k.next
    let grants (w : Waiting) (i : Nat) : Prop := w.pkt.op = .tallyExp ∧ w.pkt.mcast = true ∧ w.pkt.dest = g ∧ w.pkt.gen = k.alive ∧ w.pkt.seq = 1 ∧ w.pkt.destOffset = i ∧
      w.pkt.payload = leBytes 1 1 ++ [0] ++ leBytes 2 k.rank ++ leBytes 4 1 ++ leBytes 4 k.hash ++ zeros 4
    (∀ i, (i ≠ chunk ∨ o.2 ≤ i ∨ k.d.depth ≤ k.open_.length) → exec (.chunkOpen c g i) s = .next s.settle) ∧
    (chunk < o.2 → k.open_.length < k.d.depth →
      (1048576 < s.storeUsed (s.collPart k) + k.d.reserve → k.waited = true → exec (.chunkOpen c g chunk) s = .next s.settle) ∧
      (1048576 < s.storeUsed (s.collPart k) + k.d.reserve → k.waited = false → ∃ u : State, exec (.chunkOpen c g chunk) s = .next u.settle ∧
        (u.ctx c).colls = [{ k with waited := true }] ∧ u.reg Reg.COLL_STORE_WAITS = (s.reg Reg.COLL_STORE_WAITS + 1) % 2 ^ 32) ∧
      (s.storeUsed (s.collPart k) + k.d.reserve ≤ 1048576 → 1 < k.n → s.memGood = true → (∀ e ∈ k.inp, e.1 + e.2 ≤ s.build.memBytes) → (∀ h ∈ k.open_, h.k ≠ chunk) → ∃ (u : State) (w : Waiting) (h : Chunk), exec (.chunkOpen c g chunk) s = .next u.settle ∧
        (u.ctx c).colls = [{ k with next := k.next + 1, open_ := k.open_ ++ [h], waited := false }] ∧ h.k = chunk ∧ h.agreed = decide (k.d.kind ≠ 1) ∧
        h.expContrib = 1 ∧ (∀ e ∈ h.slices, e.2.contrib = 1) ∧ u.pkt.wait = s.pkt.wait ++ [w] ∧ grants w chunk ∧ u.mem = s.mem)) ∧
    (∀ h : Chunk, k.open_ = [h] → h.agreed = false → k.doneSent = false → ∃ (u : State) (w : Waiting), exec (.collNoticeRepeat c g) s = .next u.settle ∧
      u.pkt.wait = s.pkt.wait ++ [w] ∧ grants w h.k ∧ (u.ctx c).colls = [k] ∧ u.mem = s.mem) ∧
    (k.open_ = [] → k.doneSent = false → exec (.collNoticeRepeat c g) s = .next s.settle)) ∧
  (∀ (s : State) (c g : Nat), (s.ctx c).colls = [] → exec (.collNoticeRepeat c g) s = .next s.settle ∧ ∀ i, exec (.chunkOpen c g i) s = .next s.settle) ∧
  (∀ (s : State) (c : Nat) (p : Packet) (k : Coll), s.sound = true → s.powered = true → s.pkt.drain = none → c < 64 → s.ctxOfJob? p.job = some c →
    let g := p.tag % 4096
    ((s.ctx c).colls = [] → (p.op = .tallyExp → p.seq = 2 → exec (.expUpReceive p) s = .next (State.settle (s.bump Reg.COLL_STALE))) ∧
      (p.op = .tallyChunk → exec (.tallyChunkReceive p) s = .next (State.settle (s.bump Reg.COLL_STALE)))) ∧
    ((s.ctx c).colls = [k] → k.ctx = c → k.group = g → k.alive = p.gen → k.d.ledger = false → k.window = none → k.d.reduces = true →
      let ended (u : State) (cause : Nat) : Prop := (u.ctx c).colls = [] ∧ u.reg Reg.COLL_ABORTS = (s.reg Reg.COLL_ABORTS + 1) % 2 ^ 32 ∧
        u.regAt Reg.COLL_LAST_CAUSE c = cause ∧ u.regAt Reg.COLL_LAST_RANK c = k.rank ∧ u.mem = s.mem
      (k.open_ = [] → (p.op = .tallyExp → p.seq = 2 → le 8 4 p.payload = k.hash → ∃ u : State, exec (.expUpReceive p) s = .next u.settle ∧ ended u 4) ∧
        (p.op = .tallyChunk → ∃ u : State, exec (.tallyChunkReceive p) s = .next u.settle ∧ ended u 4)) ∧
      (∀ h : Chunk, k.open_ = [h] → p.destOffset = h.k →
        (p.op = .tallyExp → p.seq = 2 → le 0 1 p.payload = 2 → le 8 4 p.payload = k.hash → k.d.kind = 1 → h.agreed = false → h.expContrib + le 4 4 p.payload < k.n →
          let up := fit 128 (p.payload.drop 16)
          ∃ (u : State) (h2 : Chunk), exec (.expUpReceive p) s = .next u.settle ∧ (u.ctx c).colls = [{ k with open_ := [h2] }] ∧ h2.k = h.k ∧
            h2.expContrib = h.expContrib + le 4 4 p.payload ∧ h2.expBytes.length = min h.expBytes.length 128 ∧
            (∀ i, i < h2.expBytes.length → (h2.expBytes.getD i 0).toNat = max (h.expBytes.getD i 0).toNat (up.getD i 0).toNat) ∧ u.pkt.wait = s.pkt.wait ∧ u.mem = s.mem) ∧
        (∀ e, p.op = .tallyChunk → h.agreed = true → List.find? (fun (e : Nat × SliceSum) => e.1 == p.seq) h.slices = some (p.seq, e) →
          let body := if p.ltag then p.payload.drop 8 else p.payload
          let elems := le 4 1 body + 1
          le 5 1 body = k.d.kind → e.contrib + le 0 4 body ≤ k.n → elems = min 128 (k.d.chunkElems h.k - 128 * p.seq) →
            (addBlocks k.d.kind e.blocks (parseBlocks k.d.kind elems body) = none → ∃ u : State, exec (.tallyChunkReceive p) s = .next u.settle ∧ ended u 4) ∧
            (∀ sum, addBlocks k.d.kind e.blocks (parseBlocks k.d.kind elems body) = some sum →
              let x : SliceSum := { contrib := e.contrib + le 0 4 body, check := if k.d.kind ≤ 2 then (e.check + le 8 8 body) % (2 ^ 64 - 1) else 0, blocks := sum }
              let h2 : Chunk := { h with slices := Table.insert h.slices p.seq x, untagged := h.untagged || !p.ltag, mismatch := h.mismatch || (p.ltag && le 0 4 p.payload != k.step), poisonRank := if p.ltag then min h.poisonRank (le 4 2 p.payload) else h.poisonRank }
              (k.chunkFull h2 = false → ∃ u : State, exec (.tallyChunkReceive p) s = .next u.settle ∧ (u.ctx c).colls = [{ k with open_ := [h2] }] ∧
                u.pkt.wait = s.pkt.wait ∧ u.mem = s.mem) ∧
              (k.chunkFull h2 = true → k.checksOk h2 = false → ∃ u : State, exec (.tallyChunkReceive p) s = .next u.settle ∧ ended u 5 ∧
                u.reg Reg.COLL_CHECK_FAILS = (s.reg Reg.COLL_CHECK_FAILS + 1) % 2 ^ 32) ∧
              (∀ base len, k.chunkFull h2 = true → k.checksOk h2 = true → k.out = [(base, len)] → k.outOff h.k + (k.output h2).1.length ≤ len →
                base + len ≤ s.build.memBytes → s.memGood = true → ∃ u : State, exec (.tallyChunkReceive p) s = .next u.settle ∧
                u.mem = storeBytes s.mem (base + k.outOff h.k) (plain (k.output h2).1) ∧ ∀ y ∈ (u.ctx c).colls, y.open_ = [] ∧ y.closed = k.closed + 1)))))) ∧
  (∀ l l2 : List Int, l2.Perm l → l.length ≤ 4194304 → (∀ t ∈ l, t.natAbs < 2 ^ 104) → (l2.map Tally.fin).foldl Tally.add (.fin 0) = .fin l.sum) ∧
  (∀ a b : List Int, a.length = b.length → sliceCheck ((a.zip b).map fun x => .fin (x.1 + x.2)) = (sliceCheck (a.map .fin) + sliceCheck (b.map .fin)) % (2 ^ 64 - 1))

/-- Attention: enabling it, an attend descriptor at its requester, an arriving request at its target, and the partials that return. ATT_ENABLE is set where every check of R341 passes and is out of range otherwise; clearing it is always taken. An attend descriptor refused by R345 or its rank ends at once, counted as failed and sending nothing; an accepted one waits as one transaction of a request for each piece, header and image bytes in each. An ATTEND_REQ that R352 turns away gets BAD_REQ; else the lowest free slot takes it, its bytes written to the slot's area, Queued and answered COMPLETION once whole; no slot free is BUSY; a piece held writes nothing; Queued and Running answer again, Done sends its parts again. Assembly and hold timers free their slots. An ATTEND_PART lands at its place, the last ends the descriptor; a stale one is counted; a late result fails it. -/
def Obligations.AttentionRequests : Prop :=
  (∀ (s : State) (via : Via) (c : Nat), s.sound = true →
    let spad := s.regAt Reg.ATT_SPAD c
    let lo := fld spad 4 0
    let n := fld spad 10 5
    let slots := s.regAt Reg.ATT_SLOTS c
    let fits : Prop := s.regAt Reg.CTX_STATE c = 1 ∧ s.regAt Reg.ATT_CORES c ≠ 0 ∧ s.regAt Reg.ATT_CORES c &&& s.regAt Reg.CTX_CORES c = s.regAt Reg.ATT_CORES c ∧
      (s.spadRange c).1 ≤ lo ∧ lo + n ≤ (s.spadRange c).2 ∧ 12 ≤ n ∧ 1 ≤ slots ∧ slots ≤ 256 ∧ s.regAt Reg.ATT_QUEUE_BASE c + 204800 * slots ≤ 2 ^ 40
    (s.admits via Reg.ATT_ENABLE c 1 = true → (fits → exec (.attEnableTrue via c) s = .next (State.settle (State.answered (s.setRegAt Reg.ATT_ENABLE c 1) .ok))) ∧
      (¬fits → exec (.attEnableTrue via c) s = .next (State.settle (s.answered .outOfRange)))) ∧
    (s.admits via Reg.ATT_ENABLE c 0 = true → exec (.attEnableFalse via c) s = .next (State.settle (State.answered (s.setRegAt Reg.ATT_ENABLE c 0) .ok)))) ∧
  (∀ (s : State) (core : Nat) (bs : List Byte), s.sound = true → ((s.core core).run.bind fun r => r.arg) = none → s.dmaHead? core = some bs →
    let d := AttDesc.parse bs
    let h := d.head
    let c := s.ctxOfCore core
    let image := (s.queryImage core d).1
    (d.kind ≠ 8 → exec (.attend core) s = .next s.settle) ∧
    (d.kind = 8 → d.statusEn = false → d.localCountEn = false →
      ((d.refusal.isSome = true ∨ (d.refusal = none ∧ s.attInside core d = true ∧ (s.rankChip c d.rank).1 = none ∧ (s.rankChip c d.rank).2 = s)) →
        ∃ u : State, exec (.attend core) s = .next u.settle ∧ (u.core core).dq = (s.core core).dq.drop 1 ∧ u.reg Reg.RMT_FAILED = (s.reg Reg.RMT_FAILED + 1) % 2 ^ 32 ∧
          u.pkt.wait = s.pkt.wait ∧ u.mem = s.mem ∧ u.spad = s.spad) ∧
      (d.refusal = none → s.attInside core d = false → exec (.attend core) s = .next (State.settle (s.taskError core 0x55))) ∧
      (∀ dest, d.refusal = none → s.attInside core d = true → s.rankChip c d.rank = (some dest, s) → ∃ (u : State) (e : Desc) (q : TxnPlan), exec (.attend core) s = .next u.settle ∧
        (u.core core).dq = (s.core core).dq.drop 1 ∧ u.rmt.descs = s.rmt.descs ++ [e] ∧ e.op = 8 ∧ e.peer = dest ∧ e.att = some ([], h.partLen, d.outAddr, .spad) ∧
        u.rmt.plans = s.rmt.plans ++ [q] ∧ q.kind = .attend ∧ q.dest = dest ∧ q.owner = .attend core e.id ∧ q.items.length = h.pieces ∧
        (∀ (k : Nat) (i : PlanItem), q.items[k]? = some i → i.pkt.op = .attendReq ∧ i.pkt.seq = k ∧ i.pkt.dest = dest ∧
          i.pkt.payload = AttHeader.bytes { h with poison := anyPoison image } ++ plain (slice (4032 * k) 4032 image)) ∧ u.mem = s.mem ∧ u.spad = s.spad))) ∧
  (∀ (s : State) (link c : Nat) (p : Packet), s.sound = true → s.powered = true → s.pkt.drain = none → p.op = .attendReq → p.mcast = false → p.opArg = p.tag → c < 64 →
      s.ctxOfJob? p.job = some c → s.regAt Reg.CTX_STATE c ≠ 3 → Table.get s.rmt.granted 0 p.src = 0 → 0 < s.slotsFree →
    let head := p.payload.take 64
    let h := AttHeader.parse head
    let good : Prop := s.regAt Reg.ATT_ENABLE c ≠ 0 ∧ 64 ≤ p.payload.length ∧ h.ok = true ∧ p.seq < h.pieces ∧ p.payload.length = 64 + h.pieceLen p.seq
    let sends (u : State) (op : Opcode) (body : List Byte) : Prop := ∃ w : Waiting, u.pkt.wait = s.pkt.wait ++ [w] ∧ w.pkt.op = op ∧ w.pkt.dest = p.src ∧ w.pkt.tag = p.tag ∧
      w.pkt.gen = p.gen ∧ w.pkt.payload = body
    let wrote (u : State) : Prop := u.mem = storeBytes s.mem (s.regAt Reg.ATT_QUEUE_BASE c + 4032 * p.seq) (p.payload.drop 64)
    ((s.ctx c).slots = [] →
      (¬good → ∃ u : State, exec (.attendReqReceive link p) s = .next u.settle ∧ sends u .negCompletion (leBytes 8 0x13) ∧ (u.ctx c).slots = [] ∧ u.mem = s.mem) ∧
      (good → s.regAt Reg.ATT_SLOTS c = 0 → ∃ u : State, exec (.attendReqReceive link p) s = .next u.settle ∧ sends u .negCompletion (leBytes 8 0x10) ∧ (u.ctx c).slots = [] ∧
        u.reg Reg.ATT_BUSY_SENT = (s.reg Reg.ATT_BUSY_SENT + 1) % 2 ^ 32) ∧
      (good → 0 < s.regAt Reg.ATT_SLOTS c → s.memGood = true → s.regAt Reg.ATT_QUEUE_BASE c + 204800 ≤ s.build.memBytes → ∃ (u : State) (a : AttSlot),
        exec (.attendReqReceive link p) s = .next u.settle ∧ (u.ctx c).slots = [a] ∧ a.slot = 0 ∧ a.src = p.src ∧ a.tag = p.tag ∧ a.gen = p.gen ∧ a.header = head ∧
        a.pieces = [p.seq] ∧ wrote u ∧ (h.pieces = 1 → a.phase = .queued ∧ sends u .completion (leBytes 8 1)) ∧ (1 < h.pieces → a.phase = .assembling ∧ u.pkt.wait = s.pkt.wait))) ∧
    (∀ a : AttSlot, (s.ctx c).slots = [a] → a.src = p.src → a.tag = p.tag → a.gen = p.gen → a.job = p.job → good →
      (a.header ≠ head → ∃ u : State, exec (.attendReqReceive link p) s = .next u.settle ∧ sends u .negCompletion (leBytes 8 0x13) ∧ (u.ctx c).slots = []) ∧
      (a.header = head → (a.phase = .assembling → a.pieces.contains p.seq = true → exec (.attendReqReceive link p) s = .next s.settle) ∧
        ((a.phase = .queued ∨ a.phase = .running) → ∃ u : State, exec (.attendReqReceive link p) s = .next u.settle ∧ sends u .completion (leBytes 8 1) ∧ u.mem = s.mem ∧
          (u.ctx c).slots = [a]) ∧
        (a.phase = .done → s.memGood = true → s.regAt Reg.ATT_QUEUE_BASE c + 204800 * (a.slot + 1) ≤ s.build.memBytes → ∃ (u : State) (ws : List Waiting), exec (.attendReqReceive link p) s = .next u.settle ∧ u.pkt.wait = s.pkt.wait ++ ws ∧
          ws.length = ceilDiv h.partLen 4096 ∧ (∀ (k : Nat) (w : Waiting), ws[k]? = some w → w.pkt.op = .attendPart ∧ w.pkt.dest = a.src ∧ w.pkt.seq = k) ∧ u.mem = s.mem ∧
          u.reg Reg.ATT_RESENDS = (s.reg Reg.ATT_RESENDS + 1) % 2 ^ 32)))) ∧
  (∀ (s : State) (c n : Nat) (a : AttSlot), s.sound = true → c < 64 → ((s.ctx c).slots = [] → exec (.attAssemblyTimeout c n) s = .next s.settle ∧
      exec (.attHoldExpire c n) s = .next s.settle) ∧
    ((s.ctx c).slots = [a] → a.slot = n →
      (a.phase = .assembling → ∃ u : State, exec (.attAssemblyTimeout c n) s = .next u.settle ∧ (u.ctx c).slots = [] ∧ u.reg Reg.ATT_EXPIRED = (s.reg Reg.ATT_EXPIRED + 1) % 2 ^ 32 ∧
        (∃ ws, u.pkt.wait = s.pkt.wait ++ ws ∧ ∀ x ∈ ws, x.pkt.op = .ontan) ∧ u.mem = s.mem) ∧
      (a.phase ≠ .assembling → exec (.attAssemblyTimeout c n) s = .next s.settle) ∧
      (a.phase = .done → exec (.attHoldExpire c n) s = .next (State.settle (s.freeSlot c n))) ∧ (a.phase ≠ .done → exec (.attHoldExpire c n) s = .next s.settle))) ∧
  (∀ (s : State) (p : Packet) (t : Txn) (d : Desc) (got : List Nat) (len out : Nat), s.sound = true → s.powered = true → p.op = .attendPart →
    (s.rmt.txns = [] → exec (.attendPartReceive p) s = .next (State.settle (s.bump Reg.RMT_STALE_RSP))) ∧
    (s.rmt.txns = [t] → s.rmt.descs = [d] → t.tag = p.tag → t.owner = .attend d.core d.id → t.kind = .attend → t.quarantined = false → t.tainted = false → p.gen = s.genOf t.ctx →
        (s.window t.dest).queue = [] → d.att = some (got, len, out, .spad) → got.contains p.seq = false → p.payload ≠ [] →
        p.payload.length = min 4096 (len - 4096 * p.seq) → d.statusEn = false → d.localCountEn = false →
      let now := setIns p.seq got
      let w := s.spadWrite d.core (out + 4096 * p.seq) (clean p.payload)
      ∃ u : State, exec (.attendPartReceive p) s = .next u.settle ∧ u.spad = w.spad ∧ u.spadWritten = w.spadWritten ∧ u.mem = s.mem ∧
        (now.length = ceilDiv len 4096 → u.rmt.descs = [] ∧ u.rmt.txns = []) ∧
        (now.length ≠ ceilDiv len 4096 → (∃ e, u.rmt.descs = [e] ∧ e.id = d.id ∧ e.att = some (now, len, out, .spad)) ∧ ∃ x, u.rmt.txns = [x] ∧ x.tag = t.tag ∧
          ∀ y ∈ x.seqs, y.2.phase.isOver = true))) ∧
  (∀ (s : State) (t : Txn) (d : Desc), s.sound = true → (∀ core id, s.rmt.descs = [] → exec (.attResultTimeout core id) s = .next s.settle) ∧
    (s.rmt.txns = [t] → s.rmt.descs = [d] → t.owner = .attend d.core d.id → t.quarantined = false → d.statusEn = false → d.localCountEn = false →
      (∀ got r, d.att = some (got, r) → got ≠ [] → exec (.attResultTimeout d.core d.id) s = .next s.settle) ∧
      (∀ r, d.att = some ([], r) → t.complete = true → (∀ y ∈ t.seqs, y.2.phase = .done) → ∃ u : State, exec (.attResultTimeout d.core d.id) s = .next u.settle ∧
        u.rmt.descs = [] ∧ u.rmt.txns = [{ t with tainted := true, quarantined := true }] ∧ u.reg Reg.RMT_FAILED = (s.reg Reg.RMT_FAILED + 1) % 2 ^ 32 ∧ u.mem = s.mem)))

/-- An attention service: which slots it takes, what it writes and sends, and how it fails. A service starts only where the dispatcher's decision is a slot of the context and the core may serve: the oldest Queued slot becomes Running on the core, and with ATT_PAIRING the oldest that pairs with it too, counted; the dispatcher's pointer moves past the context. At its end, where every page of the request could be read, the partial image that the arithmetic of R354 gives from the query image and the pages is written at byte 69,632 of the slot, the slot is Done, its parts are sent in order, and the service leaves its core. A page table entry that cannot be used fails the request with its reason at SEQ 0 and frees the slot. A translation fault stalls the service. No service on the core, or another decision: nothing happens. -/
def Obligations.AttentionServices : Prop :=
  ∀ (s : State) (c core : Nat) (a : AttSlot), s.sound = true → c < 64 → s.memGood = true →
    ((s.decision ≠ some (c, none) ∨ s.mayServe c core = false) → exec (.attendServiceStart c core) s = .next s.settle) ∧
    ((s.blk = .run ∨ s.blk = .drain) → s.decision = some (c, none) → s.mayServe c core = true →
      ((s.ctx c).slots = [a] → ∃ u : State, exec (.attendServiceStart c core) s = .next u.settle ∧ (u.ctx c).slots = [{ a with phase := .running }] ∧
        (u.ctx c).services = (s.ctx c).services ++ [{ core := core, slots := [a.slot] }] ∧ u.disp.ptr = (c + 1) % 64 ∧ u.mem = s.mem ∧ u.spad = s.spad ∧ u.pkt = s.pkt) ∧
      (∀ b : AttSlot, (s.ctx c).slots = [a, b] → a.slot ≠ b.slot → a.phase = .queued → b.phase = .queued → a.order < b.order →
        s.regAt Reg.ATT_PAIRING c ≠ 0 → a.pairs b = true → ∃ u : State, exec (.attendServiceStart c core) s = .next u.settle ∧
        (u.ctx c).slots = [{ a with phase := .running }, { b with phase := .running }] ∧
        (u.ctx c).services = (s.ctx c).services ++ [{ core := core, slots := [a.slot, b.slot] }] ∧ u.reg Reg.ATT_PAIRED = (s.reg Reg.ATT_PAIRED + 1) % 2 ^ 32)) ∧
    ((s.ctx c).services = [] → exec (.attendServiceEnd c core) s = .next s.settle) ∧
    ((s.ctx c).services = [{ core := core, slots := [a.slot] }] → (s.ctx c).slots = [a] → s.powered = true → s.awake core = true → s.engineStalled core .dma = false →
        s.pkt.drain = none → s.memPoison = [] → a.poison = false →
      let h := AttHeader.parse a.header
      let base := s.regAt Reg.ATT_QUEUE_BASE c + 204800 * a.slot
      let r := s.readPages (s.partOfCore core) c h 0 (attPages h.tokens)
      (∀ pages, r.1 = .ok pages → h.imageLen ≤ 69632 → h.partLen ≤ 135168 → base + 204800 ≤ s.build.memBytes →
        let image := serveImage h (clean (s.bytesAt base h.imageLen)) pages
        ∃ (u : State) (es ws : List Waiting), exec (.attendServiceEnd c core) s = .next u.settle ∧ u.mem = storeBytes s.mem (base + 69632) image ∧
          (u.ctx c).slots = [{ a with phase := .done }] ∧ (u.ctx c).services = [] ∧ u.reg Reg.ATT_SERVED = (s.reg Reg.ATT_SERVED + 1) % 2 ^ 32 ∧
          u.pkt.wait = s.pkt.wait ++ es ++ ws ∧ (∀ x ∈ es, x.pkt.op = .ontan) ∧ ws.length = ceilDiv h.partLen 4096 ∧
          ∀ (k : Nat) (w : Waiting), ws[k]? = some w → w.pkt.op = .attendPart ∧ w.pkt.dest = a.src ∧ w.pkt.tag = a.tag ∧ w.pkt.seq = k ∧
            w.pkt.payload = slice (4096 * k) 4096 image) ∧
      (∀ reason, r.1 = .error (.neg reason) → ∃ (u : State) (es : List Waiting) (w : Waiting), exec (.attendServiceEnd c core) s = .next u.settle ∧ (u.ctx c).slots = [] ∧ (u.ctx c).services = [] ∧
        u.pkt.wait = s.pkt.wait ++ es ++ [w] ∧ (∀ x ∈ es, x.pkt.op = .ontan) ∧ w.pkt.op = .negCompletion ∧ w.pkt.dest = a.src ∧ w.pkt.tag = a.tag ∧ w.pkt.seq = 0 ∧ w.pkt.payload = leBytes 8 reason ∧ u.mem = s.mem) ∧
      (∀ off w, r.1 = .error (.fault off w) → exec (.attendServiceEnd c core) s = .next (State.settle (r.2.xltRaise c off w .read (.engine core .dma)))))

/-- The ledger's ring and the capture windows: enabling, draining, reading, arming, and what a record writes. TRUE in LDG_ENABLE is refused as out of range unless LDG_SIZE_LOG2, LDG_BASE, the 40-bit offset and the other contexts' rings allow it; else the ring is On with producer, consumer and drop count 0. FALSE takes an On ring to Draining, and the end of the drain to Off. LDG_CONSUMER is without effect in Overwrite mode; in Stop mode it takes a value from producer - capacity to producer and refuses any other. CAP_ARM is refused unless base, size, area and steps meet R382; else the three counts are 0. A record of an Open context whose ring is On is written at its slot, 32 bytes and no other, and the producer advances; in Stop mode a full ring drops and counts it. A capture record lands at CAP_BASE + CAP_USED where it fits, and is else only counted, the first miss raising CAPTURE_FULL. -/
def Obligations.LedgerAndCapture : Prop :=
  (∀ (s : State) (via : Via) (c : Nat), s.sound = true → c < 64 →
    let base := s.regAt Reg.LDG_BASE c
    let log := s.regAt Reg.LDG_SIZE_LOG2 c
    let apart (y : Nat) : Prop := base + 2 ^ log ≤ s.regAt Reg.LDG_BASE y ∨ s.regAt Reg.LDG_BASE y + 2 ^ s.regAt Reg.LDG_SIZE_LOG2 y ≤ base
    let fits : Prop := 12 ≤ log ∧ log ≤ 32 ∧ base % 4096 = 0 ∧ base + 2 ^ log ≤ 2 ^ 40 ∧ ∀ y, y < 64 → y ≠ c → s.regAt Reg.LDG_STATE y ≠ 0 → apart y
    let p := s.regAt Reg.LDG_PRODUCER c
    (s.admits via Reg.LDG_ENABLE c 1 = true → (¬fits → exec (.ldgEnableTrue via c) s = .next (State.settle (s.answered .outOfRange))) ∧
      (fits → ∃ u : State, exec (.ldgEnableTrue via c) s = .next (State.settle (u.answered .ok)) ∧ u.regAt Reg.LDG_ENABLE c = 1 ∧ u.regAt Reg.LDG_STATE c = 1 ∧
        u.regAt Reg.LDG_PRODUCER c = 0 ∧ u.regAt Reg.LDG_CONSUMER c = 0 ∧ u.regAt Reg.LDG_DROPPED c = 0 ∧ (u.ctx c).ledgerGap = false ∧ u.mem = s.mem ∧
        ∀ k, k ∉ ([Reg.LDG_ENABLE, Reg.LDG_STATE, Reg.LDG_PRODUCER, Reg.LDG_CONSUMER, Reg.LDG_DROPPED].map fun r => unitKey r c) → u.reg k = s.reg k)) ∧
    (s.admits via Reg.LDG_ENABLE c 0 = true → ∃ u : State, exec (.ldgEnableFalse via c) s = .next (State.settle (u.answered .ok)) ∧ u.regAt Reg.LDG_ENABLE c = 0 ∧
      u.regAt Reg.LDG_STATE c = (if s.regAt Reg.LDG_STATE c = 1 then 2 else s.regAt Reg.LDG_STATE c) ∧ u.regAt Reg.LDG_PRODUCER c = p ∧ u.mem = s.mem) ∧
    (s.regAt Reg.LDG_STATE c = 2 → exec (.ldgDrainComplete c) s = .next (State.settle (s.setRegAt Reg.LDG_STATE c 0))) ∧
    (s.regAt Reg.LDG_STATE c ≠ 2 → exec (.ldgDrainComplete c) s = .next s.settle) ∧
    (∀ v, s.admits via Reg.LDG_CONSUMER c v = true →
      (s.regAt Reg.LDG_MODE c = 0 → exec (.ldgConsumerWrite via c v) s = .next (State.settle (s.answered .ok))) ∧
      (s.regAt Reg.LDG_MODE c ≠ 0 → p ≤ v + 2 ^ (log - 5) → v ≤ p →
        exec (.ldgConsumerWrite via c v) s = .next (State.settle (State.answered (s.setRegAt Reg.LDG_CONSUMER c v) .ok))) ∧
      (s.regAt Reg.LDG_MODE c ≠ 0 → (v + 2 ^ (log - 5) < p ∨ p < v) → exec (.ldgConsumerWrite via c v) s = .next (State.settle (s.answered .outOfRange)))) ∧
    (∀ w, w < 4 → s.admits via Reg.CAP_ARM (4 * c + w) 1 = true →
      let n := 4 * c + w
      let size := s.regAt Reg.CAP_SIZE n
      let ok : Prop := s.regAt Reg.CAP_BASE n % 4096 = 0 ∧ size % 4096 = 0 ∧ 65536 ≤ size ∧ size ≤ 2 ^ 36 ∧ s.regAt Reg.CAP_BASE n + size ≤ 2 ^ 40 ∧
        s.regAt Reg.CAP_STEP_FIRST n ≤ s.regAt Reg.CAP_STEP_LAST n
      (¬ok → exec (.capArmTrue via c w) s = .next (State.settle (s.answered .outOfRange))) ∧
      (ok → ∃ u : State, exec (.capArmTrue via c w) s = .next (State.settle (u.answered .ok)) ∧ u.regAt Reg.CAP_ARM n = 1 ∧ u.regAt Reg.CAP_USED n = 0 ∧
        u.regAt Reg.CAP_RECORDS n = 0 ∧ u.regAt Reg.CAP_MISSED n = 0 ∧ u.mem = s.mem ∧
        ∀ k, k ∉ ([Reg.CAP_ARM, Reg.CAP_USED, Reg.CAP_RECORDS, Reg.CAP_MISSED].map fun r => unitKey r n) → u.reg k = s.reg k))) ∧
  (∀ (s : State) (c step tensor chunk flags result contrib : Nat), s.sound = true → c < 64 → s.memGood = true →
    let u := s.ledgerRecord c step tensor chunk flags result contrib
    let p := s.regAt Reg.LDG_PRODUCER c
    let cap := 2 ^ (s.regAt Reg.LDG_SIZE_LOG2 c - 5)
    ((s.regAt Reg.CTX_STATE c ≠ 1 ∨ s.regAt Reg.LDG_STATE c ≠ 1) → u = s) ∧
    (s.regAt Reg.CTX_STATE c = 1 → s.regAt Reg.LDG_STATE c = 1 →
      ((s.regAt Reg.LDG_MODE c ≠ 1 ∨ p - s.regAt Reg.LDG_CONSUMER c < cap) → 12 ≤ s.regAt Reg.LDG_SIZE_LOG2 c → s.regAt Reg.LDG_BASE c % 4096 = 0 →
          s.regAt Reg.LDG_BASE c + 32 * cap ≤ s.build.memBytes →
        let f := if (s.ctx c).ledgerGap then setBit flags 7 else flags
        u.mem = storeBytes s.mem (s.regAt Reg.LDG_BASE c + 32 * (p % cap))
          (leBytes 4 step ++ leBytes 4 tensor ++ leBytes 4 chunk ++ leBytes 4 f ++ leBytes 8 result ++ leBytes 8 contrib) ∧
        u.regAt Reg.LDG_PRODUCER c = p + 1 ∧ (u.ctx c).ledgerGap = false ∧ ∀ k, k ≠ unitKey Reg.LDG_PRODUCER c → u.reg k = s.reg k) ∧
      (s.regAt Reg.LDG_MODE c = 1 → cap ≤ p - s.regAt Reg.LDG_CONSUMER c → u.mem = s.mem ∧ u.regAt Reg.LDG_PRODUCER c = p ∧
        u.regAt Reg.LDG_DROPPED c = (s.regAt Reg.LDG_DROPPED c + 1) % 2 ^ 32 ∧ (u.ctx c).ledgerGap = true ∧
        u.regAt Reg.SRC_EVENTS Source.ledgerDrop.code = (if (s.ctx c).ledgerGap then s.regAt Reg.SRC_EVENTS Source.ledgerDrop.code
          else (s.regAt Reg.SRC_EVENTS Source.ledgerDrop.code + 1) % 2 ^ 32)))) ∧
  (∀ (s : State) (k : Coll) (chunk w : Nat) (data : List MByte), s.sound = true → k.ctx < 64 → w < 4 → s.memGood = true → k.window = some w → s.captures k w chunk = true →
    let n := 4 * k.ctx + w
    let used := s.regAt Reg.CAP_USED n
    let len := 64 + 64 * ceilDiv data.length 64
    (used + len ≤ s.regAt Reg.CAP_SIZE n → s.regAt Reg.CAP_BASE n + s.regAt Reg.CAP_SIZE n ≤ s.build.memBytes → ∃ u : State, s.capture k chunk data = (2 ^ 8, u) ∧
      u.mem = storeBytes s.mem (s.regAt Reg.CAP_BASE n + used) (leBytes 4 k.step ++ leBytes 4 k.d.tensor ++ leBytes 4 chunk ++ leBytes 4 data.length ++
        leBytes 8 (ledgerDigest k.step k.d.tensor chunk (plain data)) ++ leBytes 2 k.rank ++ leBytes 1 (k.d.inFmt + 16 * k.d.op) ++
        leBytes 1 (ofBool (anyPoison data)) ++ leBytes 1 k.alive ++ zeros 35 ++ plain data ++ zeros (64 * ceilDiv data.length 64 - data.length)) ∧
      u.regAt Reg.CAP_USED n = used + len ∧ u.regAt Reg.CAP_RECORDS n = (s.regAt Reg.CAP_RECORDS n + 1) % 2 ^ 32) ∧
    (s.regAt Reg.CAP_SIZE n < used + len → ∃ u : State, s.capture k chunk data = (2 ^ 9, u) ∧ u.mem = s.mem ∧ u.regAt Reg.CAP_USED n = used ∧
      u.regAt Reg.CAP_ARM n = s.regAt Reg.CAP_ARM n ∧ u.regAt Reg.CAP_MISSED n = (s.regAt Reg.CAP_MISSED n + 1) % 2 ^ 32 ∧
      u.regAt Reg.SRC_EVENTS Source.captureFull.code = if (s.ctx k.ctx).capMissed.contains w then s.regAt Reg.SRC_EVENTS Source.captureFull.code
        else (s.regAt Reg.SRC_EVENTS Source.captureFull.code + 1) % 2 ^ 32))

/-- The cadence counter: the follower's exchange, the parent's answer, steering and stepping, roots, and the output pulse. A follower's period counts an exchange without an answer as missed and sends the next REQ to its parent; at the eighth missed it turns to the alternate parent and its counter is not valid, or it runs free with its counter as it was. The parent answers a REQ with its time, all ones where not valid, and the REQ's CORR held. An answer of the exchange awaited gives theta = t4 - (t3 + CORR + d): with a valid counter and |theta| below 1 us only the rate moves, toward zero offset and within its range; else the counter steps to the parent's time, and three offsets within 4 ns make it valid; all ones makes it not valid; any other answer is dropped. HIER_CADENCE_SET is busy for a follower and sets a root. A pulse root measures each edge against the nearest multiple, rejecting one beyond 1 us. The output rises for 64 cycles where the counter is valid and has wrapped. -/
def Obligations.CadenceCounter : Prop :=
  ∀ s : State, s.sound = true →
    let x := s.cad
    let role := s.reg Reg.HIER_CADENCE_ROLE
    let alt := s.reg Reg.HIER_CADENCE_ALT
    let now := x.ns * 256 + x.frac / 256
    let within (u : State) (y : Cadence) (theta : Int) : Prop := u.cad = { y with rate := u.cad.rate } ∧ -128 ≤ u.cad.rate ∧ u.cad.rate ≤ 128 ∧
      (0 < theta → u.cad.rate ≤ x.rate) ∧ (theta < 0 → x.rate ≤ u.cad.rate) ∧ (theta = 0 → u.cad.rate = x.rate)
    (s.blk ≠ .off → s.blk ≠ .reset →
      (role ≠ 0 → exec .cadencePeriod s = .next s.settle) ∧
      (role = 0 → s.pkt.drain = none → let m := x.missed + ofBool x.t1.isSome
        let n := (x.exchange + 1) % 65536
        let asks (u : State) (dest : Nat) : Prop := ∃ (es : List Waiting) (w : Waiting), u.pkt.wait = s.pkt.wait ++ es ++ [w] ∧ (∀ e ∈ es, e.pkt.op = .ontan) ∧
          (m < 8 → es = []) ∧ w.pkt.op = .cadence ∧ w.pkt.ordered = true ∧ w.pkt.job = 0 ∧ w.pkt.dest = dest ∧ w.pkt.seq = 65536 + n ∧ w.pkt.payload = zeros 16
        (m < 8 → (s.cadenceParent ≠ 0xFFFF → ∃ u : State, exec .cadencePeriod s = .next u.settle ∧ u.cad = { x with missed := m, exchange := n, t1 := some now } ∧
            asks u s.cadenceParent) ∧
          (s.cadenceParent = 0xFFFF → exec .cadencePeriod s = .next (State.settle { s with cad := { x with missed := m, t1 := none } }))) ∧
        (8 ≤ m → alt ≠ 0xFFFF → x.onAlt = false → ∃ u : State, exec .cadencePeriod s = .next u.settle ∧ asks u alt ∧
          u.cad = { x with missed := 0, exchange := n, t1 := some now, onAlt := true, valid := false, good := 0, outHigh := 0 }) ∧
        (8 ≤ m → (alt = 0xFFFF ∨ x.onAlt = true) → s.cadenceParent = 0xFFFF →
          exec .cadencePeriod s = .next (State.settle { s with cad := { x with missed := 0, t1 := none, free := true } })) ∧
        (8 ≤ m → (alt = 0xFFFF ∨ x.onAlt = true) → s.cadenceParent ≠ 0xFFFF → ∃ u : State, exec .cadencePeriod s = .next u.settle ∧ asks u s.cadenceParent ∧
          u.cad = { x with missed := 0, exchange := n, t1 := some now, free := true }))) ∧
    (∀ p : Packet, (s.powered = true ∨ s.blk = .kickstand) → p.op = .cadence → s.pkt.drain = none →
      (p.seq / 65536 = 1 → ∃ w : Waiting, exec (.cadenceReqReceive p) s = .next (State.settle { s with pkt := { s.pkt with wait := s.pkt.wait ++ [w] } }) ∧ w.pkt.op = .cadence ∧
        w.pkt.ordered = true ∧ w.pkt.job = 0 ∧ w.pkt.dest = p.src ∧ w.pkt.seq = 131072 + p.seq % 65536 ∧
        w.pkt.payload = leBytes 8 (if x.valid then x.ns else 2 ^ 64 - 1) ++ zeros 4 ++ leBytes 4 (le 8 4 p.payload)) ∧
      (p.seq / 65536 = 2 →
        ((role ≠ 0 ∨ x.t1 = none ∨ p.seq % 65536 ≠ x.exchange) → exec (.cadenceRspReceive p) s = .next s.settle) ∧
        (∀ t1, role = 0 → x.t1 = some t1 → p.seq % 65536 = x.exchange →
          let t3 := le 0 8 p.payload
          let corr := le 8 4 p.payload
          let d : Int := (now - t1 - le 12 4 p.payload - corr) / 2
          let theta : Int := now - (t3 * 256 + corr + d)
          let y : Cadence := { x with t1 := none, missed := 0, free := false }
          let good := if theta.natAbs ≤ 1024 then x.good + 1 else 0
          (t3 = 2 ^ 64 - 1 → ∃ u : State, exec (.cadenceRspReceive p) s = .next u.settle ∧ u.cad = { y with valid := false, good := 0, outHigh := 0 }) ∧
          (t3 ≠ 2 ^ 64 - 1 → (-(2 ^ 31 : Int)) ≤ theta → theta < 2 ^ 31 →
            (x.valid = true → theta.natAbs < 256000 → -128 ≤ x.rate → x.rate ≤ 128 → ∃ u : State, exec (.cadenceRspReceive p) s = .next u.settle ∧ within u y theta ∧
              signed 32 (u.reg Reg.HIER_CADENCE_OFFSET) = theta ∧ u.reg Reg.HIER_CADENCE_STEPS = s.reg Reg.HIER_CADENCE_STEPS) ∧
            ((x.valid = false ∨ 256000 ≤ theta.natAbs) → ∃ u : State, exec (.cadenceRspReceive p) s = .next u.settle ∧
              u.cad = { y with ns := u.cad.ns, frac := u.cad.frac, valid := decide (3 ≤ good), good := good, outHigh := 0 } ∧
              (u.cad.ns * 65536 + u.cad.frac : Int) = (x.ns * 65536 + x.frac - theta * 256) % (2 ^ 80) ∧ u.cad.frac < 65536 ∧
              signed 32 (u.reg Reg.HIER_CADENCE_OFFSET) = theta ∧ u.reg Reg.HIER_CADENCE_STEPS = (s.reg Reg.HIER_CADENCE_STEPS + 1) % 2 ^ 32 ∧
              u.regAt Reg.SRC_EVENTS Source.cadenceLost.code = (if x.valid then (s.regAt Reg.SRC_EVENTS Source.cadenceLost.code + 1) % 2 ^ 32
                else s.regAt Reg.SRC_EVENTS Source.cadenceLost.code)))))) ∧
    (∀ (via : Via) (v : Nat), s.admits via Reg.HIER_CADENCE_SET 0 v = true → v < 2 ^ 64 →
      (role = 0 → exec (.hierCadenceSet via v) s = .next (State.settle (s.answered .busy))) ∧
      (role ≠ 0 → exec (.hierCadenceSet via v) s = .next (State.settle (State.answered
        { s with cad := { x with ns := v, frac := 0, rate := 0, good := 0, valid := decide (role = 1), set := true } } .ok)))) ∧
    ((role ≠ 2 ∨ x.set = false) → exec .trfCadenceInEdge s = .next s.settle) ∧
    (role = 2 → x.set = true → ∀ (theta : Int) (m : Nat), now = m * 2 ^ 28 + theta → -(2 ^ 27 : Int) ≤ theta → theta < 2 ^ 27 →
      (256000 < theta.natAbs → exec .trfCadenceInEdge s = .next (State.settle (s.bump Reg.HIER_PULSE_REJECTED))) ∧
      (theta.natAbs ≤ 256000 → -128 ≤ x.rate → x.rate ≤ 128 → let good := if theta.natAbs ≤ 1024 then x.good + 1 else 0
        ∃ u : State, exec .trfCadenceInEdge s = .next u.settle ∧ within u { x with good := good, valid := x.valid || decide (3 ≤ good) } theta ∧
          signed 32 (u.reg Reg.HIER_CADENCE_OFFSET) = theta)) ∧
    (x.valid = true → x.ns % 1048576 < 7 → exec .cadenceOutPulse s = .next (State.settle { s with cad := { x with outHigh := 64 } })) ∧
    ((x.valid = false ∨ 7 ≤ x.ns % 1048576) → exec .cadenceOutPulse s = .next s.settle)

/-- A barrier at a block: arrivals gathered and passed up, released or aborted downward, repeated, timed out; other epochs discarded. ARRIVE from a child for the next barrier is taken once. When the block has arrived and every child with it, in one kind, it sends ARRIVE to its parent; the root releases: RELEASE to each child, a step barrier sets JOB_STEP, one more modulo 2^32, BAR_COUNT advances, BAR_STATE is Idle and BAR_OUT_SEM is signalled by 1. Kinds that differ, or another number, abort: ABORT to each child, and a block that has arrived is Failed, signals nothing and raises BARRIER_FAILED. ARRIVE for a released barrier gets RELEASE again. RELEASE and ABORT count once, by number. A child repeats its ARRIVE. Past BAR_TIMEOUT the barrier fails. A packet of another manager epoch is discarded, and a later one makes a manager a Worker and raises MANAGER_DEMOTED. -/
def Obligations.Barriers : Prop :=
  ∀ (s : State) (c : Nat), s.sound = true → c < 64 → s.pkt.drain = none →
    let x := s.ctx c
    let tree := s.tree c
    let count := s.regAt Reg.BAR_COUNT c
    let next := (count + 1) % 2 ^ 32
    let step := s.regAt Reg.JOB_STEP c
    let bst := s.regAt Reg.BAR_STATE c
    let bar (w : Waiting) (dest phase number newStep : Nat) (kind : Bool) : Prop := w.pkt.op = .barrier ∧ w.pkt.dest = dest ∧ w.pkt.job = s.jobOf c ∧
      w.pkt.payload = leBytes 1 phase ++ leBytes 1 (ofBool kind) ++ leBytes 1 (s.regAt Reg.JOB_MGR_EPOCH c) ++ [0] ++ leBytes 4 number ++ leBytes 4 newStep ++ zeros 4
    let toKids (u : State) (phase newStep : Nat) (kind : Bool) : Prop := ∃ ws es : List Waiting, u.pkt.wait = s.pkt.wait ++ ws ++ es ∧ (∀ e ∈ es, e.pkt.op = .ontan) ∧
      ws.length = tree.children.length ∧ ∀ (i d : Nat), tree.children[i]? = some d → ∃ w, ws[i]? = some w ∧ bar w d phase next newStep kind
    let failed (u : State) : Prop := toKids u 3 0 false ∧ u.regAt Reg.BAR_STATE c = 2 ∧ u.regAt Reg.BAR_COUNT c = count ∧ u.regAt Reg.JOB_STEP c = step ∧ u.sems = s.sems ∧
      (u.ctx c).arrived = none ∧ (u.ctx c).arrivals = [] ∧ u.mem = s.mem ∧
      u.regAt Reg.SRC_EVENTS Source.barrierFailed.code = (s.regAt Reg.SRC_EVENTS Source.barrierFailed.code + 1) % 2 ^ 32
    let released (u : State) (kind : Bool) (newStep : Nat) : Prop := toKids u 2 newStep kind ∧ u.regAt Reg.BAR_COUNT c = next ∧ u.regAt Reg.JOB_STEP c = (if kind then newStep else step) ∧
      ((kind = false ∨ s.regAt Reg.LDG_STATE c ≠ 1) → u.mem = s.mem) ∧
      (let out := s.regAt Reg.BAR_OUT_SEM c
       State.calm (s.setRegAt Reg.BAR_STATE c 0) [out] = true → (s.sem out).toNat < 0xFFFFFFFF → u.regAt Reg.BAR_STATE c = 0 ∧ (u.ctx c).arrived = none ∧
        (u.ctx c).arrivals = [] ∧ u.sems = Table.put s.sems 0 out (BitVec.ofNat 32 ((s.sem out).toNat + 1)))
    (∀ p : Packet, s.powered = true → p.op = .barrier →
      let phase := le 0 1 p.payload
      let kind := bit (le 1 1 p.payload) 0
      let epoch := le 2 1 p.payload
      let number := le 4 4 p.payload
      let own := s.regAt Reg.JOB_MGR_EPOCH c
      let unmoved (ok : State → Prop) : Prop := ∀ i : Instr, ((i = .arriveReceive p ∧ phase = 1) ∨ (i = .releaseReceive p ∧ phase = 2) ∨ (i = .barrierAbortReceive p ∧ phase = 3) ∨
        (i = .keepaliveReceive p ∧ phase = 4)) → ∃ u : State, exec i s = .next u.settle ∧ ok u
      (s.ctxOfJob? p.job = none → unmoved fun u => u = s) ∧
      (s.ctxOfJob? p.job = some c → own < 256 →
        (epoch ≠ own → (s.regAt Reg.JOB_ROLE c ≠ 1 ∨ 127 < (epoch + 256 - own) % 256) → unmoved fun u => u = s) ∧
        (epoch ≠ own → s.regAt Reg.JOB_ROLE c = 1 → (epoch + 256 - own) % 256 ≤ 127 → unmoved fun u => u.regAt Reg.JOB_ROLE c = 0 ∧ u.ctxs = s.ctxs ∧
          u.regAt Reg.BAR_STATE c = bst ∧ u.regAt Reg.BAR_COUNT c = count ∧ u.mem = s.mem ∧
          u.regAt Reg.SRC_EVENTS Source.managerDemoted.code = (s.regAt Reg.SRC_EVENTS Source.managerDemoted.code + 1) % 2 ^ 32) ∧
        (epoch = own →
          (phase = 1 → tree.children.contains p.src = false → exec (.arriveReceive p) s = .next s.settle) ∧
          (phase = 1 → tree.children.contains p.src = true → number = next →
            let arr := if x.arrivals.any (fun a => a.1 == p.src) then x.arrivals else x.arrivals ++ [(p.src, kind)]
            let all : Prop := ∀ d ∈ tree.children, arr.any (fun a => a.1 == d) = true
            ((x.arrived = none ∨ x.sentUp = true ∨ bst ≠ 1) → exec (.arriveReceive p) s = .next (State.settle (s.onCtx c fun y => { y with arrivals := arr }))) ∧
            (∀ mine, x.arrived = some mine → bst = 1 → x.sentUp = false →
              ((∃ a ∈ arr, a.2 ≠ mine) → ∃ u : State, exec (.arriveReceive p) s = .next u.settle ∧ failed u) ∧
              ((∀ a ∈ arr, a.2 = mine) →
                (¬all → exec (.arriveReceive p) s = .next (State.settle (s.onCtx c fun y => { y with arrivals := arr }))) ∧
                (all → tree.parent ≠ 0xFFFF → ∃ (u : State) (w : Waiting), exec (.arriveReceive p) s = .next u.settle ∧ u.pkt.wait = s.pkt.wait ++ [w] ∧
                  bar w tree.parent 1 next 0 mine ∧ u.ctx c = { x with arrivals := arr, sentUp := true } ∧ u.dict = s.dict ∧ u.mem = s.mem) ∧
                (all → tree.parent = 0xFFFF → ∃ u : State, exec (.arriveReceive p) s = .next u.settle ∧ released u mine (if mine then (step + 1) % 2 ^ 32 else 0))))) ∧
          (phase = 1 → tree.children.contains p.src = true → number ≠ next →
            ((count + 2 ^ 32 - number) % 2 ^ 32 < 2 ^ 31 → ∃ w : Waiting, exec (.arriveReceive p) s = .next (State.settle { s with pkt := { s.pkt with wait := s.pkt.wait ++ [w] } }) ∧
              bar w p.src 2 number (if kind then step else 0) kind) ∧
            (2 ^ 31 ≤ (count + 2 ^ 32 - number) % 2 ^ 32 →
              (bst = 1 → ∃ u : State, exec (.arriveReceive p) s = .next u.settle ∧ failed u) ∧
              (bst ≠ 1 → ∃ u : State, exec (.arriveReceive p) s = .next u.settle ∧ toKids u 3 0 false ∧ u.ctx c = { x with arrivals := [] } ∧ u.dict = s.dict))) ∧
          (phase = 2 → number = next → bst = 1 → ∃ u : State, exec (.releaseReceive p) s = .next u.settle ∧ released u kind (le 8 4 p.payload)) ∧
          (phase = 2 → (number ≠ next ∨ bst ≠ 1) → exec (.releaseReceive p) s = .next s.settle) ∧
          (phase = 3 → number = next → bst ≠ 2 → ∃ u : State, exec (.barrierAbortReceive p) s = .next u.settle ∧ failed u) ∧
          (phase = 3 → (number ≠ next ∨ bst = 2) → exec (.barrierAbortReceive p) s = .next s.settle)))) ∧
    (∀ kind, x.arrived = some kind → x.sentUp = true → bst = 1 → ∃ w : Waiting,
      exec (.arriveRepeat c) s = .next (State.settle { s with pkt := { s.pkt with wait := s.pkt.wait ++ [w] } }) ∧ bar w tree.parent 1 next 0 kind) ∧
    ((x.arrived = none ∨ x.sentUp = false ∨ bst ≠ 1) → exec (.arriveRepeat c) s = .next s.settle) ∧
    (bst = 1 → ∃ u : State, exec (.barTimeout c) s = .next u.settle ∧ failed u) ∧
    (bst ≠ 1 → exec (.barTimeout c) s = .next s.settle)

/-- The standby manager: KEEPALIVE, the takeover at the standby and at a member. A manager whose alternate tree names a parent sends that chip KEEPALIVE; no other block does. The standby notes the time of a KEEPALIVE of its epoch; no other block does anything. When its timeout passes, the standby becomes Manager, its epoch is one more modulo 256, it uses the alternate tree and its own chip as manager's, tells each child of that tree TAKEOVER, and raises MANAGER_TAKEOVER; a block that is not a bound standby does nothing. A member that gets TAKEOVER of a later epoch takes that epoch and the sender's chip, uses the alternate tree, passes the packet on to each child there, a manager becoming Worker; where it has arrived at a barrier and has no child there, it sends ARRIVE again, with the same number, to its parent there. Another epoch changes nothing. -/
def Obligations.StandbyManager : Prop :=
  ∀ (s : State) (c : Nat), s.sound = true → c < 64 → s.pkt.drain = none →
    let x := s.ctx c
    let alt := s.altTree c
    let own := s.regAt Reg.JOB_MGR_EPOCH c
    let next := (s.regAt Reg.BAR_COUNT c + 1) % 2 ^ 32
    let role := s.regAt Reg.JOB_ROLE c
    let bound := s.regAt Reg.CTX_ROUTE_STATE c
    let body (phase epoch : Nat) (kind : Bool) : List Byte := leBytes 1 phase ++ leBytes 1 (ofBool kind) ++ leBytes 1 epoch ++ [0] ++ leBytes 4 next ++ zeros 8
    let bar (w : Waiting) (dest : Nat) (payload : List Byte) : Prop := w.pkt.op = .barrier ∧ w.pkt.dest = dest ∧ w.pkt.job = s.jobOf c ∧ w.pkt.payload = payload
    let events (ws : List Waiting) : Prop := ∀ e ∈ ws, e.pkt.op = .ontan
    let moved (u : State) (chip epoch : Nat) : Prop := (u.ctx c).alt = true ∧ u.regAt Reg.JOB_MGR_CHIP c = chip ∧ u.regAt Reg.JOB_MGR_EPOCH c = epoch ∧
      u.regAt Reg.BAR_COUNT c = s.regAt Reg.BAR_COUNT c ∧ u.regAt Reg.BAR_STATE c = s.regAt Reg.BAR_STATE c ∧ u.sems = s.sems ∧ u.mem = s.mem
    (role = 1 → bound = 1 → alt.parent ≠ 0xFFFF → ∃ w : Waiting, exec (.keepalivePeriod c) s = .next (State.settle { s with pkt := { s.pkt with wait := s.pkt.wait ++ [w] } }) ∧
      bar w alt.parent (body 4 own false)) ∧
    ((role ≠ 1 ∨ bound ≠ 1 ∨ alt.parent = 0xFFFF) → exec (.keepalivePeriod c) s = .next s.settle) ∧
    ((role ≠ 2 ∨ bound ≠ 1) → exec (.takeoverTimeout c) s = .next s.settle) ∧
    (role = 2 → bound = 1 → x.arrived = none → ∃ (u : State) (ws es : List Waiting), exec (.takeoverTimeout c) s = .next u.settle ∧ moved u s.ownChip ((own + 1) % 256) ∧
      u.regAt Reg.JOB_ROLE c = 1 ∧ u.regAt Reg.SRC_EVENTS Source.managerTakeover.code = (s.regAt Reg.SRC_EVENTS Source.managerTakeover.code + 1) % 2 ^ 32 ∧
      u.pkt.wait = s.pkt.wait ++ ws ++ es ∧ events es ∧ ws.length = alt.children.length ∧
      ∀ (i d : Nat), alt.children[i]? = some d → ∃ w, ws[i]? = some w ∧ bar w d (body 5 ((own + 1) % 256) false)) ∧
    (∀ p : Packet, s.powered = true → p.op = .barrier → s.ctxOfJob? p.job = some c →
      let epoch := le 2 1 p.payload
      let gap := (epoch + 256 - own) % 256
      (le 0 1 p.payload = 4 → epoch = own → (role = 2 → exec (.keepaliveReceive p) s = .next (State.settle (s.onCtx c fun y => { y with keepAt := s.tclk }))) ∧
        (role ≠ 2 → exec (.keepaliveReceive p) s = .next s.settle)) ∧
      (le 0 1 p.payload = 5 → own < 256 →
        ((gap = 0 ∨ 127 < gap) → exec (.takeoverReceive p) s = .next s.settle) ∧
        (0 < gap → gap ≤ 127 →
          (x.arrived = none → ∃ (u : State) (es ws : List Waiting), exec (.takeoverReceive p) s = .next u.settle ∧ moved u p.src epoch ∧
            u.regAt Reg.JOB_ROLE c = (if role = 1 then 0 else role) ∧ u.pkt.wait = s.pkt.wait ++ es ++ ws ∧ events es ∧ (role ≠ 1 → es = []) ∧
            ws.length = alt.children.length ∧ ∀ (i d : Nat), alt.children[i]? = some d → ∃ w, ws[i]? = some w ∧ w.pkt.op = .barrier ∧ w.pkt.dest = d ∧ w.pkt.payload = p.payload) ∧
          (∀ kind, x.arrived = some kind → s.regAt Reg.BAR_STATE c = 1 → alt.children = [] → alt.parent ≠ 0xFFFF → ∃ (u : State) (es : List Waiting) (w : Waiting),
            exec (.takeoverReceive p) s = .next u.settle ∧ moved u p.src epoch ∧ u.pkt.wait = s.pkt.wait ++ es ++ [w] ∧ events es ∧ bar w alt.parent (body 1 epoch kind) ∧
            (u.ctx c).sentUp = true))))

/-- Scheduled broadcasts: ordered at the manager, passed on twice, acted on at their time or late, once each. JOB_SNAPSHOT and JOB_RESET are busy but at a bound manager with a valid counter, and out of range for a time less than 2 us ahead; else time 0 means the counter plus HIER_BCAST_LEAD, the broadcast takes the next sequence number and goes to each child of the tree. A block takes a broadcast of its epoch once, passes it to each child, and where the time has come or its counter is not valid acts at once, marks it late, counts it and raises BCAST_LATE. A RESET_BCAST of another kind is counted as refused. The second copies leave once. At its time a snapshot is written to slot sequence mod JOB_SNAP_SLOTS, or counted where there are no slots, and a reset begins a context reset of cause 6; before its time, or done, nothing happens. -/
def Obligations.Broadcasts : Prop :=
  ∀ (s : State) (c : Nat), s.sound = true → c < 64 → s.pkt.drain = none →
    let x := s.ctx c
    let tree := s.tree c
    let ns := s.cad.ns
    let lead := s.reg Reg.HIER_BCAST_LEAD
    let slots := s.regAt Reg.JOB_SNAP_SLOTS c
    let passed (u : State) (l : List Packet) : Prop := ∃ ws es : List Waiting, u.pkt.wait = s.pkt.wait ++ ws ++ es ∧ (∀ e ∈ es, e.pkt.op = .ontan) ∧
      ws.length = l.length * tree.children.length ∧ ∀ (j i d : Nat) (p : Packet), l[j]? = some p → tree.children[i]? = some d →
        ∃ w, ws[j * tree.children.length + i]? = some w ∧ w.pkt.op = p.op ∧ w.pkt.dest = d ∧ w.pkt.src = s.ownChip ∧ w.pkt.job = p.job ∧ w.pkt.payload = p.payload
    let done (u : State) (b : Bcast) : Prop := (b.reset = false → slots = 0 → u.mem = s.mem ∧ u.reg Reg.HIER_SNAP_UNRECORDED = (s.reg Reg.HIER_SNAP_UNRECORDED + 1) % 2 ^ 32) ∧
      (b.reset = false → 0 < slots → s.memGood = true → s.regAt Reg.JOB_SNAP_BASE c + 8192 * slots ≤ s.build.memBytes →
        u.mem = storeBytes s.mem (s.regAt Reg.JOB_SNAP_BASE c + 8192 * (b.seq % slots)) (s.snapRecord c b)) ∧
      (b.reset = true → s.regAt Reg.CTX_STATE c = 1 → u.regAt Reg.CTX_STATE c = 3 ∧ u.regAt Reg.RST_CTX_CAUSE c = 6 ∧
        u.flt.ctxResets = s.flt.ctxResets ++ [{ ctx := c, cause := 6, core := 0 }])
    let entered (u : State) (b : Bcast) (p : Packet) : Prop := (u.ctx c).bcasts = x.bcasts ++ [{ b with again := true, pkt := p }]
    (∀ (via : Via) (r : Bool) (time : Nat) (i : Instr), i = (if r then .jobReset via c time else .jobSnapshot via c time) →
        s.admits via (if r then Reg.JOB_RESET else Reg.JOB_SNAPSHOT) c time = true →
      let t := if time = 0 then ns + lead else time
      let busy : Prop := s.regAt Reg.JOB_ROLE c ≠ 1 ∨ s.cad.valid = false ∨ s.regAt Reg.CTX_ROUTE_STATE c ≠ 1
      (busy → exec i s = .next (State.settle (s.answered .busy))) ∧
      (¬busy → time ≠ 0 → time < ns + 2000 → exec i s = .next (State.settle (s.answered .outOfRange))) ∧
      (¬busy → ns < t → (time = 0 ∨ ns + 2000 ≤ time) → ∃ (u : State) (p : Packet), exec i s = .next (State.settle (u.answered .ok)) ∧ passed u [p] ∧
        entered u { reset := r, time := t, seq := x.nextBcast, late := false, again := true, acted := false, pkt := p } p ∧ (u.ctx c).nextBcast = (x.nextBcast + 1) % 2 ^ 32 ∧
        p.op = (if r then .resetBcast else .snapshot) ∧ p.ordered = true ∧ p.job = s.jobOf c ∧ u.mem = s.mem ∧ u.dict = s.dict ∧
        p.payload = leBytes 8 t ++ leBytes 2 (s.jobOf c) ++ leBytes 1 (ofBool r) ++ leBytes 1 (s.regAt Reg.JOB_MGR_EPOCH c) ++ leBytes 4 x.nextBcast)) ∧
    (∀ (r : Bool) (p : Packet) (i : Instr), s.powered = true → i = (if r then .resetBcastReceive p else .snapshotReceive p) → p.op = (if r then .resetBcast else .snapshot) →
      let t := le 0 8 p.payload
      let epoch := le 11 1 p.payload
      let seq := le 12 4 p.payload
      let b : Bcast := { reset := r, time := t, seq := seq, late := false, again := true, acted := false, pkt := p }
      (s.ctxOfJob? p.job = none → exec i s = .next s.settle) ∧
      (s.ctxOfJob? p.job = some c →
        (epoch ≠ s.regAt Reg.JOB_MGR_EPOCH c → s.regAt Reg.JOB_ROLE c ≠ 1 → exec i s = .next s.settle) ∧
        (epoch = s.regAt Reg.JOB_MGR_EPOCH c →
          (r = true → le 10 1 p.payload ≠ 1 → exec i s = .next (State.settle (s.bump Reg.HIER_BCAST_REFUSED))) ∧
          ((r = false ∨ le 10 1 p.payload = 1) →
            ((∃ y ∈ x.bcasts, y.seq = seq ∧ le 11 1 y.pkt.payload = epoch) → exec i s = .next s.settle) ∧
            ((∀ y ∈ x.bcasts, ¬(y.seq = seq ∧ le 11 1 y.pkt.payload = epoch)) →
              (s.cad.valid = true → ns < t → ∃ u : State, exec i s = .next u.settle ∧ entered u b p ∧ passed u [p] ∧ u.mem = s.mem ∧ u.dict = s.dict) ∧
              ((s.cad.valid = false ∨ t ≤ ns) → ∃ u : State, exec i s = .next u.settle ∧ done u { b with late := true } ∧
                (r = false → entered u { b with late := true, acted := true } p ∧ passed u [p]) ∧
                u.reg Reg.HIER_LATE_BCAST = (s.reg Reg.HIER_LATE_BCAST + 1) % 2 ^ 32 ∧
                u.regAt Reg.SRC_EVENTS Source.bcastLate.code = (s.regAt Reg.SRC_EVENTS Source.bcastLate.code + 1) % 2 ^ 32)))))) ∧
    (∃ u : State, exec (.bcastSecondCopy c) s = .next u.settle ∧ passed u ((x.bcasts.filter (·.again)).map (·.pkt)) ∧
      (u.ctx c).bcasts = x.bcasts.map (fun b => { b with again := false }) ∧ u.dict = s.dict ∧ u.mem = s.mem) ∧
    (∀ seq, (∀ b ∈ x.bcasts, b.seq ≠ seq ∨ b.acted = true) → exec (.bcastActivate c seq) s = .next s.settle) ∧
    (∀ b : Bcast, x.bcasts = [b] → b.acted = false → b.late = false →
      ((s.cad.valid = false ∨ ns < b.time) → exec (.bcastActivate c b.seq) s = .next s.settle) ∧
      (s.cad.valid = true → b.time ≤ ns → ∃ u : State, exec (.bcastActivate c b.seq) s = .next u.settle ∧ done u b ∧
        (u.ctx c).bcasts = [{ b with acted := true }] ∧ u.reg Reg.HIER_LATE_BCAST = s.reg Reg.HIER_LATE_BCAST)) ∧
    (∀ b : Bcast, let r := s.snapRecord c b
      r.length = 8192 ∧ r.take 48 = leBytes 8 b.time ++ leBytes 8 ns ++ leBytes 2 (s.jobOf c) ++ leBytes 1 (ofBool b.late) ++ leBytes 1 (s.regAt Reg.JOB_MGR_EPOCH c) ++
        leBytes 4 (s.regAt Reg.JOB_STEP c) ++ leBytes 4 (s.regAt Reg.BAR_COUNT c) ++ leBytes 1 (s.reg Reg.DIR_PRIORITY0) ++ leBytes 1 (s.reg Reg.DIR_PRIORITY1) ++
        leBytes 1 (s.reg Reg.DIR_PRIORITY2) ++ leBytes 1 (s.reg Reg.DIR_PRIORITY3) ++ leBytes 1 (s.reg Reg.DIR_PRIORITY4) ++ leBytes 1 (s.reg Reg.DIR_PRIORITY5) ++
        leBytes 1 (s.reg Reg.DIR_PRIORITY6) ++ leBytes 1 (s.reg Reg.DIR_PRIORITY7) ++ leBytes 1 (Table.get s.pkt.ptr 0 c) ++ leBytes 1 s.disp.ptr ++ leBytes 1 (s.genOf c) ++ [0] ++
        leBytes 4 b.seq ++ leBytes 2 (s.reg Reg.HIER_RACK) ++ leBytes 1 (s.reg Reg.HIER_SLOT) ++ [0] ∧
      (∀ g, g < 4096 → r[64 + g]? = some (BitVec.ofNat 8 (Table.get x.alives 0 g))) ∧ ∀ i, i < 16 → r[48 + i]? = some 0)

/-- FLT_STICKY: what its two slots hold, what fills them, what clears them, and that BLK_RST_N keeps them. In every sound state FLT_STICKY, entry 0x6000:0D, is read as 64 bytes: a slot that holds no record reads as 32 zero bytes, one that holds a record reads as that record's bytes. An event raised at Severe or Grave fills an empty first slot with its record and leaves a full one alone; an event at Notice or Correctable changes neither slot. An event at Grave puts its record in the second slot: where it is not PCYC_REQUESTED itself, PCYC_REQUESTED follows at once with the source's code as detail, and is the latest Grave event (it is Grave by default, and no class falls but by a clear, which a Grave source withstands). Any lower event leaves the second slot alone. POR_N empties both, FLT_STICKY_CLEAR the first only, BLK_RST_N neither. -/
def Obligations.StickyRecord : Prop :=
  ∀ s : State, s.sound = true →
    let v (t : State) : List Byte := t.readBytes Reg.FLT_STICKY 0
    (v s).length = 64 ∧ (s.flt.stickyFirst = none → (v s).take 32 = zeros 32) ∧ (s.flt.stickyGrave = none → (v s).drop 32 = zeros 32) ∧
    (∀ r, s.flt.stickyFirst = some r → (v s).take 32 = r.bytes) ∧ (∀ r, s.flt.stickyGrave = some r → (v s).drop 32 = r.bytes) ∧
    (∃ e, s.entry? (256 * 0x6000 + 0x0D) = some (e, 0) ∧ e.access = .ro ∧ ∀ c, s.readEntry c e 0 = ((.ok, v s), s)) ∧
    (∃ t, exec .porNAssert s = .next t ∧ v t = zeros 64) ∧
    (∃ t, exec .blkRstNAssert s = .next t ∧ v t = v s) ∧
    (∀ via, s.admits via Reg.FLT_STICKY_CLEAR 0 0 = true → ∃ u : State, exec (.fltStickyClear via) s = .next u.settle ∧ v u = zeros 32 ++ (v s).drop 32 ∧
      u.flt.queue = s.flt.queue ∧ u.dict = s.dict) ∧
    (∀ (x : Source) (unit : UnitName) (ctx detail : Nat),
      let cls := s.srcClass x
      let n := Table.get s.flt.windows 0 x.code + 1
      let limit := s.regAt Reg.SRC_PROMOTE_N x.code
      let up : Bool := decide (limit ≠ 0 ∧ limit ≤ n ∧ cls ≠ .grave)
      let now := FaultClass.ofCode (cls.code + ofBool up)
      let u := s.raise x unit ctx detail
      let own (r : EventRec) : Prop := r.code = x.code ∧ r.cls = now ∧ r.unit = unit.word ∧ r.ctx = ctx ∧ r.detail = detail % 2 ^ 64 ∧ r.window = min n 65535 ∧
        r.promoted = up ∧ r.cadence = s.stamp ∧ r.seq = s.flt.seq
      ((now = .notice ∨ now = .correctable) → v u = v s) ∧
      ((now = .severe ∨ now = .grave) → s.flt.stickyFirst.isSome = true → (v u).take 32 = (v s).take 32) ∧
      ((now = .severe ∨ now = .grave) → s.flt.stickyFirst = none → ∃ r, own r ∧ (v u).take 32 = r.bytes) ∧
      (now = .severe → (v u).drop 32 = (v s).drop 32) ∧
      (now = .grave → x = .pcycRequested → ∃ r, own r ∧ (v u).drop 32 = r.bytes) ∧
      (now = .grave → x ≠ .pcycRequested → s.srcClass .pcycRequested = .grave → ∃ r : EventRec, r.code = 0x63 ∧ r.cls = .grave ∧ r.unit = 0xF000 ∧ r.ctx = 0xFF ∧
        r.detail = x.code ∧ r.seq = (s.flt.seq + 1) % 2 ^ 32 ∧ (v u).drop 32 = r.bytes))

/-- A fault raised, its promotion window, its escalation and its clearing; the hang examination. An event below Grave counts, takes its class after promotion, is queued last where its class is high enough and the queue has room, uncleared where Severe, and starts its timer where the source has an action and none runs. The window's end closes it. A timer's end takes the action: none, a context, engine, partition or block reset, Kickstand, or the ladder, at rung 1 or one above the rung just completed; a rung above FLT_LADDER_MAX is LADDER_STOPPED and Quarantine instead. SRC_CLEAR is busy for a Grave source, else the class, timers and window return to their defaults; FLT_CLEAR_ALL does so for each source that is not Grave. FLT_EVT_POP drops the oldest record. The examination raises HANG_ENGINE for each engine that has held work for HANG_WINDOW without progress, HANG_CONTEXT for each such context whose engine was not found. -/
def Obligations.FaultEvents : Prop :=
  ∀ s : State, s.sound = true →
    let max := s.reg Reg.FLT_LADDER_MAX
    (∀ (x : Source) (unit : UnitName) (ctx detail : Nat),
      let cls := s.srcClass x
      let n := Table.get s.flt.windows 0 x.code + 1
      let limit := s.regAt Reg.SRC_PROMOTE_N x.code
      let up : Bool := decide (limit ≠ 0 ∧ limit ≤ n ∧ cls ≠ .grave)
      let now := FaultClass.ofCode (cls.code + ofBool up)
      let u := s.raise x unit ctx detail
      now ≠ .grave → ∃ r : EventRec, r.code = x.code ∧ r.cls = now ∧ r.unit = unit.word ∧ r.ctx = ctx ∧ r.detail = detail % 2 ^ 64 ∧ r.window = min n 65535 ∧ r.promoted = up ∧
        r.seq = s.flt.seq ∧ r.lost = s.flt.lostPending ∧ u.flt.seq = (s.flt.seq + 1) % 2 ^ 32 ∧ u.regAt Reg.SRC_EVENTS x.code = (s.regAt Reg.SRC_EVENTS x.code + 1) % 2 ^ 32 ∧
        u.regAt Reg.SRC_CLASS x.code = now.code ∧ u.regAt Reg.SRC_UNCLEARED x.code = (if now = .severe then 1 else s.regAt Reg.SRC_UNCLEARED x.code) ∧
        (s.reg Reg.FLT_EVENT_MIN_CLASS ≤ now.code → s.flt.queue.length < 256 → u.flt.queue = s.flt.queue ++ [r]) ∧
        (now.code < s.reg Reg.FLT_EVENT_MIN_CLASS → u.flt.queue = s.flt.queue) ∧
        (let t : EscTimer := { src := x, unit := unit, ctx := ctx, time := s.tclk, seq := s.flt.seq }
         let runs : Prop := ∃ y ∈ s.flt.timers, y.src = x ∧ y.unit = unit
         (now = .severe → s.regAt Reg.SRC_ACTION x.code ≠ 0 → ¬runs → s.flt.timers.length < 128 → u.flt.timers = s.flt.timers ++ [t]) ∧
         (now = .severe → s.regAt Reg.SRC_ACTION x.code ≠ 0 → ¬runs → s.flt.timers.length = 128 → u.flt.timers = s.flt.timers ∧ u.flt.due = s.flt.due ++ [t]) ∧
         ((now ≠ .severe ∨ s.regAt Reg.SRC_ACTION x.code = 0 ∨ runs) → u.flt.timers = s.flt.timers))) ∧
    (∀ x, exec (.promoteWindowExpire x) s = .next (State.settle (s.onFlt fun f => { f with windows := Table.erase f.windows x.code }))) ∧
    (∀ (x : Source) (un : UnitName), (∀ t ∈ s.flt.timers, t.src ≠ x ∨ t.unit ≠ un) → exec (.escalationTimeout x un) s = .next s.settle) ∧
    (∀ t : EscTimer, s.flt.timers = [t] →
      let a := s.regAt Reg.SRC_ACTION t.src.code
      let takes (ok : State → Prop) : Prop := ∃ u : State, exec (.escalationTimeout t.src t.unit) s = .next u.settle ∧ ok u
      let resets (c cause : Nat) (u : State) : Prop := u.regAt Reg.CTX_STATE c = 3 ∧ u.regAt Reg.RST_CTX_CAUSE c = cause ∧ ∃ n, u.flt.ctxResets = s.flt.ctxResets ++ [{ ctx := c, cause := cause, core := n }]
      let unitOf (w : UnitName) (u : State) : Prop := ∃ r ∈ u.flt.unitResets, r.unit = w
      (a = 0 → takes fun u => u = s.onFlt fun f => { f with timers := [] }) ∧
      (s.blk ≠ .kickstand →
        (∀ c, t.unit = .context c → c < 64 → s.regAt Reg.CTX_STATE c = 1 → 1 ≤ max →
          (a = 1 → takes (resets c 3)) ∧ (a = 6 → s.flt.rungs = [] → s.flt.probation = none → t.ctx = c → takes (resets c 2))) ∧
        (∀ n e, t.unit = .engine n e → e ≠ .reduction → s.unitCovered t.unit = false →
          (a = 2 → 2 ≤ max → takes (unitOf t.unit)) ∧
          (∀ time, a = 6 → s.flt.rungs = [{ unit := t.unit, rung := .engine, time := time }] → time ≤ t.time → (t.time - time) * 32 / 5 ≤ s.reg Reg.HANG_RECUR →
            s.flt.probation = none → s.unitCovered (.partition (s.partOfCore n)) = false → 3 ≤ max → takes (unitOf (.partition (s.partOfCore n))))) ∧
        (∀ p, a = 3 → s.partOfUnit t.unit = some p → s.unitCovered (.partition p) = false → 3 ≤ max → takes (unitOf (.partition p))) ∧
        (a = 4 → 4 ≤ max → takes fun u => u.blk = .reset ∧ u.rst.rung4 = true)) ∧
      (a = 4 → max < 4 → takes fun u => u.regAt Reg.SRC_EVENTS Source.ladderStopped.code = (s.regAt Reg.SRC_EVENTS Source.ladderStopped.code + 1) % 2 ^ 32 ∧
        u.blk = if s.blk = .ready ∨ s.blk = .run ∨ s.blk = .drain then .quarantine else s.blk) ∧
      (a = 5 → s.blk ≠ .off → takes fun u => u.blk = .kickstand)) ∧
    (∀ (via : Via) (x : Source), s.admits via Reg.SRC_CLEAR x.code 0 = true →
      (s.srcClass x = .grave → exec (.srcClear via x.code) s = .next (State.settle (s.answered .busy))) ∧
      (s.srcClass x ≠ .grave → ∃ u : State, exec (.srcClear via x.code) s = .next (State.settle (u.answered .ok)) ∧ u.regAt Reg.SRC_UNCLEARED x.code = 0 ∧
        u.srcClass x = x.defaultClass ∧ u.flt.timers = s.flt.timers.filter (fun t => t.src != x) ∧ u.flt.windows = Table.erase s.flt.windows x.code ∧
        u.flt.queue = s.flt.queue ∧ (∀ y, y ≠ x → u.srcClass y = s.srcClass y ∧ u.regAt Reg.SRC_UNCLEARED y.code = s.regAt Reg.SRC_UNCLEARED y.code) ∧
        u.regAt Reg.SRC_EVENTS x.code = s.regAt Reg.SRC_EVENTS x.code)) ∧
    (∀ via, s.admits via Reg.FLT_CLEAR_ALL 0 0 = true → ∃ u : State, exec (.fltClearAll via) s = .next (State.settle (u.answered .ok)) ∧
      u.flt.timers = s.flt.timers.filter (fun t => s.srcClass t.src = .grave) ∧ u.flt.queue = s.flt.queue ∧ u.flt.grave = s.flt.grave ∧
      ∀ x, (s.srcClass x = .grave → u.srcClass x = .grave ∧ u.regAt Reg.SRC_UNCLEARED x.code = s.regAt Reg.SRC_UNCLEARED x.code) ∧
        (s.srcClass x ≠ .grave → u.srcClass x = x.defaultClass ∧ u.regAt Reg.SRC_UNCLEARED x.code = 0)) ∧
    (∀ via, s.admits via Reg.FLT_EVT_POP 0 0 = true → exec (.fltEvtPop via) s = .next (State.settle (State.answered (s.onFlt fun f => { f with queue := f.queue.drop 1 }) .ok))) ∧
    ((s.reg Reg.HANG_WINDOW = 0 ∨ s.powered = false) → exec .hangExamine s = .next s.settle) ∧
    (0 < s.reg Reg.HANG_WINDOW → s.powered = true →
      let hung (u : UnitName) : Bool := s.unitHolds u && !s.debugHeld u && !s.boundedWait u && !s.hangHeld u &&
        decide (s.reg Reg.HANG_WINDOW ≤ (s.tclk - s.lastProgress u) * 32 / 5)
      let found := s.allEngines.filter hung
      let work (u : UnitName) : List Nat := match u with | .engine n _ => s.ctxOnCore n | .reduction p => s.ctxsOnReduction p | _ => []
      let alone := (List.range 64).filter fun c => hung (.context c) && found.all fun u => !(work u).contains c
      ∃ u : State, exec .hangExamine s = .next u.settle ∧
        u.regAt Reg.SRC_EVENTS Source.hangEngine.code = (if found = [] then s.regAt Reg.SRC_EVENTS Source.hangEngine.code else (s.regAt Reg.SRC_EVENTS Source.hangEngine.code + found.length) % 2 ^ 32) ∧
        u.regAt Reg.SRC_EVENTS Source.hangContext.code = (if alone = [] then s.regAt Reg.SRC_EVENTS Source.hangContext.code else (s.regAt Reg.SRC_EVENTS Source.hangContext.code + alone.length) % 2 ^ 32) ∧ u.cores = s.cores ∧ u.ctxs = s.ctxs ∧ u.mem = s.mem)

/-- The rungs of recovery: their commands, ends and limits; samples lost, probation, epochs, the power cycle and Kickstand. RST_CTX is busy for a Closed context and merged into a reset under way; else the context is Resetting, its generation one more, its trackers quarantined. At its end it is Halted without tasks, its semaphores 0, counted and reported, a guilty one as SUSPECT_GUILTY. An engine or partition reset's end counts, is reported and starts probation of its suspects; its limit takes the rung above, or LADDER_STOPPED; samples unwritten at theirs are SAMPLE_LOST. A turn ends cleared after a success, untested without work, guilty after a hang, with a reset of cause 7; then the next suspect's turn. FLT_BLOCK_RESET, and FLT_KICK_EXIT without Grave latch or missing clock, reset the block; its limit asks for a power cycle. FLT_PCYC_REQUEST sets the Grave latch; its timer and FLT_KICKSTAND enter Kickstand, all contexts Closed. A resynchronised core's lines and old messages are gone. -/
def Obligations.ResetsAndProbation : Prop :=
  ∀ s : State, s.sound = true →
    let max := s.reg Reg.FLT_LADDER_MAX
    let events (u : State) (x : Source) (n : Nat) : Prop := u.regAt Reg.SRC_EVENTS x.code = if n = 0 then s.regAt Reg.SRC_EVENTS x.code else (s.regAt Reg.SRC_EVENTS x.code + n) % 2 ^ 32
    let ends (i : Instr) (ok : State → Prop) : Prop := ∃ u : State, exec i s = .next u.settle ∧ ok u
    let answers (i : Instr) (ok : State → Prop) : Prop := ∃ u : State, exec i s = .next (State.settle (u.answered .ok)) ∧ ok u
    let blockReset (u : State) : Prop := u.blk = .reset ∧ u.rst.rung4 = true ∧ u.dict = [] ∧ u.cores = [] ∧ u.ctxs = [] ∧ (s.flt.grave = true → u.flt.grave = true)
    let stopped (u : State) : Prop := events u .ladderStopped 1 ∧ u.blk = if s.blk = .ready ∨ s.blk = .run ∨ s.blk = .drain then .quarantine else s.blk
    let cycled (u : State) : Prop := u.flt.grave = true ∧ u.flt.pcycReq = true ∧ u.flt.pcycTimer = (s.flt.pcycTimer || !s.flt.pcycReq) ∧ events u .pcycRequested 1
    let nextTurn (u : State) (p : Probation) : Prop := (p.waiting = [] → u.flt.probation = none) ∧
      ∀ d rest, p.waiting = d :: rest → u.flt.probation = some { unit := p.unit, waiting := rest, turn := some d, success := false, hung := false } ∧ (d < 64 → u.regAt Reg.RST_SUSPECT d = 2)
    let tried (u : State) (un : UnitName) (rung : Rung) (suspects : List Nat) : Prop :=
      u.flt.rungs = s.flt.rungs.filter (fun x => x.unit != un) ++ [{ unit := un, rung := rung, time := s.tclk }] ∧ (∀ r ∈ u.flt.unitResets, r.unit ≠ un) ∧
      (s.flt.probation = none → (suspects = [] → u.flt.probation = none) ∧ ∀ d rest, suspects = d :: rest → d < 64 →
        u.flt.probation = some { unit := un, waiting := rest, turn := some d, success := false, hung := false } ∧ u.regAt Reg.RST_SUSPECT d = 2 ∧
        ∀ y ∈ rest, y < 64 → y ≠ d → u.regAt Reg.RST_SUSPECT y = 1)
    (∀ (via : Via) (c : Nat), c < 64 → s.admits via Reg.RST_CTX c 0 = true → let st := s.regAt Reg.CTX_STATE c
      (st = 0 → exec (.rstCtx via c) s = .next (State.settle (s.answered .busy))) ∧ (st = 3 → exec (.rstCtx via c) s = .next (State.settle (s.answered .ok))) ∧
      ((st = 1 ∨ st = 2) → answers (.rstCtx via c) fun u => u.regAt Reg.CTX_STATE c = 3 ∧ u.regAt Reg.RST_CTX_CAUSE c = 1 ∧ u.regAt Reg.BAR_STATE c = 0 ∧
        u.regAt Reg.CTX_GENERATION c = (s.regAt Reg.CTX_GENERATION c + 1) % 256 ∧ (u.ctx c).slots = [] ∧ u.flt.ctxResets = s.flt.ctxResets ++ [{ ctx := c, cause := 1, core := 0 }] ∧
        ∀ t ∈ u.rmt.txns, t.ctx = c → t.owner ≠ .imagePush → t.quarantined = true)) ∧
    (∀ c, (∀ x ∈ s.flt.ctxResets, x.ctx ≠ c) → exec (.contextResetComplete c) s = .next s.settle ∧ exec (.rstCtxLimit c) s = .next s.settle) ∧
    (∀ x : CtxReset, x.ctx < 64 → s.flt.ctxResets = [x] → let c := x.ctx
      (ends (.contextResetComplete c) fun u => u.regAt Reg.CTX_STATE c = 2 ∧ (u.ctx c).tasks = [] ∧ (u.ctx c).trigs = [] ∧ u.flt.ctxResets = [] ∧
        (∀ n, s.ownsSem c n = true → u.sem n = 0) ∧ u.regAt Reg.RST_CTX_COUNT c = (s.regAt Reg.RST_CTX_COUNT c + 1) % 2 ^ 32 ∧ events u .resetContext 1 ∧
        events u .suspectGuilty (if x.cause = 7 then 1 else 0)) ∧
      (s.enginesOf c = [] → exec (.rstCtxLimit c) s = .next s.settle) ∧
      (∀ n e, s.enginesOf c = [.engine n e] → s.blk ≠ .kickstand → s.unitCovered (.engine n e) = false →
        (2 ≤ max → ends (.rstCtxLimit c) fun u => ∃ r ∈ u.flt.unitResets, r.unit = .engine n e) ∧ (max < 2 → ends (.rstCtxLimit c) stopped))) ∧
    (∀ un : UnitName, (∀ r ∈ s.flt.unitResets, r.unit ≠ un) → exec (.engineResetIdle un) s = .next s.settle ∧ exec (.rstEngineLimit un) s = .next s.settle ∧
      exec (.rstSampleLimit un) s = .next s.settle ∧ ∀ p, un = .partition p → exec (.partitionResetIdle p) s = .next s.settle ∧ exec (.rstPartitionLimit p) s = .next s.settle) ∧
    (∀ r : UnitReset, s.flt.unitResets = [r] →
      (ends (.rstSampleLimit r.unit) fun u => events u .sampleLost r.samples.length ∧ u.flt.unitResets = [{ r with samples := [] }] ∧ u.mem = s.mem) ∧
      (∀ n e, r.unit = .engine n e → n < 64 → (∀ y ∈ r.suspects, y < 64) → (ends (.engineResetIdle r.unit) fun u => tried u r.unit .engine r.suspects ∧ events u .resetEngine 1 ∧
          u.regAt Reg.CORE_ENG_RESETS n = (s.regAt Reg.CORE_ENG_RESETS n + 1) % 2 ^ 32) ∧
        (s.blk ≠ .kickstand → 3 ≤ max → ends (.rstEngineLimit r.unit) fun u => (∃ x ∈ u.flt.unitResets, x.unit = .partition (s.partOfCore n)) ∧ ∀ x ∈ u.flt.unitResets, x.unit ≠ r.unit) ∧
        (max < 3 → ends (.rstEngineLimit r.unit) stopped)) ∧
      (∀ p, r.unit = .reduction p → p < 8 → s.build.cores ≤ 64 → (∀ y ∈ r.suspects, y < 64) → ends (.engineResetIdle r.unit) fun u => tried u r.unit .engine r.suspects ∧ events u .resetEngine 1) ∧
      (∀ p, r.unit = .partition p → p < 8 → s.build.cores ≤ 64 → (∀ y ∈ r.suspects, y < 64) → (ends (.partitionResetIdle p) fun u => tried u r.unit .partition r.suspects ∧ events u .resetPartition 1 ∧
          ∀ n ∈ s.coresOfPart p, u.regAt Reg.CORE_ENG_RESETS n = (s.regAt Reg.CORE_ENG_RESETS n + 4) % 2 ^ 32) ∧
        (s.blk ≠ .kickstand → 4 ≤ max → ends (.rstPartitionLimit p) blockReset) ∧ (max < 4 → ends (.rstPartitionLimit p) stopped))) ∧
    (∀ via, s.admits via Reg.FLT_BLOCK_RESET 0 0 = true → answers (.fltBlockReset via) blockReset) ∧
    ((s.blk ≠ .reset ∨ s.rst.rung4 = false) → exec .blockResetConfigureLimit s = .next s.settle) ∧
    (s.blk = .reset → s.rst.rung4 = true → (max < 5 → ends .blockResetConfigureLimit stopped) ∧
      (5 ≤ max → s.srcClass .pcycRequested = .grave → ends .blockResetConfigureLimit cycled)) ∧
    (∀ via, s.admits via Reg.FLT_PCYC_REQUEST 0 0 = true → s.srcClass .pcycRequested = .grave → answers (.fltPcycRequest via) cycled) ∧
    ((s.flt.pcycTimer = false ∨ s.blk = .off ∨ s.blk = .reset) → exec .pcycKickstand s = .next s.settle) ∧
    (s.flt.pcycTimer = true → s.blk ≠ .off → s.blk ≠ .reset → ends .pcycKickstand fun u => u.blk = .kickstand ∧ u.flt.pcycTimer = false ∧
      u.flt.pcycLow = (s.flt.pcycLow || s.flag Reg.FLT_PCYC_AUTO)) ∧
    (∀ via, s.admits via Reg.FLT_KICKSTAND 0 0 = true → s.blk ≠ .off → (s.blk = .kickstand → exec (.fltKickstand via) s = .next (State.settle (s.answered .ok))) ∧
      (s.blk ≠ .kickstand → answers (.fltKickstand via) fun u => u.blk = .kickstand ∧ u.cores = [] ∧ u.ctxs = [] ∧ u.sems = [] ∧ u.counters = [] ∧
        (∀ c, c < 64 → u.regAt Reg.CTX_STATE c = 0) ∧ events u .kickstandEntered 1 ∧ u.mem = s.mem)) ∧
    (∀ via, s.admits via Reg.FLT_KICK_EXIT 0 0 = true →
      let held : Prop := s.blk ≠ .kickstand ∨ s.flt.grave = true ∨ (s.flt.kickClock = true ∧ s.reg Reg.CLK_FAULT_BLOCK % 4 ≠ 0)
      (held → exec (.fltKickExit via) s = .next (State.settle (s.answered .busy))) ∧ (¬held → answers (.fltKickExit via) blockReset)) ∧
    (∀ o, s.flt.probation = none → exec (.probationTurnEnd o) s = .next s.settle) ∧
    (∀ (p : Probation) (c : Nat), s.flt.probation = some p → p.turn = some c → c < 64 → c ∉ p.waiting → (∀ d ∈ p.waiting, d < 64) → (∀ n ∈ s.unitCores p.unit, n < 64) →
      (p.success = true → ends (.probationTurnEnd .cleared) fun u => u.regAt Reg.RST_SUSPECT c = 3 ∧ nextTurn u p) ∧ (p.success = false → exec (.probationTurnEnd .cleared) s = .next s.settle) ∧
      (s.hasWorkOn c p.unit = false → ends (.probationTurnEnd .untested) fun u => u.regAt Reg.RST_SUSPECT c = 4 ∧ nextTurn u p) ∧
      (s.hasWorkOn c p.unit = true → exec (.probationTurnEnd .untested) s = .next s.settle) ∧ (p.hung = false → exec (.probationTurnEnd .guilty) s = .next s.settle) ∧
      (p.hung = true → s.regAt Reg.CTX_STATE c = 1 → ends (.probationTurnEnd .guilty) fun u => u.regAt Reg.RST_SUSPECT c = 5 ∧ nextTurn u p ∧ u.regAt Reg.CTX_STATE c = 3 ∧
        u.regAt Reg.RST_CTX_CAUSE c = 7)) ∧
    (∀ n, Table.get s.flt.unsynced 256 n = 256 → exec (.epochResyncComplete n) s = .next s.settle) ∧
    (∀ n, Table.get s.flt.unsynced 256 n ≠ 256 → ends (.epochResyncComplete n) fun u => u.far.lines = s.far.lines.filter (fun l => l.core != n) ∧
      u.far.reqs = s.far.reqs.filter (fun q => q.core != n) ∧ u.flt.unsynced = Table.erase s.flt.unsynced n ∧ events u .epochRefused (s.far.reqs.filter (fun q => q.core == n)).length)
end

