-- ==== Sys2Proof/Laws/Table.lean ====
section
/-! SUPPORT. Canonical forms: what the operations of sparse tables, sets and memories keep, and how they read back. -/
set_option Elab.async false
namespace Sys2Proof.Bits
open Sys2Proof

variable {α : Type} [DecidableEq α] {d v : α} {t : Table α} {k x : Nat} {lo : Option Nat}

/-- Every key of a canonical listing from `lo` lies above `lo`. -/
theorem Table.wfFrom_weaken {l l' : Option Nat} (h : Table.wfFrom d l t = true) (hl : ∀ a, l' = some a → ∃ b, l = some b ∧ a ≤ b) :
    Table.wfFrom d l' t = true := by
  cases t with
  | nil => rfl
  | cons e t =>
    obtain ⟨k, w⟩ := e
    simp only [Table.wfFrom, Bool.and_eq_true] at h ⊢
    refine ⟨⟨?_, h.1.2⟩, h.2⟩
    cases l' with
    | none => rfl
    | some a =>
      obtain ⟨b, rfl, hab⟩ := hl a rfl
      have := h.1.1
      simp only [decide_eq_true_eq] at this ⊢
      omega

theorem Table.wfFrom_erase (h : Table.wfFrom d lo t = true) : Table.wfFrom d lo (Table.erase t k) = true := by
  induction t generalizing lo with
  | nil => rfl
  | cons e t ih =>
    obtain ⟨k', w⟩ := e
    unfold Table.erase
    simp only [Table.wfFrom, Bool.and_eq_true] at h
    split
    · refine Table.wfFrom_weaken h.2 ?_
      rintro a rfl
      exact ⟨k', rfl, by have := h.1.1; simp only [decide_eq_true_eq] at this; omega⟩
    · split
      · simp only [Table.wfFrom, Bool.and_eq_true]; exact h
      · simp only [Table.wfFrom, Bool.and_eq_true]; exact ⟨h.1, ih h.2⟩

theorem Table.wfFrom_insert (h : Table.wfFrom d lo t = true) (hv : v ≠ d) (hl : ∀ a, lo = some a → a < k) :
    Table.wfFrom d lo (Table.insert t k v) = true := by
  induction t generalizing lo with
  | nil =>
    unfold Table.insert Table.wfFrom
    cases lo with
    | none => simp [hv, Table.wfFrom]
    | some a => simp [hv, hl a rfl, Table.wfFrom]
  | cons e t ih =>
    obtain ⟨k', w⟩ := e
    unfold Table.insert
    simp only [Table.wfFrom, Bool.and_eq_true] at h
    split
    · next e => subst e; simp only [Table.wfFrom, Bool.and_eq_true]; exact ⟨⟨h.1.1, by simpa using hv⟩, h.2⟩
    · split
      · next hlt =>
        simp only [Table.wfFrom, Bool.and_eq_true]
        refine ⟨⟨?_, by simpa using hv⟩, ⟨by simpa using hlt, h.1.2⟩, h.2⟩
        cases lo with
        | none => rfl
        | some a => simpa using hl a rfl
      · simp only [Table.wfFrom, Bool.and_eq_true]
        exact ⟨h.1, ih h.2 (by rintro a ⟨⟩; omega)⟩

/-- Setting a key keeps a table canonical. -/
theorem Table.wf_put (h : Table.wf d t = true) : Table.wf d (Table.put t d k v) = true := by
  unfold Table.put
  split
  · exact Table.wfFrom_erase h
  · next hv => exact Table.wfFrom_insert h hv (by rintro a ⟨⟩)

/-- Keeping the entries that a test on keys accepts keeps a table canonical. -/
theorem Table.wfFrom_filter {p : Nat × α → Bool} (h : Table.wfFrom d lo t = true) : Table.wfFrom d lo (t.filter p) = true := by
  induction t generalizing lo with
  | nil => rfl
  | cons e t ih =>
    obtain ⟨k', w⟩ := e
    simp only [Table.wfFrom, Bool.and_eq_true] at h
    rw [List.filter_cons]
    split
    · simp only [Table.wfFrom, Bool.and_eq_true]; exact ⟨h.1, ih h.2⟩
    · refine Table.wfFrom_weaken (ih h.2) ?_
      rintro a rfl
      exact ⟨k', rfl, by have := h.1.1; simp only [decide_eq_true_eq] at this; omega⟩

theorem Table.wf_filter {p : Nat × α → Bool} (h : Table.wf d t = true) : Table.wf d (t.filter p) = true :=
  Table.wfFrom_filter h

/-- A canonical listing lists nothing at or below `lo`. -/
theorem Table.find?_none_of_le (h : Table.wfFrom d (some x) t = true) (hk : k ≤ x) : Table.find? t k = none := by
  cases t with
  | nil => rfl
  | cons e t =>
    obtain ⟨k', w⟩ := e
    simp only [Table.wfFrom, Bool.and_eq_true, decide_eq_true_eq] at h
    unfold Table.find?
    rw [if_neg (by omega), if_pos (by omega)]

theorem Table.find?_erase (h : Table.wfFrom d lo t = true) :
    Table.find? (Table.erase t k) x = if x = k then none else Table.find? t x := by
  induction t generalizing lo with
  | nil => simp [Table.erase, Table.find?]
  | cons e t ih =>
    obtain ⟨k', w⟩ := e
    simp only [Table.wfFrom, Bool.and_eq_true] at h
    unfold Table.erase
    split
    · next e =>
      subst e
      split
      · next e => subst e; exact Table.find?_none_of_le h.2 (Nat.le_refl _)
      · next hx =>
        conv => rhs; unfold Table.find?
        rw [if_neg hx]
        split
        · exact Table.find?_none_of_le h.2 (by omega)
        · rfl
    · split
      · split
        · next e => subst e; unfold Table.find?; rw [if_neg (by omega), if_pos (by omega)]
        · rfl
      · unfold Table.find?
        rw [ih h.2]
        split
        · next e => subst e; rw [if_neg (by omega)]
        · split
          · split <;> rfl
          · rfl

omit [DecidableEq α] in
theorem Table.find?_insert : Table.find? (Table.insert t k v) x = if x = k then some v else Table.find? t x := by
  induction t with
  | nil =>
    unfold Table.insert Table.find?
    split
    · rfl
    · split <;> rfl
  | cons e t ih =>
    obtain ⟨k', w⟩ := e
    unfold Table.insert
    split
    · next e => subst e; simp only [Table.find?]; split <;> rfl
    · split
      · simp only [Table.find?]
        split
        · rfl
        · split
          · rw [if_neg (by omega), if_pos (by omega)]
          · rfl
      · simp only [Table.find?]
        rw [ih]
        split
        · rw [if_neg (by omega)]
        · split
          · rw [if_neg (by omega)]
          · rfl

/-- A table reads back what was put at a key, and every other key as before. -/
theorem Table.get_put (h : Table.wf d t = true) : Table.get (Table.put t d k v) d x = if x = k then v else Table.get t d x := by
  unfold Table.get Table.put
  split
  · next e =>
    rw [Table.find?_erase h]
    split
    · simp [e]
    · rfl
  · rw [Table.find?_insert]
    split <;> rfl

end Sys2Proof.Bits

namespace Sys2Proof.Machine
open Sys2Proof Sys2Proof.Bits

/-! ### Sets of numbers -/

theorem rising_tail {a : Nat} {l : List Nat} (h : rising (a :: l) = true) : rising l = true := by
  cases l with
  | nil => rfl
  | cons b l => simp only [rising, Bool.and_eq_true] at h; exact h.2

theorem rising_head {a b : Nat} {l : List Nat} (h : rising (a :: l) = true) (hb : b ∈ l) : a < b := by
  induction l generalizing a with
  | nil => cases hb
  | cons c l ih =>
    simp only [rising, Bool.and_eq_true, decide_eq_true_eq] at h
    rcases List.mem_cons.1 hb with rfl | hb
    · exact h.1
    · exact Nat.lt_trans h.1 (ih h.2 hb)

theorem rising_cons {a : Nat} {l : List Nat} (h : rising l = true) (ha : ∀ b ∈ l, a < b) : rising (a :: l) = true := by
  cases l with
  | nil => rfl
  | cons b l => simp only [rising, Bool.and_eq_true, decide_eq_true_eq]; exact ⟨ha b (by simp), h⟩

theorem mem_setIns {k b : Nat} {l : List Nat} (h : b ∈ setIns k l) : b = k ∨ b ∈ l := by
  induction l with
  | nil => simpa [setIns] using h
  | cons x l ih =>
    unfold setIns at h
    split at h
    · exact .inr h
    · split at h
      · simpa using h
      · rcases List.mem_cons.1 h with rfl | h
        · simp
        · rcases ih h with h | h <;> simp [h]

theorem rising_setIns {k : Nat} {l : List Nat} (h : rising l = true) : rising (setIns k l) = true := by
  induction l with
  | nil => rfl
  | cons x l ih =>
    unfold setIns
    split
    · exact h
    · split
      · next hlt => simp only [rising, Bool.and_eq_true, decide_eq_true_eq]; exact ⟨hlt, h⟩
      · refine rising_cons (ih (rising_tail h)) fun b hb => ?_
        rcases mem_setIns hb with rfl | hb
        · omega
        · exact rising_head h hb

theorem rising_filter {p : Nat → Bool} {l : List Nat} (h : rising l = true) : rising (l.filter p) = true := by
  induction l with
  | nil => rfl
  | cons x l ih =>
    rw [List.filter_cons]
    split
    · exact rising_cons (ih (rising_tail h)) fun b hb => rising_head h (List.mem_filter.1 hb).1
    · exact ih (rising_tail h)

theorem rising_setDel {k : Nat} {l : List Nat} (h : rising l = true) : rising (setDel k l) = true := rising_filter h

theorem fst_mem_insert {α : Type} {t : Table α} {k b : Nat} {v : α} (h : b ∈ (Table.insert t k v).map Prod.fst) :
    b = k ∨ b ∈ t.map Prod.fst := by
  induction t with
  | nil => simpa [Table.insert] using h
  | cons e t ih =>
    obtain ⟨k', w⟩ := e
    unfold Table.insert at h
    split at h
    · next e => subst e; exact .inr h
    · split at h
      · simpa using h
      · rw [List.map_cons] at h ⊢
        rcases List.mem_cons.1 h with rfl | h
        · exact .inr (by simp)
        · rcases ih h with h | h
          · exact .inl h
          · exact .inr (by simp only [List.mem_cons]; exact .inr h)

/-- Inserting a key keeps keys rising. -/
theorem rising_insert {α : Type} {t : Table α} {k : Nat} {v : α} (h : rising (t.map Prod.fst) = true) :
    rising ((Table.insert t k v).map Prod.fst) = true := by
  induction t with
  | nil => rfl
  | cons e t ih =>
    obtain ⟨k', w⟩ := e
    unfold Table.insert
    split
    · next e => subst e; exact h
    · split
      · next hlt =>
        refine rising_cons h fun b hb => ?_
        rcases List.mem_cons.1 hb with rfl | hb
        · exact hlt
        · exact Nat.lt_trans hlt (rising_head h hb)
      · refine rising_cons (ih (rising_tail h)) fun b hb => ?_
        rcases fst_mem_insert hb with rfl | hb
        · show k' < b; omega
        · exact rising_head h hb

theorem fst_mem_erase {α : Type} {t : Table α} {k b : Nat} (h : b ∈ (Table.erase t k).map Prod.fst) : b ∈ t.map Prod.fst := by
  induction t with
  | nil => exact h
  | cons e t ih =>
    obtain ⟨k', w⟩ := e
    unfold Table.erase at h
    split at h
    · rw [List.map_cons]; exact List.mem_cons_of_mem _ h
    · split at h
      · exact h
      · rw [List.map_cons] at h ⊢
        rcases List.mem_cons.1 h with rfl | h
        · exact List.mem_cons_self ..
        · exact List.mem_cons_of_mem _ (ih h)

/-- Erasing a key keeps keys rising. -/
theorem rising_erase {α : Type} {t : Table α} {k : Nat} (h : rising (t.map Prod.fst) = true) :
    rising ((Table.erase t k).map Prod.fst) = true := by
  induction t with
  | nil => rfl
  | cons e t ih =>
    obtain ⟨k', w⟩ := e
    unfold Table.erase
    split
    · exact rising_tail h
    · split
      · exact h
      · exact rising_cons (ih (rising_tail h)) fun b hb => rising_head h (fst_mem_erase hb)

/-- A key below all the others is not listed. -/
theorem find?_none_of_lt {α : Type} {t : Table α} {k : Nat} (h : ∀ b ∈ t.map Prod.fst, k < b) : Table.find? t k = none := by
  cases t with
  | nil => rfl
  | cons e t =>
    obtain ⟨k', w⟩ := e
    have := h k' (by simp)
    unfold Table.find?
    rw [if_neg (by omega), if_pos this]

/-- A table with rising keys reads an erased key as not listed, and every other key as before. -/
theorem find?_erase_rising {α : Type} {t : Table α} {k x : Nat} (h : rising (t.map Prod.fst) = true) :
    Table.find? (Table.erase t k) x = if x = k then none else Table.find? t x := by
  induction t with
  | nil => simp [Table.erase, Table.find?]
  | cons e t ih =>
    obtain ⟨k', w⟩ := e
    unfold Table.erase
    split
    · next e =>
      subst e
      split
      · next e => subst e; exact find?_none_of_lt fun b hb => rising_head h hb
      · next hx =>
        conv => rhs; unfold Table.find?
        rw [if_neg hx]
        split
        · next hlt => exact find?_none_of_lt fun b hb => Nat.lt_trans hlt (rising_head h hb)
        · rfl
    · split
      · split
        · next e => subst e; unfold Table.find?; rw [if_neg (by omega), if_pos (by omega)]
        · rfl
      · unfold Table.find?
        rw [ih (rising_tail h)]
        split
        · next e => subst e; rw [if_neg (by omega)]
        · split
          · split <;> rfl
          · rfl

theorem rising_filter_fst {α : Type} {t : Table α} {p : Nat × α → Bool} (h : rising (t.map Prod.fst) = true) :
    rising ((t.filter p).map Prod.fst) = true := by
  induction t with
  | nil => rfl
  | cons e t ih =>
    rw [List.filter_cons]
    split
    · refine rising_cons (ih (rising_tail h)) fun b hb => rising_head h ?_
      obtain ⟨x, hx, rfl⟩ := List.mem_map.1 hb
      exact List.mem_map_of_mem (List.mem_filter.1 hx).1
    · exact ih (rising_tail h)

/-! ### Memories -/

theorem storeBytes_wf {bs : List Byte} {m : List Host.Cell} {off : Nat} (h : Memory.wf m = true) :
    Memory.wf (storeBytes m off bs) = true := by
  induction bs generalizing m off with
  | nil => exact h
  | cons b bs ih => exact ih (Table.wf_put h)

theorem storeSpad_wf {bs : List Byte} {m : List Host.Cell} {base : Nat} (h : spadWf m = true) :
    spadWf (storeSpad m base bs) = true := by
  induction bs generalizing m base with
  | nil => exact h
  | cons b bs ih => exact ih (Table.wf_put h)

theorem markBeats_rising {l : List Nat} {off : Nat} {bs : List MByte} (h : rising l = true) :
    rising (markBeats l off bs) = true := by
  unfold markBeats
  generalize beatsOf off bs.length = xs
  induction xs generalizing l with
  | nil => exact h
  | cons x xs ih =>
    refine ih ?_
    dsimp only
    repeat' split
    all_goals first | exact rising_setIns h | exact rising_setDel h | exact h

/-- Memory reads back the bytes that a store put there, and every other byte as before. -/
theorem memByte_storeBytes {bs : List Byte} {m : List Host.Cell} {off x : Nat} (h : Memory.wf m = true) :
    memByte (storeBytes m off bs) x =
      if off ≤ x ∧ x < off + bs.length then bs.getD (x - off) 0 else memByte m x := by
  induction bs generalizing m off with
  | nil => rw [if_neg (by simp only [List.length_nil]; omega)]; rfl
  | cons b bs ih =>
    rw [storeBytes, ih (Table.wf_put h)]
    unfold memByte
    rw [Table.get_put h]
    by_cases hx : x = off
    · subst hx; rw [if_neg (by omega), if_pos (by simp)]; simp
    · by_cases hlt : off + 1 ≤ x ∧ x < off + 1 + bs.length
      · rw [if_pos hlt, if_pos (by simp only [List.length_cons]; omega)]
        obtain ⟨n, hn⟩ : ∃ n, x - off = n + 1 := ⟨x - off - 1, by omega⟩
        rw [hn, List.getD_cons_succ]; congr 1; omega
      · rw [if_neg hlt, if_neg hx, if_neg (by simp only [List.length_cons]; omega)]

/-- What a table lists after a put was listed before, or is what was put. -/
theorem Table.mem_put {α : Type} [DecidableEq α] {t : Table α} {d v : α} {k : Nat} {e : Nat × α} (h : e ∈ Table.put t d k v) :
    e = (k, v) ∨ e ∈ t := by
  unfold Table.put at h
  split at h
  · right
    induction t with
    | nil => exact h
    | cons a t ih =>
      obtain ⟨k', w⟩ := a
      unfold Table.erase at h
      split at h
      · exact List.mem_cons_of_mem _ h
      · split at h
        · exact h
        · rcases List.mem_cons.1 h with rfl | h
          · exact List.mem_cons_self ..
          · exact List.mem_cons_of_mem _ (ih h)
  · induction t with
    | nil => exact .inl (List.mem_singleton.1 h)
    | cons a t ih =>
      obtain ⟨k', w⟩ := a
      unfold Table.insert at h
      split at h
      · rcases List.mem_cons.1 h with rfl | h
        · exact .inl rfl
        · exact .inr (List.mem_cons_of_mem _ h)
      · split at h
        · rcases List.mem_cons.1 h with rfl | h
          · exact .inl rfl
          · exact .inr h
        · rcases List.mem_cons.1 h with rfl | h
          · exact .inr (List.mem_cons_self ..)
          · rcases ih h with e | e
            · exact .inl e
            · exact .inr (List.mem_cons_of_mem _ e)

/-- A key that is found is listed with its value. -/
theorem Table.mem_of_find? {α : Type} {t : Table α} {k : Nat} {v : α} (h : Table.find? t k = some v) : (k, v) ∈ t := by
  induction t with
  | nil => exact absurd h (by simp [Table.find?])
  | cons a t ih =>
    obtain ⟨k', w⟩ := a
    unfold Table.find? at h
    split at h
    · next e => subst e; cases h; exact List.mem_cons_self ..
    · split at h
      · cases h
      · exact List.mem_cons_of_mem _ (ih h)

end Sys2Proof.Machine
end

