-- ==== Sys2Proof/Laws/Keep.lean ====
section
/-! SUPPORT. What every command keeps, as a relation that the lemmas of the operations compose: the base of the chain of
lemmas, one for each operation on the state. -/
set_option Elab.async false
namespace Sys2Proof.Machine
open Sys2Proof Sys2Proof.Bits

/-- What every command but POR_N_ASSERT and POWER_REMOVED keeps. -/
structure Keep (s t : State) : Prop where
  kept : s.Kept t
  latched : s.Latched t

variable {s0 s t : State}

theorem Keep.refl (s : State) : Keep s s :=
  ⟨⟨rfl, rfl, rfl, Nat.le_refl _, fun _ h => h, fun h => h⟩, ⟨fun h => h, fun h => h⟩⟩

theorem Keep.trans {u : State} (h : Keep s t) (k : Keep t u) : Keep s u :=
  ⟨⟨k.kept.build.trans h.kept.build, k.kept.pending.trans h.kept.pending, k.kept.tclk.trans h.kept.tclk,
    Nat.le_trans h.kept.free k.kept.free, fun n e => k.kept.revoked n (h.kept.revoked n e),
    fun e => k.kept.sound (h.kept.sound e)⟩,
   ⟨fun e => k.latched.grave (h.latched.grave e), fun e => k.latched.request (h.latched.request e)⟩⟩

/-- What `State.sound` says, part by part. -/
structure Sound (s : State) : Prop where
  mem : Memory.wf s.mem = true
  spad : spadWf s.spad = true
  memPoison : rising s.memPoison = true
  spadWritten : rising s.spadWritten = true
  spadPoison : rising s.spadPoison = true
  sems : Table.wf 0 s.sems = true
  counters : Table.wf 0 s.counters = true
  dict : rising (s.dict.map Prod.fst) = true
  links : Table.wf LinkState.reset s.links = true
  cores : Table.wf CoreState.reset s.cores = true
  coreParts : (s.cores.all fun e => e.2.canonical) = true
  ctxs : Table.wf CtxState.idle s.ctxs = true
  ports : Table.wf PortState.idle s.ports = true
  vectors : Table.wf Vector.reset s.hcp.vectors = true
  queue : s.flt.queue.length ≤ 256
  timers : s.flt.timers.length ≤ 128
  invs : s.hcp.invs.length ≤ 16
  buffer : s.trc.buffer.length ≤ 1024

theorem State.sound_iff : s.sound = true ↔ Sound s := by
  unfold State.sound State.canonical State.bounded
  simp only [Bool.and_eq_true, decide_eq_true_eq]
  constructor
  · rintro ⟨⟨⟨⟨⟨⟨⟨⟨⟨⟨⟨⟨⟨⟨a, b⟩, c⟩, d⟩, e⟩, f⟩, g⟩, h⟩, i⟩, j⟩, j'⟩, k⟩, l⟩, m⟩, ⟨⟨n, o⟩, p⟩, q⟩
    exact ⟨a, b, c, d, e, f, g, h, i, j, j', k, l, m, n, o, p, q⟩
  · rintro ⟨a, b, c, d, e, f, g, h, i, j, j', k, l, m, n, o, p, q⟩
    exact ⟨⟨⟨⟨⟨⟨⟨⟨⟨⟨⟨⟨⟨⟨a, b⟩, c⟩, d⟩, e⟩, f⟩, g⟩, h⟩, i⟩, j⟩, j'⟩, k⟩, l⟩, m⟩, ⟨⟨n, o⟩, p⟩, q⟩

/-- A state that differs from another by fields that `Keep` does not watch. -/
theorem Keep.upd {build blk rst tclk free dict revoked ports hcp pmi i3c tap ont cad flt xlt mem memPoison memAnswers spad
    spadWritten spadPoison sems counters links pkt rmt cores far ctxs disp pwr trc pending}
    (h : Keep s0 s) (e1 : build = s.build := by rfl) (e2 : pending = s.pending := by rfl) (e3 : tclk = s.tclk := by rfl) (e4 : free = s.free := by rfl)
    (e5 : revoked = s.revoked := by rfl) (e6 : flt.grave = s.flt.grave := by rfl) (e7 : flt.pcycReq = s.flt.pcycReq := by rfl) (e8 : mem = s.mem := by rfl)
    (e9 : memPoison = s.memPoison := by rfl) (e10 : spad = s.spad := by rfl) (e11 : spadWritten = s.spadWritten := by rfl)
    (e12 : spadPoison = s.spadPoison := by rfl) (e13 : sems = s.sems := by rfl) (e14 : counters = s.counters := by rfl)
    (e15 : flt.queue = s.flt.queue := by rfl) (e16 : flt.timers = s.flt.timers := by rfl) (e17 : hcp.invs = s.hcp.invs := by rfl)
    (e18 : trc.buffer = s.trc.buffer := by rfl) (e19 : dict = s.dict := by rfl) (e20 : links = s.links := by rfl)
    (e21 : cores = s.cores := by rfl) (e22 : ctxs = s.ctxs := by rfl) (e23 : ports = s.ports := by rfl)
    (e24 : hcp.vectors = s.hcp.vectors := by rfl) :
    Keep s0 (State.mk build blk rst tclk free dict revoked ports hcp pmi i3c tap ont cad flt xlt mem memPoison memAnswers
      spad spadWritten spadPoison sems counters links pkt rmt cores far ctxs disp pwr trc pending) := by
  refine h.trans ⟨⟨e1, e2, e3, Nat.le_of_eq e4.symm, ?_, ?_⟩, ⟨?_, ?_⟩⟩
  · intro k hk; rw [← hk]; exact congrArg (fun n => n.testBit k) e5
  · intro hs
    rw [State.sound_iff] at hs ⊢
    subst e8 e9 e10 e11 e12 e13 e14 e19 e20 e21 e22 e23
    exact ⟨hs.mem, hs.spad, hs.memPoison, hs.spadWritten, hs.spadPoison, hs.sems, hs.counters, hs.dict, hs.links, hs.cores,
      hs.coreParts, hs.ctxs, hs.ports, e24 ▸ hs.vectors, e15 ▸ hs.queue, e16 ▸ hs.timers, e17 ▸ hs.invs, e18 ▸ hs.buffer⟩
  · intro hg; rw [← hg]; exact e6
  · intro hg; rw [← hg]; exact e7

/-- A state whose sound stores are kept and whose latches stand. -/
theorem Keep.step (h : Keep s0 s) (hb : t.build = s.build) (hp : t.pending = s.pending) (ht : t.tclk = s.tclk)
    (hf : s.free ≤ t.free) (hr : ∀ k, s.revoked.testBit k = true → t.revoked.testBit k = true)
    (hg : s.flt.grave = true → t.flt.grave = true) (hq : s.flt.pcycReq = true → t.flt.pcycReq = true)
    (hs : s.sound = true → t.sound = true) : Keep s0 t :=
  h.trans ⟨⟨hb, hp, ht, hf, hr, hs⟩, ⟨hg, hq⟩⟩

theorem Keep.foldl {α : Type} {f : State → α → State} (hf : ∀ t a, Keep s0 t → Keep s0 (f t a)) (l : List α)
    (h : Keep s0 s) : Keep s0 (l.foldl f s) := by
  induction l generalizing s with
  | nil => exact h
  | cons a l ih => exact ih (hf s a h)

theorem Keep.foldl_snd {α β : Type} {f : β × State → α → β × State} {r : β × State} (h : Keep s0 r.2)
    (hf : ∀ r a, Keep s0 r.2 → Keep s0 (f r a).2) (l : List α) : Keep s0 (l.foldl f r).2 := by
  induction l generalizing r with
  | nil => exact h
  | cons a l ih => exact ih (hf r a h)

theorem Keep.snd {α : Type} {a : α} (h : Keep s0 s) : Keep s0 (a, s).2 := h

theorem Keep.foldl_on {α β : Type} (π : β → State) {f : β → α → β} {r : β} (h : Keep s0 (π r))
    (hf : ∀ r a, Keep s0 (π r) → Keep s0 (π (f r a))) (l : List α) : Keep s0 (π (l.foldl f r)) := by
  induction l generalizing r with
  | nil => exact h
  | cons a l ih => exact ih (hf r a h)

theorem State.onFlt_keep {f : FaultState → FaultState} (h : Keep s0 s) (e1 : (f s.flt).grave = s.flt.grave := by rfl)
    (e2 : (f s.flt).pcycReq = s.flt.pcycReq := by rfl) (e3 : (f s.flt).queue = s.flt.queue := by rfl) (e4 : (f s.flt).timers = s.flt.timers := by rfl) :
    Keep s0 (s.onFlt f) :=
  Keep.upd h (e6 := e1) (e7 := e2) (e15 := e3) (e16 := e4)

theorem State.onHcp_keep {f : HcpState → HcpState} (h : Keep s0 s) (e : (f s.hcp).invs = s.hcp.invs := by rfl)
    (v : (f s.hcp).vectors = s.hcp.vectors := by rfl) : Keep s0 (s.onHcp f) :=
  Keep.upd h (e17 := e) (e24 := v)

theorem State.drawNat_keep (h : Keep s0 s) : Keep s0 s.drawNat.2 :=
  h.step rfl rfl rfl (Nat.le_succ _) (fun _ e => e) (fun e => e) (fun e => e) (fun e => e)

theorem State.drawWord_keep (h : Keep s0 s) : Keep s0 s.drawWord.2 :=
  h.step rfl rfl rfl (Nat.le_succ _) (fun _ e => e) (fun e => e) (fun e => e) (fun e => e)

theorem State.drawBytes_keep (n : Nat) (h : Keep s0 s) : Keep s0 (s.drawBytes n).2 := by
  induction n generalizing s with
  | zero => exact h
  | succ n ih =>
    exact ih (h.step (t := { s with free := s.free + 1 }) rfl rfl rfl (Nat.le_succ _) (fun _ e => e) (fun e => e)
      (fun e => e) (fun e => e))

/-- A state whose stores changed to sound ones, nothing else that `Keep` watches having changed. -/
theorem Keep.stores (h : Keep s0 s) (hs : Sound s → Sound t) (hb : t.build = s.build := by rfl)
    (hp : t.pending = s.pending := by rfl) (ht : t.tclk = s.tclk := by rfl) (hf : t.free = s.free := by rfl)
    (hr : t.revoked = s.revoked := by rfl) (hg : t.flt.grave = s.flt.grave := by rfl)
    (hq : t.flt.pcycReq = s.flt.pcycReq := by rfl) : Keep s0 t :=
  h.step hb hp ht (Nat.le_of_eq hf.symm) (fun k e => by rw [hr]; exact e) (fun e => hg.trans e) (fun e => hq.trans e)
    fun e => State.sound_iff.2 (hs (State.sound_iff.1 e))

/-- A state whose memory changed to a canonical one. -/
theorem Keep.mem {m : List Host.Cell} {p : List Nat} (h : Keep s0 s) (hm : Memory.wf s.mem = true → Memory.wf m = true)
    (hp : rising s.memPoison = true → rising p = true) : Keep s0 { s with mem := m, memPoison := p } :=
  h.stores fun e => { e with mem := hm e.mem, memPoison := hp e.memPoison }

/-- A state whose scratchpads changed to canonical ones. -/
theorem Keep.spad {m : List Host.Cell} {w p : List Nat} (h : Keep s0 s) (hm : spadWf s.spad = true → spadWf m = true)
    (hw : rising s.spadWritten = true → rising w = true) (hp : rising s.spadPoison = true → rising p = true) :
    Keep s0 { s with spad := m, spadWritten := w, spadPoison := p } :=
  h.stores fun e => { e with spad := hm e.spad, spadWritten := hw e.spadWritten, spadPoison := hp e.spadPoison }

/-- A state whose semaphores and completion counters changed to canonical ones. -/
theorem Keep.sync {a : Table Word32} {b : Table Word64} (h : Keep s0 s) (ha : Table.wf 0 s.sems = true → Table.wf 0 a = true)
    (hb : Table.wf 0 s.counters = true → Table.wf 0 b = true) : Keep s0 { s with sems := a, counters := b } :=
  h.stores fun e => { e with sems := ha e.sems, counters := hb e.counters }

/-- A state whose dictionary changed to one with rising keys. -/
theorem Keep.dict {d : Table Nat} (h : Keep s0 s)
    (hd : rising (s.dict.map Prod.fst) = true → rising (d.map Prod.fst) = true) : Keep s0 { s with dict := d } :=
  h.stores fun e => { e with dict := hd e.dict }

/-- A state whose fault handling changed within its bounds, its latches standing. -/
theorem Keep.flt {f : FaultState} (h : Keep s0 s) (hg : s.flt.grave = true → f.grave = true)
    (hr : s.flt.pcycReq = true → f.pcycReq = true) (hq : s.flt.queue.length ≤ 256 → f.queue.length ≤ 256)
    (ht : s.flt.timers.length ≤ 128 → f.timers.length ≤ 128) : Keep s0 { s with flt := f } := by
  refine h.step rfl rfl rfl (Nat.le_refl _) (fun _ e => e) hg hr fun e => ?_
  rw [State.sound_iff] at e ⊢
  exact { e with queue := hq e.queue, timers := ht e.timers }

/-- A state whose trace buffer changed within its bound. -/
theorem Keep.trc {x : TraceState} (h : Keep s0 s) (hx : s.trc.buffer.length ≤ 1024 → x.buffer.length ≤ 1024) :
    Keep s0 { s with trc := x } :=
  h.stores fun e => { e with buffer := hx e.buffer }

/-- A state whose invalidations in progress and vectors changed within their bounds. -/
theorem Keep.hcp {x : HcpState} (h : Keep s0 s) (hx : s.hcp.invs.length ≤ 16 → x.invs.length ≤ 16)
    (hv : Table.wf Vector.reset s.hcp.vectors = true → Table.wf Vector.reset x.vectors = true := by exact fun e => e) :
    Keep s0 { s with hcp := x } :=
  h.stores fun e => { e with invs := hx e.invs, vectors := hv e.vectors }

/-- Fault handling changed by a function that lengthens neither the event queue nor the list of timers. -/
theorem Keep.fltLe {f : FaultState → FaultState} (h : Keep s0 s) (hq : (f s.flt).queue.length ≤ s.flt.queue.length)
    (ht : (f s.flt).timers.length ≤ s.flt.timers.length) (e1 : (f s.flt).grave = s.flt.grave := by rfl)
    (e2 : (f s.flt).pcycReq = s.flt.pcycReq := by rfl) : Keep s0 (s.onFlt f) :=
  Keep.flt h (fun e => e1.trans e) (fun e => e2.trans e) (fun e => Nat.le_trans hq e) (fun e => Nat.le_trans ht e)

/-- `Keep` of what an optional act answers. -/
def OptKeep (s0 : State) {α : Type} (o : Option (α × State)) : Prop := ∀ r, o = some r → Keep s0 r.2

theorem OptKeep.none {α : Type} : OptKeep s0 (none : Option (α × State)) := fun _ e => nomatch e

theorem OptKeep.some {α : Type} {r : α × State} (h : Keep s0 r.2) : OptKeep s0 (some r) := fun _ e => Option.some.inj e ▸ h

theorem OptKeep.ite {α : Type} {c : Prop} [Decidable c] {a b : Option (α × State)} (ha : OptKeep s0 a) (hb : OptKeep s0 b) :
    OptKeep s0 (if c then a else b) := by
  split
  · exact ha
  · exact hb

theorem OptKeep.orElse {α : Type} {a : Option (α × State)} {f : Unit → Option (α × State)} (ha : OptKeep s0 a)
    (hf : OptKeep s0 (f ())) : OptKeep s0 (a.orElse f) := by
  cases a with
  | none => exact hf
  | some r => exact ha

theorem OptKeep.getD {α : Type} {a : Option (α × State)} {d : α × State} (ha : OptKeep s0 a) (hd : Keep s0 d.2) :
    Keep s0 (a.getD d).2 := by
  cases a with
  | none => exact hd
  | some r => exact ha r rfl

end Sys2Proof.Machine
end

