-- ==== Sys2Proof/Laws/State.lean ====
section
/-! SUPPORT. What each update of the state does to each field, true by definition. -/
set_option Elab.async false
namespace Sys2Proof.Machine
open Sys2Proof Sys2Proof.Bits

/-! #### `State.onFlt` -/
@[simp] theorem State.onFlt_build (s : State) (f : FaultState → FaultState) : (s.onFlt f).build = s.build := rfl
@[simp] theorem State.onFlt_blk (s : State) (f : FaultState → FaultState) : (s.onFlt f).blk = s.blk := rfl
@[simp] theorem State.onFlt_rst (s : State) (f : FaultState → FaultState) : (s.onFlt f).rst = s.rst := rfl
@[simp] theorem State.onFlt_tclk (s : State) (f : FaultState → FaultState) : (s.onFlt f).tclk = s.tclk := rfl
@[simp] theorem State.onFlt_free (s : State) (f : FaultState → FaultState) : (s.onFlt f).free = s.free := rfl
@[simp] theorem State.onFlt_dict (s : State) (f : FaultState → FaultState) : (s.onFlt f).dict = s.dict := rfl
@[simp] theorem State.onFlt_revoked (s : State) (f : FaultState → FaultState) : (s.onFlt f).revoked = s.revoked := rfl
@[simp] theorem State.onFlt_ports (s : State) (f : FaultState → FaultState) : (s.onFlt f).ports = s.ports := rfl
@[simp] theorem State.onFlt_hcp (s : State) (f : FaultState → FaultState) : (s.onFlt f).hcp = s.hcp := rfl
@[simp] theorem State.onFlt_pmi (s : State) (f : FaultState → FaultState) : (s.onFlt f).pmi = s.pmi := rfl
@[simp] theorem State.onFlt_i3c (s : State) (f : FaultState → FaultState) : (s.onFlt f).i3c = s.i3c := rfl
@[simp] theorem State.onFlt_tap (s : State) (f : FaultState → FaultState) : (s.onFlt f).tap = s.tap := rfl
@[simp] theorem State.onFlt_ont (s : State) (f : FaultState → FaultState) : (s.onFlt f).ont = s.ont := rfl
@[simp] theorem State.onFlt_cad (s : State) (f : FaultState → FaultState) : (s.onFlt f).cad = s.cad := rfl
@[simp] theorem State.onFlt_flt (s : State) (f : FaultState → FaultState) : (s.onFlt f).flt = f s.flt := rfl
@[simp] theorem State.onFlt_xlt (s : State) (f : FaultState → FaultState) : (s.onFlt f).xlt = s.xlt := rfl
@[simp] theorem State.onFlt_mem (s : State) (f : FaultState → FaultState) : (s.onFlt f).mem = s.mem := rfl
@[simp] theorem State.onFlt_memPoison (s : State) (f : FaultState → FaultState) : (s.onFlt f).memPoison = s.memPoison := rfl
@[simp] theorem State.onFlt_memAnswers (s : State) (f : FaultState → FaultState) : (s.onFlt f).memAnswers = s.memAnswers := rfl
@[simp] theorem State.onFlt_spad (s : State) (f : FaultState → FaultState) : (s.onFlt f).spad = s.spad := rfl
@[simp] theorem State.onFlt_spadWritten (s : State) (f : FaultState → FaultState) : (s.onFlt f).spadWritten = s.spadWritten := rfl
@[simp] theorem State.onFlt_spadPoison (s : State) (f : FaultState → FaultState) : (s.onFlt f).spadPoison = s.spadPoison := rfl
@[simp] theorem State.onFlt_sems (s : State) (f : FaultState → FaultState) : (s.onFlt f).sems = s.sems := rfl
@[simp] theorem State.onFlt_counters (s : State) (f : FaultState → FaultState) : (s.onFlt f).counters = s.counters := rfl
@[simp] theorem State.onFlt_links (s : State) (f : FaultState → FaultState) : (s.onFlt f).links = s.links := rfl
@[simp] theorem State.onFlt_pkt (s : State) (f : FaultState → FaultState) : (s.onFlt f).pkt = s.pkt := rfl
@[simp] theorem State.onFlt_rmt (s : State) (f : FaultState → FaultState) : (s.onFlt f).rmt = s.rmt := rfl
@[simp] theorem State.onFlt_cores (s : State) (f : FaultState → FaultState) : (s.onFlt f).cores = s.cores := rfl
@[simp] theorem State.onFlt_far (s : State) (f : FaultState → FaultState) : (s.onFlt f).far = s.far := rfl
@[simp] theorem State.onFlt_ctxs (s : State) (f : FaultState → FaultState) : (s.onFlt f).ctxs = s.ctxs := rfl
@[simp] theorem State.onFlt_disp (s : State) (f : FaultState → FaultState) : (s.onFlt f).disp = s.disp := rfl
@[simp] theorem State.onFlt_pwr (s : State) (f : FaultState → FaultState) : (s.onFlt f).pwr = s.pwr := rfl
@[simp] theorem State.onFlt_trc (s : State) (f : FaultState → FaultState) : (s.onFlt f).trc = s.trc := rfl
@[simp] theorem State.onFlt_pending (s : State) (f : FaultState → FaultState) : (s.onFlt f).pending = s.pending := rfl

/-! #### `State.onHcp` -/
@[simp] theorem State.onHcp_build (s : State) (f : HcpState → HcpState) : (s.onHcp f).build = s.build := rfl
@[simp] theorem State.onHcp_blk (s : State) (f : HcpState → HcpState) : (s.onHcp f).blk = s.blk := rfl
@[simp] theorem State.onHcp_rst (s : State) (f : HcpState → HcpState) : (s.onHcp f).rst = s.rst := rfl
@[simp] theorem State.onHcp_tclk (s : State) (f : HcpState → HcpState) : (s.onHcp f).tclk = s.tclk := rfl
@[simp] theorem State.onHcp_free (s : State) (f : HcpState → HcpState) : (s.onHcp f).free = s.free := rfl
@[simp] theorem State.onHcp_dict (s : State) (f : HcpState → HcpState) : (s.onHcp f).dict = s.dict := rfl
@[simp] theorem State.onHcp_revoked (s : State) (f : HcpState → HcpState) : (s.onHcp f).revoked = s.revoked := rfl
@[simp] theorem State.onHcp_ports (s : State) (f : HcpState → HcpState) : (s.onHcp f).ports = s.ports := rfl
@[simp] theorem State.onHcp_hcp (s : State) (f : HcpState → HcpState) : (s.onHcp f).hcp = f s.hcp := rfl
@[simp] theorem State.onHcp_pmi (s : State) (f : HcpState → HcpState) : (s.onHcp f).pmi = s.pmi := rfl
@[simp] theorem State.onHcp_i3c (s : State) (f : HcpState → HcpState) : (s.onHcp f).i3c = s.i3c := rfl
@[simp] theorem State.onHcp_tap (s : State) (f : HcpState → HcpState) : (s.onHcp f).tap = s.tap := rfl
@[simp] theorem State.onHcp_ont (s : State) (f : HcpState → HcpState) : (s.onHcp f).ont = s.ont := rfl
@[simp] theorem State.onHcp_cad (s : State) (f : HcpState → HcpState) : (s.onHcp f).cad = s.cad := rfl
@[simp] theorem State.onHcp_flt (s : State) (f : HcpState → HcpState) : (s.onHcp f).flt = s.flt := rfl
@[simp] theorem State.onHcp_xlt (s : State) (f : HcpState → HcpState) : (s.onHcp f).xlt = s.xlt := rfl
@[simp] theorem State.onHcp_mem (s : State) (f : HcpState → HcpState) : (s.onHcp f).mem = s.mem := rfl
@[simp] theorem State.onHcp_memPoison (s : State) (f : HcpState → HcpState) : (s.onHcp f).memPoison = s.memPoison := rfl
@[simp] theorem State.onHcp_memAnswers (s : State) (f : HcpState → HcpState) : (s.onHcp f).memAnswers = s.memAnswers := rfl
@[simp] theorem State.onHcp_spad (s : State) (f : HcpState → HcpState) : (s.onHcp f).spad = s.spad := rfl
@[simp] theorem State.onHcp_spadWritten (s : State) (f : HcpState → HcpState) : (s.onHcp f).spadWritten = s.spadWritten := rfl
@[simp] theorem State.onHcp_spadPoison (s : State) (f : HcpState → HcpState) : (s.onHcp f).spadPoison = s.spadPoison := rfl
@[simp] theorem State.onHcp_sems (s : State) (f : HcpState → HcpState) : (s.onHcp f).sems = s.sems := rfl
@[simp] theorem State.onHcp_counters (s : State) (f : HcpState → HcpState) : (s.onHcp f).counters = s.counters := rfl
@[simp] theorem State.onHcp_links (s : State) (f : HcpState → HcpState) : (s.onHcp f).links = s.links := rfl
@[simp] theorem State.onHcp_pkt (s : State) (f : HcpState → HcpState) : (s.onHcp f).pkt = s.pkt := rfl
@[simp] theorem State.onHcp_rmt (s : State) (f : HcpState → HcpState) : (s.onHcp f).rmt = s.rmt := rfl
@[simp] theorem State.onHcp_cores (s : State) (f : HcpState → HcpState) : (s.onHcp f).cores = s.cores := rfl
@[simp] theorem State.onHcp_far (s : State) (f : HcpState → HcpState) : (s.onHcp f).far = s.far := rfl
@[simp] theorem State.onHcp_ctxs (s : State) (f : HcpState → HcpState) : (s.onHcp f).ctxs = s.ctxs := rfl
@[simp] theorem State.onHcp_disp (s : State) (f : HcpState → HcpState) : (s.onHcp f).disp = s.disp := rfl
@[simp] theorem State.onHcp_pwr (s : State) (f : HcpState → HcpState) : (s.onHcp f).pwr = s.pwr := rfl
@[simp] theorem State.onHcp_trc (s : State) (f : HcpState → HcpState) : (s.onHcp f).trc = s.trc := rfl
@[simp] theorem State.onHcp_pending (s : State) (f : HcpState → HcpState) : (s.onHcp f).pending = s.pending := rfl

/-! #### `State.onPkt` -/
@[simp] theorem State.onPkt_build (s : State) (f : PktState → PktState) : (s.onPkt f).build = s.build := rfl
@[simp] theorem State.onPkt_blk (s : State) (f : PktState → PktState) : (s.onPkt f).blk = s.blk := rfl
@[simp] theorem State.onPkt_rst (s : State) (f : PktState → PktState) : (s.onPkt f).rst = s.rst := rfl
@[simp] theorem State.onPkt_tclk (s : State) (f : PktState → PktState) : (s.onPkt f).tclk = s.tclk := rfl
@[simp] theorem State.onPkt_free (s : State) (f : PktState → PktState) : (s.onPkt f).free = s.free := rfl
@[simp] theorem State.onPkt_dict (s : State) (f : PktState → PktState) : (s.onPkt f).dict = s.dict := rfl
@[simp] theorem State.onPkt_revoked (s : State) (f : PktState → PktState) : (s.onPkt f).revoked = s.revoked := rfl
@[simp] theorem State.onPkt_ports (s : State) (f : PktState → PktState) : (s.onPkt f).ports = s.ports := rfl
@[simp] theorem State.onPkt_hcp (s : State) (f : PktState → PktState) : (s.onPkt f).hcp = s.hcp := rfl
@[simp] theorem State.onPkt_pmi (s : State) (f : PktState → PktState) : (s.onPkt f).pmi = s.pmi := rfl
@[simp] theorem State.onPkt_i3c (s : State) (f : PktState → PktState) : (s.onPkt f).i3c = s.i3c := rfl
@[simp] theorem State.onPkt_tap (s : State) (f : PktState → PktState) : (s.onPkt f).tap = s.tap := rfl
@[simp] theorem State.onPkt_ont (s : State) (f : PktState → PktState) : (s.onPkt f).ont = s.ont := rfl
@[simp] theorem State.onPkt_cad (s : State) (f : PktState → PktState) : (s.onPkt f).cad = s.cad := rfl
@[simp] theorem State.onPkt_flt (s : State) (f : PktState → PktState) : (s.onPkt f).flt = s.flt := rfl
@[simp] theorem State.onPkt_xlt (s : State) (f : PktState → PktState) : (s.onPkt f).xlt = s.xlt := rfl
@[simp] theorem State.onPkt_mem (s : State) (f : PktState → PktState) : (s.onPkt f).mem = s.mem := rfl
@[simp] theorem State.onPkt_memPoison (s : State) (f : PktState → PktState) : (s.onPkt f).memPoison = s.memPoison := rfl
@[simp] theorem State.onPkt_memAnswers (s : State) (f : PktState → PktState) : (s.onPkt f).memAnswers = s.memAnswers := rfl
@[simp] theorem State.onPkt_spad (s : State) (f : PktState → PktState) : (s.onPkt f).spad = s.spad := rfl
@[simp] theorem State.onPkt_spadWritten (s : State) (f : PktState → PktState) : (s.onPkt f).spadWritten = s.spadWritten := rfl
@[simp] theorem State.onPkt_spadPoison (s : State) (f : PktState → PktState) : (s.onPkt f).spadPoison = s.spadPoison := rfl
@[simp] theorem State.onPkt_sems (s : State) (f : PktState → PktState) : (s.onPkt f).sems = s.sems := rfl
@[simp] theorem State.onPkt_counters (s : State) (f : PktState → PktState) : (s.onPkt f).counters = s.counters := rfl
@[simp] theorem State.onPkt_links (s : State) (f : PktState → PktState) : (s.onPkt f).links = s.links := rfl
@[simp] theorem State.onPkt_pkt (s : State) (f : PktState → PktState) : (s.onPkt f).pkt = f s.pkt := rfl
@[simp] theorem State.onPkt_rmt (s : State) (f : PktState → PktState) : (s.onPkt f).rmt = s.rmt := rfl
@[simp] theorem State.onPkt_cores (s : State) (f : PktState → PktState) : (s.onPkt f).cores = s.cores := rfl
@[simp] theorem State.onPkt_far (s : State) (f : PktState → PktState) : (s.onPkt f).far = s.far := rfl
@[simp] theorem State.onPkt_ctxs (s : State) (f : PktState → PktState) : (s.onPkt f).ctxs = s.ctxs := rfl
@[simp] theorem State.onPkt_disp (s : State) (f : PktState → PktState) : (s.onPkt f).disp = s.disp := rfl
@[simp] theorem State.onPkt_pwr (s : State) (f : PktState → PktState) : (s.onPkt f).pwr = s.pwr := rfl
@[simp] theorem State.onPkt_trc (s : State) (f : PktState → PktState) : (s.onPkt f).trc = s.trc := rfl
@[simp] theorem State.onPkt_pending (s : State) (f : PktState → PktState) : (s.onPkt f).pending = s.pending := rfl

/-! #### `State.onRmt` -/
@[simp] theorem State.onRmt_build (s : State) (f : RmtState → RmtState) : (s.onRmt f).build = s.build := rfl
@[simp] theorem State.onRmt_blk (s : State) (f : RmtState → RmtState) : (s.onRmt f).blk = s.blk := rfl
@[simp] theorem State.onRmt_rst (s : State) (f : RmtState → RmtState) : (s.onRmt f).rst = s.rst := rfl
@[simp] theorem State.onRmt_tclk (s : State) (f : RmtState → RmtState) : (s.onRmt f).tclk = s.tclk := rfl
@[simp] theorem State.onRmt_free (s : State) (f : RmtState → RmtState) : (s.onRmt f).free = s.free := rfl
@[simp] theorem State.onRmt_dict (s : State) (f : RmtState → RmtState) : (s.onRmt f).dict = s.dict := rfl
@[simp] theorem State.onRmt_revoked (s : State) (f : RmtState → RmtState) : (s.onRmt f).revoked = s.revoked := rfl
@[simp] theorem State.onRmt_ports (s : State) (f : RmtState → RmtState) : (s.onRmt f).ports = s.ports := rfl
@[simp] theorem State.onRmt_hcp (s : State) (f : RmtState → RmtState) : (s.onRmt f).hcp = s.hcp := rfl
@[simp] theorem State.onRmt_pmi (s : State) (f : RmtState → RmtState) : (s.onRmt f).pmi = s.pmi := rfl
@[simp] theorem State.onRmt_i3c (s : State) (f : RmtState → RmtState) : (s.onRmt f).i3c = s.i3c := rfl
@[simp] theorem State.onRmt_tap (s : State) (f : RmtState → RmtState) : (s.onRmt f).tap = s.tap := rfl
@[simp] theorem State.onRmt_ont (s : State) (f : RmtState → RmtState) : (s.onRmt f).ont = s.ont := rfl
@[simp] theorem State.onRmt_cad (s : State) (f : RmtState → RmtState) : (s.onRmt f).cad = s.cad := rfl
@[simp] theorem State.onRmt_flt (s : State) (f : RmtState → RmtState) : (s.onRmt f).flt = s.flt := rfl
@[simp] theorem State.onRmt_xlt (s : State) (f : RmtState → RmtState) : (s.onRmt f).xlt = s.xlt := rfl
@[simp] theorem State.onRmt_mem (s : State) (f : RmtState → RmtState) : (s.onRmt f).mem = s.mem := rfl
@[simp] theorem State.onRmt_memPoison (s : State) (f : RmtState → RmtState) : (s.onRmt f).memPoison = s.memPoison := rfl
@[simp] theorem State.onRmt_memAnswers (s : State) (f : RmtState → RmtState) : (s.onRmt f).memAnswers = s.memAnswers := rfl
@[simp] theorem State.onRmt_spad (s : State) (f : RmtState → RmtState) : (s.onRmt f).spad = s.spad := rfl
@[simp] theorem State.onRmt_spadWritten (s : State) (f : RmtState → RmtState) : (s.onRmt f).spadWritten = s.spadWritten := rfl
@[simp] theorem State.onRmt_spadPoison (s : State) (f : RmtState → RmtState) : (s.onRmt f).spadPoison = s.spadPoison := rfl
@[simp] theorem State.onRmt_sems (s : State) (f : RmtState → RmtState) : (s.onRmt f).sems = s.sems := rfl
@[simp] theorem State.onRmt_counters (s : State) (f : RmtState → RmtState) : (s.onRmt f).counters = s.counters := rfl
@[simp] theorem State.onRmt_links (s : State) (f : RmtState → RmtState) : (s.onRmt f).links = s.links := rfl
@[simp] theorem State.onRmt_pkt (s : State) (f : RmtState → RmtState) : (s.onRmt f).pkt = s.pkt := rfl
@[simp] theorem State.onRmt_rmt (s : State) (f : RmtState → RmtState) : (s.onRmt f).rmt = f s.rmt := rfl
@[simp] theorem State.onRmt_cores (s : State) (f : RmtState → RmtState) : (s.onRmt f).cores = s.cores := rfl
@[simp] theorem State.onRmt_far (s : State) (f : RmtState → RmtState) : (s.onRmt f).far = s.far := rfl
@[simp] theorem State.onRmt_ctxs (s : State) (f : RmtState → RmtState) : (s.onRmt f).ctxs = s.ctxs := rfl
@[simp] theorem State.onRmt_disp (s : State) (f : RmtState → RmtState) : (s.onRmt f).disp = s.disp := rfl
@[simp] theorem State.onRmt_pwr (s : State) (f : RmtState → RmtState) : (s.onRmt f).pwr = s.pwr := rfl
@[simp] theorem State.onRmt_trc (s : State) (f : RmtState → RmtState) : (s.onRmt f).trc = s.trc := rfl
@[simp] theorem State.onRmt_pending (s : State) (f : RmtState → RmtState) : (s.onRmt f).pending = s.pending := rfl

/-! #### `State.onXlt` -/
@[simp] theorem State.onXlt_build (s : State) (f : XltState → XltState) : (s.onXlt f).build = s.build := rfl
@[simp] theorem State.onXlt_blk (s : State) (f : XltState → XltState) : (s.onXlt f).blk = s.blk := rfl
@[simp] theorem State.onXlt_rst (s : State) (f : XltState → XltState) : (s.onXlt f).rst = s.rst := rfl
@[simp] theorem State.onXlt_tclk (s : State) (f : XltState → XltState) : (s.onXlt f).tclk = s.tclk := rfl
@[simp] theorem State.onXlt_free (s : State) (f : XltState → XltState) : (s.onXlt f).free = s.free := rfl
@[simp] theorem State.onXlt_dict (s : State) (f : XltState → XltState) : (s.onXlt f).dict = s.dict := rfl
@[simp] theorem State.onXlt_revoked (s : State) (f : XltState → XltState) : (s.onXlt f).revoked = s.revoked := rfl
@[simp] theorem State.onXlt_ports (s : State) (f : XltState → XltState) : (s.onXlt f).ports = s.ports := rfl
@[simp] theorem State.onXlt_hcp (s : State) (f : XltState → XltState) : (s.onXlt f).hcp = s.hcp := rfl
@[simp] theorem State.onXlt_pmi (s : State) (f : XltState → XltState) : (s.onXlt f).pmi = s.pmi := rfl
@[simp] theorem State.onXlt_i3c (s : State) (f : XltState → XltState) : (s.onXlt f).i3c = s.i3c := rfl
@[simp] theorem State.onXlt_tap (s : State) (f : XltState → XltState) : (s.onXlt f).tap = s.tap := rfl
@[simp] theorem State.onXlt_ont (s : State) (f : XltState → XltState) : (s.onXlt f).ont = s.ont := rfl
@[simp] theorem State.onXlt_cad (s : State) (f : XltState → XltState) : (s.onXlt f).cad = s.cad := rfl
@[simp] theorem State.onXlt_flt (s : State) (f : XltState → XltState) : (s.onXlt f).flt = s.flt := rfl
@[simp] theorem State.onXlt_xlt (s : State) (f : XltState → XltState) : (s.onXlt f).xlt = f s.xlt := rfl
@[simp] theorem State.onXlt_mem (s : State) (f : XltState → XltState) : (s.onXlt f).mem = s.mem := rfl
@[simp] theorem State.onXlt_memPoison (s : State) (f : XltState → XltState) : (s.onXlt f).memPoison = s.memPoison := rfl
@[simp] theorem State.onXlt_memAnswers (s : State) (f : XltState → XltState) : (s.onXlt f).memAnswers = s.memAnswers := rfl
@[simp] theorem State.onXlt_spad (s : State) (f : XltState → XltState) : (s.onXlt f).spad = s.spad := rfl
@[simp] theorem State.onXlt_spadWritten (s : State) (f : XltState → XltState) : (s.onXlt f).spadWritten = s.spadWritten := rfl
@[simp] theorem State.onXlt_spadPoison (s : State) (f : XltState → XltState) : (s.onXlt f).spadPoison = s.spadPoison := rfl
@[simp] theorem State.onXlt_sems (s : State) (f : XltState → XltState) : (s.onXlt f).sems = s.sems := rfl
@[simp] theorem State.onXlt_counters (s : State) (f : XltState → XltState) : (s.onXlt f).counters = s.counters := rfl
@[simp] theorem State.onXlt_links (s : State) (f : XltState → XltState) : (s.onXlt f).links = s.links := rfl
@[simp] theorem State.onXlt_pkt (s : State) (f : XltState → XltState) : (s.onXlt f).pkt = s.pkt := rfl
@[simp] theorem State.onXlt_rmt (s : State) (f : XltState → XltState) : (s.onXlt f).rmt = s.rmt := rfl
@[simp] theorem State.onXlt_cores (s : State) (f : XltState → XltState) : (s.onXlt f).cores = s.cores := rfl
@[simp] theorem State.onXlt_far (s : State) (f : XltState → XltState) : (s.onXlt f).far = s.far := rfl
@[simp] theorem State.onXlt_ctxs (s : State) (f : XltState → XltState) : (s.onXlt f).ctxs = s.ctxs := rfl
@[simp] theorem State.onXlt_disp (s : State) (f : XltState → XltState) : (s.onXlt f).disp = s.disp := rfl
@[simp] theorem State.onXlt_pwr (s : State) (f : XltState → XltState) : (s.onXlt f).pwr = s.pwr := rfl
@[simp] theorem State.onXlt_trc (s : State) (f : XltState → XltState) : (s.onXlt f).trc = s.trc := rfl
@[simp] theorem State.onXlt_pending (s : State) (f : XltState → XltState) : (s.onXlt f).pending = s.pending := rfl

/-! #### `State.onOnt` -/
@[simp] theorem State.onOnt_build (s : State) (f : OntState → OntState) : (s.onOnt f).build = s.build := rfl
@[simp] theorem State.onOnt_blk (s : State) (f : OntState → OntState) : (s.onOnt f).blk = s.blk := rfl
@[simp] theorem State.onOnt_rst (s : State) (f : OntState → OntState) : (s.onOnt f).rst = s.rst := rfl
@[simp] theorem State.onOnt_tclk (s : State) (f : OntState → OntState) : (s.onOnt f).tclk = s.tclk := rfl
@[simp] theorem State.onOnt_free (s : State) (f : OntState → OntState) : (s.onOnt f).free = s.free := rfl
@[simp] theorem State.onOnt_dict (s : State) (f : OntState → OntState) : (s.onOnt f).dict = s.dict := rfl
@[simp] theorem State.onOnt_revoked (s : State) (f : OntState → OntState) : (s.onOnt f).revoked = s.revoked := rfl
@[simp] theorem State.onOnt_ports (s : State) (f : OntState → OntState) : (s.onOnt f).ports = s.ports := rfl
@[simp] theorem State.onOnt_hcp (s : State) (f : OntState → OntState) : (s.onOnt f).hcp = s.hcp := rfl
@[simp] theorem State.onOnt_pmi (s : State) (f : OntState → OntState) : (s.onOnt f).pmi = s.pmi := rfl
@[simp] theorem State.onOnt_i3c (s : State) (f : OntState → OntState) : (s.onOnt f).i3c = s.i3c := rfl
@[simp] theorem State.onOnt_tap (s : State) (f : OntState → OntState) : (s.onOnt f).tap = s.tap := rfl
@[simp] theorem State.onOnt_ont (s : State) (f : OntState → OntState) : (s.onOnt f).ont = f s.ont := rfl
@[simp] theorem State.onOnt_cad (s : State) (f : OntState → OntState) : (s.onOnt f).cad = s.cad := rfl
@[simp] theorem State.onOnt_flt (s : State) (f : OntState → OntState) : (s.onOnt f).flt = s.flt := rfl
@[simp] theorem State.onOnt_xlt (s : State) (f : OntState → OntState) : (s.onOnt f).xlt = s.xlt := rfl
@[simp] theorem State.onOnt_mem (s : State) (f : OntState → OntState) : (s.onOnt f).mem = s.mem := rfl
@[simp] theorem State.onOnt_memPoison (s : State) (f : OntState → OntState) : (s.onOnt f).memPoison = s.memPoison := rfl
@[simp] theorem State.onOnt_memAnswers (s : State) (f : OntState → OntState) : (s.onOnt f).memAnswers = s.memAnswers := rfl
@[simp] theorem State.onOnt_spad (s : State) (f : OntState → OntState) : (s.onOnt f).spad = s.spad := rfl
@[simp] theorem State.onOnt_spadWritten (s : State) (f : OntState → OntState) : (s.onOnt f).spadWritten = s.spadWritten := rfl
@[simp] theorem State.onOnt_spadPoison (s : State) (f : OntState → OntState) : (s.onOnt f).spadPoison = s.spadPoison := rfl
@[simp] theorem State.onOnt_sems (s : State) (f : OntState → OntState) : (s.onOnt f).sems = s.sems := rfl
@[simp] theorem State.onOnt_counters (s : State) (f : OntState → OntState) : (s.onOnt f).counters = s.counters := rfl
@[simp] theorem State.onOnt_links (s : State) (f : OntState → OntState) : (s.onOnt f).links = s.links := rfl
@[simp] theorem State.onOnt_pkt (s : State) (f : OntState → OntState) : (s.onOnt f).pkt = s.pkt := rfl
@[simp] theorem State.onOnt_rmt (s : State) (f : OntState → OntState) : (s.onOnt f).rmt = s.rmt := rfl
@[simp] theorem State.onOnt_cores (s : State) (f : OntState → OntState) : (s.onOnt f).cores = s.cores := rfl
@[simp] theorem State.onOnt_far (s : State) (f : OntState → OntState) : (s.onOnt f).far = s.far := rfl
@[simp] theorem State.onOnt_ctxs (s : State) (f : OntState → OntState) : (s.onOnt f).ctxs = s.ctxs := rfl
@[simp] theorem State.onOnt_disp (s : State) (f : OntState → OntState) : (s.onOnt f).disp = s.disp := rfl
@[simp] theorem State.onOnt_pwr (s : State) (f : OntState → OntState) : (s.onOnt f).pwr = s.pwr := rfl
@[simp] theorem State.onOnt_trc (s : State) (f : OntState → OntState) : (s.onOnt f).trc = s.trc := rfl
@[simp] theorem State.onOnt_pending (s : State) (f : OntState → OntState) : (s.onOnt f).pending = s.pending := rfl

/-! #### `State.onPmi` -/
@[simp] theorem State.onPmi_build (s : State) (f : PmiState → PmiState) : (s.onPmi f).build = s.build := rfl
@[simp] theorem State.onPmi_blk (s : State) (f : PmiState → PmiState) : (s.onPmi f).blk = s.blk := rfl
@[simp] theorem State.onPmi_rst (s : State) (f : PmiState → PmiState) : (s.onPmi f).rst = s.rst := rfl
@[simp] theorem State.onPmi_tclk (s : State) (f : PmiState → PmiState) : (s.onPmi f).tclk = s.tclk := rfl
@[simp] theorem State.onPmi_free (s : State) (f : PmiState → PmiState) : (s.onPmi f).free = s.free := rfl
@[simp] theorem State.onPmi_dict (s : State) (f : PmiState → PmiState) : (s.onPmi f).dict = s.dict := rfl
@[simp] theorem State.onPmi_revoked (s : State) (f : PmiState → PmiState) : (s.onPmi f).revoked = s.revoked := rfl
@[simp] theorem State.onPmi_ports (s : State) (f : PmiState → PmiState) : (s.onPmi f).ports = s.ports := rfl
@[simp] theorem State.onPmi_hcp (s : State) (f : PmiState → PmiState) : (s.onPmi f).hcp = s.hcp := rfl
@[simp] theorem State.onPmi_pmi (s : State) (f : PmiState → PmiState) : (s.onPmi f).pmi = f s.pmi := rfl
@[simp] theorem State.onPmi_i3c (s : State) (f : PmiState → PmiState) : (s.onPmi f).i3c = s.i3c := rfl
@[simp] theorem State.onPmi_tap (s : State) (f : PmiState → PmiState) : (s.onPmi f).tap = s.tap := rfl
@[simp] theorem State.onPmi_ont (s : State) (f : PmiState → PmiState) : (s.onPmi f).ont = s.ont := rfl
@[simp] theorem State.onPmi_cad (s : State) (f : PmiState → PmiState) : (s.onPmi f).cad = s.cad := rfl
@[simp] theorem State.onPmi_flt (s : State) (f : PmiState → PmiState) : (s.onPmi f).flt = s.flt := rfl
@[simp] theorem State.onPmi_xlt (s : State) (f : PmiState → PmiState) : (s.onPmi f).xlt = s.xlt := rfl
@[simp] theorem State.onPmi_mem (s : State) (f : PmiState → PmiState) : (s.onPmi f).mem = s.mem := rfl
@[simp] theorem State.onPmi_memPoison (s : State) (f : PmiState → PmiState) : (s.onPmi f).memPoison = s.memPoison := rfl
@[simp] theorem State.onPmi_memAnswers (s : State) (f : PmiState → PmiState) : (s.onPmi f).memAnswers = s.memAnswers := rfl
@[simp] theorem State.onPmi_spad (s : State) (f : PmiState → PmiState) : (s.onPmi f).spad = s.spad := rfl
@[simp] theorem State.onPmi_spadWritten (s : State) (f : PmiState → PmiState) : (s.onPmi f).spadWritten = s.spadWritten := rfl
@[simp] theorem State.onPmi_spadPoison (s : State) (f : PmiState → PmiState) : (s.onPmi f).spadPoison = s.spadPoison := rfl
@[simp] theorem State.onPmi_sems (s : State) (f : PmiState → PmiState) : (s.onPmi f).sems = s.sems := rfl
@[simp] theorem State.onPmi_counters (s : State) (f : PmiState → PmiState) : (s.onPmi f).counters = s.counters := rfl
@[simp] theorem State.onPmi_links (s : State) (f : PmiState → PmiState) : (s.onPmi f).links = s.links := rfl
@[simp] theorem State.onPmi_pkt (s : State) (f : PmiState → PmiState) : (s.onPmi f).pkt = s.pkt := rfl
@[simp] theorem State.onPmi_rmt (s : State) (f : PmiState → PmiState) : (s.onPmi f).rmt = s.rmt := rfl
@[simp] theorem State.onPmi_cores (s : State) (f : PmiState → PmiState) : (s.onPmi f).cores = s.cores := rfl
@[simp] theorem State.onPmi_far (s : State) (f : PmiState → PmiState) : (s.onPmi f).far = s.far := rfl
@[simp] theorem State.onPmi_ctxs (s : State) (f : PmiState → PmiState) : (s.onPmi f).ctxs = s.ctxs := rfl
@[simp] theorem State.onPmi_disp (s : State) (f : PmiState → PmiState) : (s.onPmi f).disp = s.disp := rfl
@[simp] theorem State.onPmi_pwr (s : State) (f : PmiState → PmiState) : (s.onPmi f).pwr = s.pwr := rfl
@[simp] theorem State.onPmi_trc (s : State) (f : PmiState → PmiState) : (s.onPmi f).trc = s.trc := rfl
@[simp] theorem State.onPmi_pending (s : State) (f : PmiState → PmiState) : (s.onPmi f).pending = s.pending := rfl

/-! #### `State.onI3c` -/
@[simp] theorem State.onI3c_build (s : State) (f : I3cState → I3cState) : (s.onI3c f).build = s.build := rfl
@[simp] theorem State.onI3c_blk (s : State) (f : I3cState → I3cState) : (s.onI3c f).blk = s.blk := rfl
@[simp] theorem State.onI3c_rst (s : State) (f : I3cState → I3cState) : (s.onI3c f).rst = s.rst := rfl
@[simp] theorem State.onI3c_tclk (s : State) (f : I3cState → I3cState) : (s.onI3c f).tclk = s.tclk := rfl
@[simp] theorem State.onI3c_free (s : State) (f : I3cState → I3cState) : (s.onI3c f).free = s.free := rfl
@[simp] theorem State.onI3c_dict (s : State) (f : I3cState → I3cState) : (s.onI3c f).dict = s.dict := rfl
@[simp] theorem State.onI3c_revoked (s : State) (f : I3cState → I3cState) : (s.onI3c f).revoked = s.revoked := rfl
@[simp] theorem State.onI3c_ports (s : State) (f : I3cState → I3cState) : (s.onI3c f).ports = s.ports := rfl
@[simp] theorem State.onI3c_hcp (s : State) (f : I3cState → I3cState) : (s.onI3c f).hcp = s.hcp := rfl
@[simp] theorem State.onI3c_pmi (s : State) (f : I3cState → I3cState) : (s.onI3c f).pmi = s.pmi := rfl
@[simp] theorem State.onI3c_i3c (s : State) (f : I3cState → I3cState) : (s.onI3c f).i3c = f s.i3c := rfl
@[simp] theorem State.onI3c_tap (s : State) (f : I3cState → I3cState) : (s.onI3c f).tap = s.tap := rfl
@[simp] theorem State.onI3c_ont (s : State) (f : I3cState → I3cState) : (s.onI3c f).ont = s.ont := rfl
@[simp] theorem State.onI3c_cad (s : State) (f : I3cState → I3cState) : (s.onI3c f).cad = s.cad := rfl
@[simp] theorem State.onI3c_flt (s : State) (f : I3cState → I3cState) : (s.onI3c f).flt = s.flt := rfl
@[simp] theorem State.onI3c_xlt (s : State) (f : I3cState → I3cState) : (s.onI3c f).xlt = s.xlt := rfl
@[simp] theorem State.onI3c_mem (s : State) (f : I3cState → I3cState) : (s.onI3c f).mem = s.mem := rfl
@[simp] theorem State.onI3c_memPoison (s : State) (f : I3cState → I3cState) : (s.onI3c f).memPoison = s.memPoison := rfl
@[simp] theorem State.onI3c_memAnswers (s : State) (f : I3cState → I3cState) : (s.onI3c f).memAnswers = s.memAnswers := rfl
@[simp] theorem State.onI3c_spad (s : State) (f : I3cState → I3cState) : (s.onI3c f).spad = s.spad := rfl
@[simp] theorem State.onI3c_spadWritten (s : State) (f : I3cState → I3cState) : (s.onI3c f).spadWritten = s.spadWritten := rfl
@[simp] theorem State.onI3c_spadPoison (s : State) (f : I3cState → I3cState) : (s.onI3c f).spadPoison = s.spadPoison := rfl
@[simp] theorem State.onI3c_sems (s : State) (f : I3cState → I3cState) : (s.onI3c f).sems = s.sems := rfl
@[simp] theorem State.onI3c_counters (s : State) (f : I3cState → I3cState) : (s.onI3c f).counters = s.counters := rfl
@[simp] theorem State.onI3c_links (s : State) (f : I3cState → I3cState) : (s.onI3c f).links = s.links := rfl
@[simp] theorem State.onI3c_pkt (s : State) (f : I3cState → I3cState) : (s.onI3c f).pkt = s.pkt := rfl
@[simp] theorem State.onI3c_rmt (s : State) (f : I3cState → I3cState) : (s.onI3c f).rmt = s.rmt := rfl
@[simp] theorem State.onI3c_cores (s : State) (f : I3cState → I3cState) : (s.onI3c f).cores = s.cores := rfl
@[simp] theorem State.onI3c_far (s : State) (f : I3cState → I3cState) : (s.onI3c f).far = s.far := rfl
@[simp] theorem State.onI3c_ctxs (s : State) (f : I3cState → I3cState) : (s.onI3c f).ctxs = s.ctxs := rfl
@[simp] theorem State.onI3c_disp (s : State) (f : I3cState → I3cState) : (s.onI3c f).disp = s.disp := rfl
@[simp] theorem State.onI3c_pwr (s : State) (f : I3cState → I3cState) : (s.onI3c f).pwr = s.pwr := rfl
@[simp] theorem State.onI3c_trc (s : State) (f : I3cState → I3cState) : (s.onI3c f).trc = s.trc := rfl
@[simp] theorem State.onI3c_pending (s : State) (f : I3cState → I3cState) : (s.onI3c f).pending = s.pending := rfl

/-! #### `State.onTap` -/
@[simp] theorem State.onTap_build (s : State) (f : TapState → TapState) : (s.onTap f).build = s.build := rfl
@[simp] theorem State.onTap_blk (s : State) (f : TapState → TapState) : (s.onTap f).blk = s.blk := rfl
@[simp] theorem State.onTap_rst (s : State) (f : TapState → TapState) : (s.onTap f).rst = s.rst := rfl
@[simp] theorem State.onTap_tclk (s : State) (f : TapState → TapState) : (s.onTap f).tclk = s.tclk := rfl
@[simp] theorem State.onTap_free (s : State) (f : TapState → TapState) : (s.onTap f).free = s.free := rfl
@[simp] theorem State.onTap_dict (s : State) (f : TapState → TapState) : (s.onTap f).dict = s.dict := rfl
@[simp] theorem State.onTap_revoked (s : State) (f : TapState → TapState) : (s.onTap f).revoked = s.revoked := rfl
@[simp] theorem State.onTap_ports (s : State) (f : TapState → TapState) : (s.onTap f).ports = s.ports := rfl
@[simp] theorem State.onTap_hcp (s : State) (f : TapState → TapState) : (s.onTap f).hcp = s.hcp := rfl
@[simp] theorem State.onTap_pmi (s : State) (f : TapState → TapState) : (s.onTap f).pmi = s.pmi := rfl
@[simp] theorem State.onTap_i3c (s : State) (f : TapState → TapState) : (s.onTap f).i3c = s.i3c := rfl
@[simp] theorem State.onTap_tap (s : State) (f : TapState → TapState) : (s.onTap f).tap = f s.tap := rfl
@[simp] theorem State.onTap_ont (s : State) (f : TapState → TapState) : (s.onTap f).ont = s.ont := rfl
@[simp] theorem State.onTap_cad (s : State) (f : TapState → TapState) : (s.onTap f).cad = s.cad := rfl
@[simp] theorem State.onTap_flt (s : State) (f : TapState → TapState) : (s.onTap f).flt = s.flt := rfl
@[simp] theorem State.onTap_xlt (s : State) (f : TapState → TapState) : (s.onTap f).xlt = s.xlt := rfl
@[simp] theorem State.onTap_mem (s : State) (f : TapState → TapState) : (s.onTap f).mem = s.mem := rfl
@[simp] theorem State.onTap_memPoison (s : State) (f : TapState → TapState) : (s.onTap f).memPoison = s.memPoison := rfl
@[simp] theorem State.onTap_memAnswers (s : State) (f : TapState → TapState) : (s.onTap f).memAnswers = s.memAnswers := rfl
@[simp] theorem State.onTap_spad (s : State) (f : TapState → TapState) : (s.onTap f).spad = s.spad := rfl
@[simp] theorem State.onTap_spadWritten (s : State) (f : TapState → TapState) : (s.onTap f).spadWritten = s.spadWritten := rfl
@[simp] theorem State.onTap_spadPoison (s : State) (f : TapState → TapState) : (s.onTap f).spadPoison = s.spadPoison := rfl
@[simp] theorem State.onTap_sems (s : State) (f : TapState → TapState) : (s.onTap f).sems = s.sems := rfl
@[simp] theorem State.onTap_counters (s : State) (f : TapState → TapState) : (s.onTap f).counters = s.counters := rfl
@[simp] theorem State.onTap_links (s : State) (f : TapState → TapState) : (s.onTap f).links = s.links := rfl
@[simp] theorem State.onTap_pkt (s : State) (f : TapState → TapState) : (s.onTap f).pkt = s.pkt := rfl
@[simp] theorem State.onTap_rmt (s : State) (f : TapState → TapState) : (s.onTap f).rmt = s.rmt := rfl
@[simp] theorem State.onTap_cores (s : State) (f : TapState → TapState) : (s.onTap f).cores = s.cores := rfl
@[simp] theorem State.onTap_far (s : State) (f : TapState → TapState) : (s.onTap f).far = s.far := rfl
@[simp] theorem State.onTap_ctxs (s : State) (f : TapState → TapState) : (s.onTap f).ctxs = s.ctxs := rfl
@[simp] theorem State.onTap_disp (s : State) (f : TapState → TapState) : (s.onTap f).disp = s.disp := rfl
@[simp] theorem State.onTap_pwr (s : State) (f : TapState → TapState) : (s.onTap f).pwr = s.pwr := rfl
@[simp] theorem State.onTap_trc (s : State) (f : TapState → TapState) : (s.onTap f).trc = s.trc := rfl
@[simp] theorem State.onTap_pending (s : State) (f : TapState → TapState) : (s.onTap f).pending = s.pending := rfl

/-! #### `State.onCad` -/
@[simp] theorem State.onCad_build (s : State) (f : Cadence → Cadence) : (s.onCad f).build = s.build := rfl
@[simp] theorem State.onCad_blk (s : State) (f : Cadence → Cadence) : (s.onCad f).blk = s.blk := rfl
@[simp] theorem State.onCad_rst (s : State) (f : Cadence → Cadence) : (s.onCad f).rst = s.rst := rfl
@[simp] theorem State.onCad_tclk (s : State) (f : Cadence → Cadence) : (s.onCad f).tclk = s.tclk := rfl
@[simp] theorem State.onCad_free (s : State) (f : Cadence → Cadence) : (s.onCad f).free = s.free := rfl
@[simp] theorem State.onCad_dict (s : State) (f : Cadence → Cadence) : (s.onCad f).dict = s.dict := rfl
@[simp] theorem State.onCad_revoked (s : State) (f : Cadence → Cadence) : (s.onCad f).revoked = s.revoked := rfl
@[simp] theorem State.onCad_ports (s : State) (f : Cadence → Cadence) : (s.onCad f).ports = s.ports := rfl
@[simp] theorem State.onCad_hcp (s : State) (f : Cadence → Cadence) : (s.onCad f).hcp = s.hcp := rfl
@[simp] theorem State.onCad_pmi (s : State) (f : Cadence → Cadence) : (s.onCad f).pmi = s.pmi := rfl
@[simp] theorem State.onCad_i3c (s : State) (f : Cadence → Cadence) : (s.onCad f).i3c = s.i3c := rfl
@[simp] theorem State.onCad_tap (s : State) (f : Cadence → Cadence) : (s.onCad f).tap = s.tap := rfl
@[simp] theorem State.onCad_ont (s : State) (f : Cadence → Cadence) : (s.onCad f).ont = s.ont := rfl
@[simp] theorem State.onCad_cad (s : State) (f : Cadence → Cadence) : (s.onCad f).cad = f s.cad := rfl
@[simp] theorem State.onCad_flt (s : State) (f : Cadence → Cadence) : (s.onCad f).flt = s.flt := rfl
@[simp] theorem State.onCad_xlt (s : State) (f : Cadence → Cadence) : (s.onCad f).xlt = s.xlt := rfl
@[simp] theorem State.onCad_mem (s : State) (f : Cadence → Cadence) : (s.onCad f).mem = s.mem := rfl
@[simp] theorem State.onCad_memPoison (s : State) (f : Cadence → Cadence) : (s.onCad f).memPoison = s.memPoison := rfl
@[simp] theorem State.onCad_memAnswers (s : State) (f : Cadence → Cadence) : (s.onCad f).memAnswers = s.memAnswers := rfl
@[simp] theorem State.onCad_spad (s : State) (f : Cadence → Cadence) : (s.onCad f).spad = s.spad := rfl
@[simp] theorem State.onCad_spadWritten (s : State) (f : Cadence → Cadence) : (s.onCad f).spadWritten = s.spadWritten := rfl
@[simp] theorem State.onCad_spadPoison (s : State) (f : Cadence → Cadence) : (s.onCad f).spadPoison = s.spadPoison := rfl
@[simp] theorem State.onCad_sems (s : State) (f : Cadence → Cadence) : (s.onCad f).sems = s.sems := rfl
@[simp] theorem State.onCad_counters (s : State) (f : Cadence → Cadence) : (s.onCad f).counters = s.counters := rfl
@[simp] theorem State.onCad_links (s : State) (f : Cadence → Cadence) : (s.onCad f).links = s.links := rfl
@[simp] theorem State.onCad_pkt (s : State) (f : Cadence → Cadence) : (s.onCad f).pkt = s.pkt := rfl
@[simp] theorem State.onCad_rmt (s : State) (f : Cadence → Cadence) : (s.onCad f).rmt = s.rmt := rfl
@[simp] theorem State.onCad_cores (s : State) (f : Cadence → Cadence) : (s.onCad f).cores = s.cores := rfl
@[simp] theorem State.onCad_far (s : State) (f : Cadence → Cadence) : (s.onCad f).far = s.far := rfl
@[simp] theorem State.onCad_ctxs (s : State) (f : Cadence → Cadence) : (s.onCad f).ctxs = s.ctxs := rfl
@[simp] theorem State.onCad_disp (s : State) (f : Cadence → Cadence) : (s.onCad f).disp = s.disp := rfl
@[simp] theorem State.onCad_pwr (s : State) (f : Cadence → Cadence) : (s.onCad f).pwr = s.pwr := rfl
@[simp] theorem State.onCad_trc (s : State) (f : Cadence → Cadence) : (s.onCad f).trc = s.trc := rfl
@[simp] theorem State.onCad_pending (s : State) (f : Cadence → Cadence) : (s.onCad f).pending = s.pending := rfl

/-! #### `State.onRst` -/
@[simp] theorem State.onRst_build (s : State) (f : ResetState → ResetState) : (s.onRst f).build = s.build := rfl
@[simp] theorem State.onRst_blk (s : State) (f : ResetState → ResetState) : (s.onRst f).blk = s.blk := rfl
@[simp] theorem State.onRst_rst (s : State) (f : ResetState → ResetState) : (s.onRst f).rst = f s.rst := rfl
@[simp] theorem State.onRst_tclk (s : State) (f : ResetState → ResetState) : (s.onRst f).tclk = s.tclk := rfl
@[simp] theorem State.onRst_free (s : State) (f : ResetState → ResetState) : (s.onRst f).free = s.free := rfl
@[simp] theorem State.onRst_dict (s : State) (f : ResetState → ResetState) : (s.onRst f).dict = s.dict := rfl
@[simp] theorem State.onRst_revoked (s : State) (f : ResetState → ResetState) : (s.onRst f).revoked = s.revoked := rfl
@[simp] theorem State.onRst_ports (s : State) (f : ResetState → ResetState) : (s.onRst f).ports = s.ports := rfl
@[simp] theorem State.onRst_hcp (s : State) (f : ResetState → ResetState) : (s.onRst f).hcp = s.hcp := rfl
@[simp] theorem State.onRst_pmi (s : State) (f : ResetState → ResetState) : (s.onRst f).pmi = s.pmi := rfl
@[simp] theorem State.onRst_i3c (s : State) (f : ResetState → ResetState) : (s.onRst f).i3c = s.i3c := rfl
@[simp] theorem State.onRst_tap (s : State) (f : ResetState → ResetState) : (s.onRst f).tap = s.tap := rfl
@[simp] theorem State.onRst_ont (s : State) (f : ResetState → ResetState) : (s.onRst f).ont = s.ont := rfl
@[simp] theorem State.onRst_cad (s : State) (f : ResetState → ResetState) : (s.onRst f).cad = s.cad := rfl
@[simp] theorem State.onRst_flt (s : State) (f : ResetState → ResetState) : (s.onRst f).flt = s.flt := rfl
@[simp] theorem State.onRst_xlt (s : State) (f : ResetState → ResetState) : (s.onRst f).xlt = s.xlt := rfl
@[simp] theorem State.onRst_mem (s : State) (f : ResetState → ResetState) : (s.onRst f).mem = s.mem := rfl
@[simp] theorem State.onRst_memPoison (s : State) (f : ResetState → ResetState) : (s.onRst f).memPoison = s.memPoison := rfl
@[simp] theorem State.onRst_memAnswers (s : State) (f : ResetState → ResetState) : (s.onRst f).memAnswers = s.memAnswers := rfl
@[simp] theorem State.onRst_spad (s : State) (f : ResetState → ResetState) : (s.onRst f).spad = s.spad := rfl
@[simp] theorem State.onRst_spadWritten (s : State) (f : ResetState → ResetState) : (s.onRst f).spadWritten = s.spadWritten := rfl
@[simp] theorem State.onRst_spadPoison (s : State) (f : ResetState → ResetState) : (s.onRst f).spadPoison = s.spadPoison := rfl
@[simp] theorem State.onRst_sems (s : State) (f : ResetState → ResetState) : (s.onRst f).sems = s.sems := rfl
@[simp] theorem State.onRst_counters (s : State) (f : ResetState → ResetState) : (s.onRst f).counters = s.counters := rfl
@[simp] theorem State.onRst_links (s : State) (f : ResetState → ResetState) : (s.onRst f).links = s.links := rfl
@[simp] theorem State.onRst_pkt (s : State) (f : ResetState → ResetState) : (s.onRst f).pkt = s.pkt := rfl
@[simp] theorem State.onRst_rmt (s : State) (f : ResetState → ResetState) : (s.onRst f).rmt = s.rmt := rfl
@[simp] theorem State.onRst_cores (s : State) (f : ResetState → ResetState) : (s.onRst f).cores = s.cores := rfl
@[simp] theorem State.onRst_far (s : State) (f : ResetState → ResetState) : (s.onRst f).far = s.far := rfl
@[simp] theorem State.onRst_ctxs (s : State) (f : ResetState → ResetState) : (s.onRst f).ctxs = s.ctxs := rfl
@[simp] theorem State.onRst_disp (s : State) (f : ResetState → ResetState) : (s.onRst f).disp = s.disp := rfl
@[simp] theorem State.onRst_pwr (s : State) (f : ResetState → ResetState) : (s.onRst f).pwr = s.pwr := rfl
@[simp] theorem State.onRst_trc (s : State) (f : ResetState → ResetState) : (s.onRst f).trc = s.trc := rfl
@[simp] theorem State.onRst_pending (s : State) (f : ResetState → ResetState) : (s.onRst f).pending = s.pending := rfl

/-! #### `State.onFar` -/
@[simp] theorem State.onFar_build (s : State) (f : FarState → FarState) : (s.onFar f).build = s.build := rfl
@[simp] theorem State.onFar_blk (s : State) (f : FarState → FarState) : (s.onFar f).blk = s.blk := rfl
@[simp] theorem State.onFar_rst (s : State) (f : FarState → FarState) : (s.onFar f).rst = s.rst := rfl
@[simp] theorem State.onFar_tclk (s : State) (f : FarState → FarState) : (s.onFar f).tclk = s.tclk := rfl
@[simp] theorem State.onFar_free (s : State) (f : FarState → FarState) : (s.onFar f).free = s.free := rfl
@[simp] theorem State.onFar_dict (s : State) (f : FarState → FarState) : (s.onFar f).dict = s.dict := rfl
@[simp] theorem State.onFar_revoked (s : State) (f : FarState → FarState) : (s.onFar f).revoked = s.revoked := rfl
@[simp] theorem State.onFar_ports (s : State) (f : FarState → FarState) : (s.onFar f).ports = s.ports := rfl
@[simp] theorem State.onFar_hcp (s : State) (f : FarState → FarState) : (s.onFar f).hcp = s.hcp := rfl
@[simp] theorem State.onFar_pmi (s : State) (f : FarState → FarState) : (s.onFar f).pmi = s.pmi := rfl
@[simp] theorem State.onFar_i3c (s : State) (f : FarState → FarState) : (s.onFar f).i3c = s.i3c := rfl
@[simp] theorem State.onFar_tap (s : State) (f : FarState → FarState) : (s.onFar f).tap = s.tap := rfl
@[simp] theorem State.onFar_ont (s : State) (f : FarState → FarState) : (s.onFar f).ont = s.ont := rfl
@[simp] theorem State.onFar_cad (s : State) (f : FarState → FarState) : (s.onFar f).cad = s.cad := rfl
@[simp] theorem State.onFar_flt (s : State) (f : FarState → FarState) : (s.onFar f).flt = s.flt := rfl
@[simp] theorem State.onFar_xlt (s : State) (f : FarState → FarState) : (s.onFar f).xlt = s.xlt := rfl
@[simp] theorem State.onFar_mem (s : State) (f : FarState → FarState) : (s.onFar f).mem = s.mem := rfl
@[simp] theorem State.onFar_memPoison (s : State) (f : FarState → FarState) : (s.onFar f).memPoison = s.memPoison := rfl
@[simp] theorem State.onFar_memAnswers (s : State) (f : FarState → FarState) : (s.onFar f).memAnswers = s.memAnswers := rfl
@[simp] theorem State.onFar_spad (s : State) (f : FarState → FarState) : (s.onFar f).spad = s.spad := rfl
@[simp] theorem State.onFar_spadWritten (s : State) (f : FarState → FarState) : (s.onFar f).spadWritten = s.spadWritten := rfl
@[simp] theorem State.onFar_spadPoison (s : State) (f : FarState → FarState) : (s.onFar f).spadPoison = s.spadPoison := rfl
@[simp] theorem State.onFar_sems (s : State) (f : FarState → FarState) : (s.onFar f).sems = s.sems := rfl
@[simp] theorem State.onFar_counters (s : State) (f : FarState → FarState) : (s.onFar f).counters = s.counters := rfl
@[simp] theorem State.onFar_links (s : State) (f : FarState → FarState) : (s.onFar f).links = s.links := rfl
@[simp] theorem State.onFar_pkt (s : State) (f : FarState → FarState) : (s.onFar f).pkt = s.pkt := rfl
@[simp] theorem State.onFar_rmt (s : State) (f : FarState → FarState) : (s.onFar f).rmt = s.rmt := rfl
@[simp] theorem State.onFar_cores (s : State) (f : FarState → FarState) : (s.onFar f).cores = s.cores := rfl
@[simp] theorem State.onFar_far (s : State) (f : FarState → FarState) : (s.onFar f).far = f s.far := rfl
@[simp] theorem State.onFar_ctxs (s : State) (f : FarState → FarState) : (s.onFar f).ctxs = s.ctxs := rfl
@[simp] theorem State.onFar_disp (s : State) (f : FarState → FarState) : (s.onFar f).disp = s.disp := rfl
@[simp] theorem State.onFar_pwr (s : State) (f : FarState → FarState) : (s.onFar f).pwr = s.pwr := rfl
@[simp] theorem State.onFar_trc (s : State) (f : FarState → FarState) : (s.onFar f).trc = s.trc := rfl
@[simp] theorem State.onFar_pending (s : State) (f : FarState → FarState) : (s.onFar f).pending = s.pending := rfl

/-! #### `State.onDisp` -/
@[simp] theorem State.onDisp_build (s : State) (f : DispState → DispState) : (s.onDisp f).build = s.build := rfl
@[simp] theorem State.onDisp_blk (s : State) (f : DispState → DispState) : (s.onDisp f).blk = s.blk := rfl
@[simp] theorem State.onDisp_rst (s : State) (f : DispState → DispState) : (s.onDisp f).rst = s.rst := rfl
@[simp] theorem State.onDisp_tclk (s : State) (f : DispState → DispState) : (s.onDisp f).tclk = s.tclk := rfl
@[simp] theorem State.onDisp_free (s : State) (f : DispState → DispState) : (s.onDisp f).free = s.free := rfl
@[simp] theorem State.onDisp_dict (s : State) (f : DispState → DispState) : (s.onDisp f).dict = s.dict := rfl
@[simp] theorem State.onDisp_revoked (s : State) (f : DispState → DispState) : (s.onDisp f).revoked = s.revoked := rfl
@[simp] theorem State.onDisp_ports (s : State) (f : DispState → DispState) : (s.onDisp f).ports = s.ports := rfl
@[simp] theorem State.onDisp_hcp (s : State) (f : DispState → DispState) : (s.onDisp f).hcp = s.hcp := rfl
@[simp] theorem State.onDisp_pmi (s : State) (f : DispState → DispState) : (s.onDisp f).pmi = s.pmi := rfl
@[simp] theorem State.onDisp_i3c (s : State) (f : DispState → DispState) : (s.onDisp f).i3c = s.i3c := rfl
@[simp] theorem State.onDisp_tap (s : State) (f : DispState → DispState) : (s.onDisp f).tap = s.tap := rfl
@[simp] theorem State.onDisp_ont (s : State) (f : DispState → DispState) : (s.onDisp f).ont = s.ont := rfl
@[simp] theorem State.onDisp_cad (s : State) (f : DispState → DispState) : (s.onDisp f).cad = s.cad := rfl
@[simp] theorem State.onDisp_flt (s : State) (f : DispState → DispState) : (s.onDisp f).flt = s.flt := rfl
@[simp] theorem State.onDisp_xlt (s : State) (f : DispState → DispState) : (s.onDisp f).xlt = s.xlt := rfl
@[simp] theorem State.onDisp_mem (s : State) (f : DispState → DispState) : (s.onDisp f).mem = s.mem := rfl
@[simp] theorem State.onDisp_memPoison (s : State) (f : DispState → DispState) : (s.onDisp f).memPoison = s.memPoison := rfl
@[simp] theorem State.onDisp_memAnswers (s : State) (f : DispState → DispState) : (s.onDisp f).memAnswers = s.memAnswers := rfl
@[simp] theorem State.onDisp_spad (s : State) (f : DispState → DispState) : (s.onDisp f).spad = s.spad := rfl
@[simp] theorem State.onDisp_spadWritten (s : State) (f : DispState → DispState) : (s.onDisp f).spadWritten = s.spadWritten := rfl
@[simp] theorem State.onDisp_spadPoison (s : State) (f : DispState → DispState) : (s.onDisp f).spadPoison = s.spadPoison := rfl
@[simp] theorem State.onDisp_sems (s : State) (f : DispState → DispState) : (s.onDisp f).sems = s.sems := rfl
@[simp] theorem State.onDisp_counters (s : State) (f : DispState → DispState) : (s.onDisp f).counters = s.counters := rfl
@[simp] theorem State.onDisp_links (s : State) (f : DispState → DispState) : (s.onDisp f).links = s.links := rfl
@[simp] theorem State.onDisp_pkt (s : State) (f : DispState → DispState) : (s.onDisp f).pkt = s.pkt := rfl
@[simp] theorem State.onDisp_rmt (s : State) (f : DispState → DispState) : (s.onDisp f).rmt = s.rmt := rfl
@[simp] theorem State.onDisp_cores (s : State) (f : DispState → DispState) : (s.onDisp f).cores = s.cores := rfl
@[simp] theorem State.onDisp_far (s : State) (f : DispState → DispState) : (s.onDisp f).far = s.far := rfl
@[simp] theorem State.onDisp_ctxs (s : State) (f : DispState → DispState) : (s.onDisp f).ctxs = s.ctxs := rfl
@[simp] theorem State.onDisp_disp (s : State) (f : DispState → DispState) : (s.onDisp f).disp = f s.disp := rfl
@[simp] theorem State.onDisp_pwr (s : State) (f : DispState → DispState) : (s.onDisp f).pwr = s.pwr := rfl
@[simp] theorem State.onDisp_trc (s : State) (f : DispState → DispState) : (s.onDisp f).trc = s.trc := rfl
@[simp] theorem State.onDisp_pending (s : State) (f : DispState → DispState) : (s.onDisp f).pending = s.pending := rfl

/-! #### `State.onPwr` -/
@[simp] theorem State.onPwr_build (s : State) (f : PowerState → PowerState) : (s.onPwr f).build = s.build := rfl
@[simp] theorem State.onPwr_blk (s : State) (f : PowerState → PowerState) : (s.onPwr f).blk = s.blk := rfl
@[simp] theorem State.onPwr_rst (s : State) (f : PowerState → PowerState) : (s.onPwr f).rst = s.rst := rfl
@[simp] theorem State.onPwr_tclk (s : State) (f : PowerState → PowerState) : (s.onPwr f).tclk = s.tclk := rfl
@[simp] theorem State.onPwr_free (s : State) (f : PowerState → PowerState) : (s.onPwr f).free = s.free := rfl
@[simp] theorem State.onPwr_dict (s : State) (f : PowerState → PowerState) : (s.onPwr f).dict = s.dict := rfl
@[simp] theorem State.onPwr_revoked (s : State) (f : PowerState → PowerState) : (s.onPwr f).revoked = s.revoked := rfl
@[simp] theorem State.onPwr_ports (s : State) (f : PowerState → PowerState) : (s.onPwr f).ports = s.ports := rfl
@[simp] theorem State.onPwr_hcp (s : State) (f : PowerState → PowerState) : (s.onPwr f).hcp = s.hcp := rfl
@[simp] theorem State.onPwr_pmi (s : State) (f : PowerState → PowerState) : (s.onPwr f).pmi = s.pmi := rfl
@[simp] theorem State.onPwr_i3c (s : State) (f : PowerState → PowerState) : (s.onPwr f).i3c = s.i3c := rfl
@[simp] theorem State.onPwr_tap (s : State) (f : PowerState → PowerState) : (s.onPwr f).tap = s.tap := rfl
@[simp] theorem State.onPwr_ont (s : State) (f : PowerState → PowerState) : (s.onPwr f).ont = s.ont := rfl
@[simp] theorem State.onPwr_cad (s : State) (f : PowerState → PowerState) : (s.onPwr f).cad = s.cad := rfl
@[simp] theorem State.onPwr_flt (s : State) (f : PowerState → PowerState) : (s.onPwr f).flt = s.flt := rfl
@[simp] theorem State.onPwr_xlt (s : State) (f : PowerState → PowerState) : (s.onPwr f).xlt = s.xlt := rfl
@[simp] theorem State.onPwr_mem (s : State) (f : PowerState → PowerState) : (s.onPwr f).mem = s.mem := rfl
@[simp] theorem State.onPwr_memPoison (s : State) (f : PowerState → PowerState) : (s.onPwr f).memPoison = s.memPoison := rfl
@[simp] theorem State.onPwr_memAnswers (s : State) (f : PowerState → PowerState) : (s.onPwr f).memAnswers = s.memAnswers := rfl
@[simp] theorem State.onPwr_spad (s : State) (f : PowerState → PowerState) : (s.onPwr f).spad = s.spad := rfl
@[simp] theorem State.onPwr_spadWritten (s : State) (f : PowerState → PowerState) : (s.onPwr f).spadWritten = s.spadWritten := rfl
@[simp] theorem State.onPwr_spadPoison (s : State) (f : PowerState → PowerState) : (s.onPwr f).spadPoison = s.spadPoison := rfl
@[simp] theorem State.onPwr_sems (s : State) (f : PowerState → PowerState) : (s.onPwr f).sems = s.sems := rfl
@[simp] theorem State.onPwr_counters (s : State) (f : PowerState → PowerState) : (s.onPwr f).counters = s.counters := rfl
@[simp] theorem State.onPwr_links (s : State) (f : PowerState → PowerState) : (s.onPwr f).links = s.links := rfl
@[simp] theorem State.onPwr_pkt (s : State) (f : PowerState → PowerState) : (s.onPwr f).pkt = s.pkt := rfl
@[simp] theorem State.onPwr_rmt (s : State) (f : PowerState → PowerState) : (s.onPwr f).rmt = s.rmt := rfl
@[simp] theorem State.onPwr_cores (s : State) (f : PowerState → PowerState) : (s.onPwr f).cores = s.cores := rfl
@[simp] theorem State.onPwr_far (s : State) (f : PowerState → PowerState) : (s.onPwr f).far = s.far := rfl
@[simp] theorem State.onPwr_ctxs (s : State) (f : PowerState → PowerState) : (s.onPwr f).ctxs = s.ctxs := rfl
@[simp] theorem State.onPwr_disp (s : State) (f : PowerState → PowerState) : (s.onPwr f).disp = s.disp := rfl
@[simp] theorem State.onPwr_pwr (s : State) (f : PowerState → PowerState) : (s.onPwr f).pwr = f s.pwr := rfl
@[simp] theorem State.onPwr_trc (s : State) (f : PowerState → PowerState) : (s.onPwr f).trc = s.trc := rfl
@[simp] theorem State.onPwr_pending (s : State) (f : PowerState → PowerState) : (s.onPwr f).pending = s.pending := rfl

/-! #### `State.onTrc` -/
@[simp] theorem State.onTrc_build (s : State) (f : TraceState → TraceState) : (s.onTrc f).build = s.build := rfl
@[simp] theorem State.onTrc_blk (s : State) (f : TraceState → TraceState) : (s.onTrc f).blk = s.blk := rfl
@[simp] theorem State.onTrc_rst (s : State) (f : TraceState → TraceState) : (s.onTrc f).rst = s.rst := rfl
@[simp] theorem State.onTrc_tclk (s : State) (f : TraceState → TraceState) : (s.onTrc f).tclk = s.tclk := rfl
@[simp] theorem State.onTrc_free (s : State) (f : TraceState → TraceState) : (s.onTrc f).free = s.free := rfl
@[simp] theorem State.onTrc_dict (s : State) (f : TraceState → TraceState) : (s.onTrc f).dict = s.dict := rfl
@[simp] theorem State.onTrc_revoked (s : State) (f : TraceState → TraceState) : (s.onTrc f).revoked = s.revoked := rfl
@[simp] theorem State.onTrc_ports (s : State) (f : TraceState → TraceState) : (s.onTrc f).ports = s.ports := rfl
@[simp] theorem State.onTrc_hcp (s : State) (f : TraceState → TraceState) : (s.onTrc f).hcp = s.hcp := rfl
@[simp] theorem State.onTrc_pmi (s : State) (f : TraceState → TraceState) : (s.onTrc f).pmi = s.pmi := rfl
@[simp] theorem State.onTrc_i3c (s : State) (f : TraceState → TraceState) : (s.onTrc f).i3c = s.i3c := rfl
@[simp] theorem State.onTrc_tap (s : State) (f : TraceState → TraceState) : (s.onTrc f).tap = s.tap := rfl
@[simp] theorem State.onTrc_ont (s : State) (f : TraceState → TraceState) : (s.onTrc f).ont = s.ont := rfl
@[simp] theorem State.onTrc_cad (s : State) (f : TraceState → TraceState) : (s.onTrc f).cad = s.cad := rfl
@[simp] theorem State.onTrc_flt (s : State) (f : TraceState → TraceState) : (s.onTrc f).flt = s.flt := rfl
@[simp] theorem State.onTrc_xlt (s : State) (f : TraceState → TraceState) : (s.onTrc f).xlt = s.xlt := rfl
@[simp] theorem State.onTrc_mem (s : State) (f : TraceState → TraceState) : (s.onTrc f).mem = s.mem := rfl
@[simp] theorem State.onTrc_memPoison (s : State) (f : TraceState → TraceState) : (s.onTrc f).memPoison = s.memPoison := rfl
@[simp] theorem State.onTrc_memAnswers (s : State) (f : TraceState → TraceState) : (s.onTrc f).memAnswers = s.memAnswers := rfl
@[simp] theorem State.onTrc_spad (s : State) (f : TraceState → TraceState) : (s.onTrc f).spad = s.spad := rfl
@[simp] theorem State.onTrc_spadWritten (s : State) (f : TraceState → TraceState) : (s.onTrc f).spadWritten = s.spadWritten := rfl
@[simp] theorem State.onTrc_spadPoison (s : State) (f : TraceState → TraceState) : (s.onTrc f).spadPoison = s.spadPoison := rfl
@[simp] theorem State.onTrc_sems (s : State) (f : TraceState → TraceState) : (s.onTrc f).sems = s.sems := rfl
@[simp] theorem State.onTrc_counters (s : State) (f : TraceState → TraceState) : (s.onTrc f).counters = s.counters := rfl
@[simp] theorem State.onTrc_links (s : State) (f : TraceState → TraceState) : (s.onTrc f).links = s.links := rfl
@[simp] theorem State.onTrc_pkt (s : State) (f : TraceState → TraceState) : (s.onTrc f).pkt = s.pkt := rfl
@[simp] theorem State.onTrc_rmt (s : State) (f : TraceState → TraceState) : (s.onTrc f).rmt = s.rmt := rfl
@[simp] theorem State.onTrc_cores (s : State) (f : TraceState → TraceState) : (s.onTrc f).cores = s.cores := rfl
@[simp] theorem State.onTrc_far (s : State) (f : TraceState → TraceState) : (s.onTrc f).far = s.far := rfl
@[simp] theorem State.onTrc_ctxs (s : State) (f : TraceState → TraceState) : (s.onTrc f).ctxs = s.ctxs := rfl
@[simp] theorem State.onTrc_disp (s : State) (f : TraceState → TraceState) : (s.onTrc f).disp = s.disp := rfl
@[simp] theorem State.onTrc_pwr (s : State) (f : TraceState → TraceState) : (s.onTrc f).pwr = s.pwr := rfl
@[simp] theorem State.onTrc_trc (s : State) (f : TraceState → TraceState) : (s.onTrc f).trc = f s.trc := rfl
@[simp] theorem State.onTrc_pending (s : State) (f : TraceState → TraceState) : (s.onTrc f).pending = s.pending := rfl

/-! #### `State.onCore` -/
@[simp] theorem State.onCore_build (s : State) (n : Nat) (f : CoreState → CoreState) : (s.onCore n f).build = s.build := rfl
@[simp] theorem State.onCore_blk (s : State) (n : Nat) (f : CoreState → CoreState) : (s.onCore n f).blk = s.blk := rfl
@[simp] theorem State.onCore_rst (s : State) (n : Nat) (f : CoreState → CoreState) : (s.onCore n f).rst = s.rst := rfl
@[simp] theorem State.onCore_tclk (s : State) (n : Nat) (f : CoreState → CoreState) : (s.onCore n f).tclk = s.tclk := rfl
@[simp] theorem State.onCore_free (s : State) (n : Nat) (f : CoreState → CoreState) : (s.onCore n f).free = s.free := rfl
@[simp] theorem State.onCore_dict (s : State) (n : Nat) (f : CoreState → CoreState) : (s.onCore n f).dict = s.dict := rfl
@[simp] theorem State.onCore_revoked (s : State) (n : Nat) (f : CoreState → CoreState) : (s.onCore n f).revoked = s.revoked := rfl
@[simp] theorem State.onCore_ports (s : State) (n : Nat) (f : CoreState → CoreState) : (s.onCore n f).ports = s.ports := rfl
@[simp] theorem State.onCore_hcp (s : State) (n : Nat) (f : CoreState → CoreState) : (s.onCore n f).hcp = s.hcp := rfl
@[simp] theorem State.onCore_pmi (s : State) (n : Nat) (f : CoreState → CoreState) : (s.onCore n f).pmi = s.pmi := rfl
@[simp] theorem State.onCore_i3c (s : State) (n : Nat) (f : CoreState → CoreState) : (s.onCore n f).i3c = s.i3c := rfl
@[simp] theorem State.onCore_tap (s : State) (n : Nat) (f : CoreState → CoreState) : (s.onCore n f).tap = s.tap := rfl
@[simp] theorem State.onCore_ont (s : State) (n : Nat) (f : CoreState → CoreState) : (s.onCore n f).ont = s.ont := rfl
@[simp] theorem State.onCore_cad (s : State) (n : Nat) (f : CoreState → CoreState) : (s.onCore n f).cad = s.cad := rfl
@[simp] theorem State.onCore_flt (s : State) (n : Nat) (f : CoreState → CoreState) : (s.onCore n f).flt = s.flt := rfl
@[simp] theorem State.onCore_xlt (s : State) (n : Nat) (f : CoreState → CoreState) : (s.onCore n f).xlt = s.xlt := rfl
@[simp] theorem State.onCore_mem (s : State) (n : Nat) (f : CoreState → CoreState) : (s.onCore n f).mem = s.mem := rfl
@[simp] theorem State.onCore_memPoison (s : State) (n : Nat) (f : CoreState → CoreState) : (s.onCore n f).memPoison = s.memPoison := rfl
@[simp] theorem State.onCore_memAnswers (s : State) (n : Nat) (f : CoreState → CoreState) : (s.onCore n f).memAnswers = s.memAnswers := rfl
@[simp] theorem State.onCore_spad (s : State) (n : Nat) (f : CoreState → CoreState) : (s.onCore n f).spad = s.spad := rfl
@[simp] theorem State.onCore_spadWritten (s : State) (n : Nat) (f : CoreState → CoreState) : (s.onCore n f).spadWritten = s.spadWritten := rfl
@[simp] theorem State.onCore_spadPoison (s : State) (n : Nat) (f : CoreState → CoreState) : (s.onCore n f).spadPoison = s.spadPoison := rfl
@[simp] theorem State.onCore_sems (s : State) (n : Nat) (f : CoreState → CoreState) : (s.onCore n f).sems = s.sems := rfl
@[simp] theorem State.onCore_counters (s : State) (n : Nat) (f : CoreState → CoreState) : (s.onCore n f).counters = s.counters := rfl
@[simp] theorem State.onCore_links (s : State) (n : Nat) (f : CoreState → CoreState) : (s.onCore n f).links = s.links := rfl
@[simp] theorem State.onCore_pkt (s : State) (n : Nat) (f : CoreState → CoreState) : (s.onCore n f).pkt = s.pkt := rfl
@[simp] theorem State.onCore_rmt (s : State) (n : Nat) (f : CoreState → CoreState) : (s.onCore n f).rmt = s.rmt := rfl
@[simp] theorem State.onCore_cores (s : State) (n : Nat) (f : CoreState → CoreState) : (s.onCore n f).cores = Table.put s.cores CoreState.reset n (f (s.core n)) := rfl
@[simp] theorem State.onCore_far (s : State) (n : Nat) (f : CoreState → CoreState) : (s.onCore n f).far = s.far := rfl
@[simp] theorem State.onCore_ctxs (s : State) (n : Nat) (f : CoreState → CoreState) : (s.onCore n f).ctxs = s.ctxs := rfl
@[simp] theorem State.onCore_disp (s : State) (n : Nat) (f : CoreState → CoreState) : (s.onCore n f).disp = s.disp := rfl
@[simp] theorem State.onCore_pwr (s : State) (n : Nat) (f : CoreState → CoreState) : (s.onCore n f).pwr = s.pwr := rfl
@[simp] theorem State.onCore_trc (s : State) (n : Nat) (f : CoreState → CoreState) : (s.onCore n f).trc = s.trc := rfl
@[simp] theorem State.onCore_pending (s : State) (n : Nat) (f : CoreState → CoreState) : (s.onCore n f).pending = s.pending := rfl

/-! #### `State.onCtx` -/
@[simp] theorem State.onCtx_build (s : State) (c : Nat) (f : CtxState → CtxState) : (s.onCtx c f).build = s.build := rfl
@[simp] theorem State.onCtx_blk (s : State) (c : Nat) (f : CtxState → CtxState) : (s.onCtx c f).blk = s.blk := rfl
@[simp] theorem State.onCtx_rst (s : State) (c : Nat) (f : CtxState → CtxState) : (s.onCtx c f).rst = s.rst := rfl
@[simp] theorem State.onCtx_tclk (s : State) (c : Nat) (f : CtxState → CtxState) : (s.onCtx c f).tclk = s.tclk := rfl
@[simp] theorem State.onCtx_free (s : State) (c : Nat) (f : CtxState → CtxState) : (s.onCtx c f).free = s.free := rfl
@[simp] theorem State.onCtx_dict (s : State) (c : Nat) (f : CtxState → CtxState) : (s.onCtx c f).dict = s.dict := rfl
@[simp] theorem State.onCtx_revoked (s : State) (c : Nat) (f : CtxState → CtxState) : (s.onCtx c f).revoked = s.revoked := rfl
@[simp] theorem State.onCtx_ports (s : State) (c : Nat) (f : CtxState → CtxState) : (s.onCtx c f).ports = s.ports := rfl
@[simp] theorem State.onCtx_hcp (s : State) (c : Nat) (f : CtxState → CtxState) : (s.onCtx c f).hcp = s.hcp := rfl
@[simp] theorem State.onCtx_pmi (s : State) (c : Nat) (f : CtxState → CtxState) : (s.onCtx c f).pmi = s.pmi := rfl
@[simp] theorem State.onCtx_i3c (s : State) (c : Nat) (f : CtxState → CtxState) : (s.onCtx c f).i3c = s.i3c := rfl
@[simp] theorem State.onCtx_tap (s : State) (c : Nat) (f : CtxState → CtxState) : (s.onCtx c f).tap = s.tap := rfl
@[simp] theorem State.onCtx_ont (s : State) (c : Nat) (f : CtxState → CtxState) : (s.onCtx c f).ont = s.ont := rfl
@[simp] theorem State.onCtx_cad (s : State) (c : Nat) (f : CtxState → CtxState) : (s.onCtx c f).cad = s.cad := rfl
@[simp] theorem State.onCtx_flt (s : State) (c : Nat) (f : CtxState → CtxState) : (s.onCtx c f).flt = s.flt := rfl
@[simp] theorem State.onCtx_xlt (s : State) (c : Nat) (f : CtxState → CtxState) : (s.onCtx c f).xlt = s.xlt := rfl
@[simp] theorem State.onCtx_mem (s : State) (c : Nat) (f : CtxState → CtxState) : (s.onCtx c f).mem = s.mem := rfl
@[simp] theorem State.onCtx_memPoison (s : State) (c : Nat) (f : CtxState → CtxState) : (s.onCtx c f).memPoison = s.memPoison := rfl
@[simp] theorem State.onCtx_memAnswers (s : State) (c : Nat) (f : CtxState → CtxState) : (s.onCtx c f).memAnswers = s.memAnswers := rfl
@[simp] theorem State.onCtx_spad (s : State) (c : Nat) (f : CtxState → CtxState) : (s.onCtx c f).spad = s.spad := rfl
@[simp] theorem State.onCtx_spadWritten (s : State) (c : Nat) (f : CtxState → CtxState) : (s.onCtx c f).spadWritten = s.spadWritten := rfl
@[simp] theorem State.onCtx_spadPoison (s : State) (c : Nat) (f : CtxState → CtxState) : (s.onCtx c f).spadPoison = s.spadPoison := rfl
@[simp] theorem State.onCtx_sems (s : State) (c : Nat) (f : CtxState → CtxState) : (s.onCtx c f).sems = s.sems := rfl
@[simp] theorem State.onCtx_counters (s : State) (c : Nat) (f : CtxState → CtxState) : (s.onCtx c f).counters = s.counters := rfl
@[simp] theorem State.onCtx_links (s : State) (c : Nat) (f : CtxState → CtxState) : (s.onCtx c f).links = s.links := rfl
@[simp] theorem State.onCtx_pkt (s : State) (c : Nat) (f : CtxState → CtxState) : (s.onCtx c f).pkt = s.pkt := rfl
@[simp] theorem State.onCtx_rmt (s : State) (c : Nat) (f : CtxState → CtxState) : (s.onCtx c f).rmt = s.rmt := rfl
@[simp] theorem State.onCtx_cores (s : State) (c : Nat) (f : CtxState → CtxState) : (s.onCtx c f).cores = s.cores := rfl
@[simp] theorem State.onCtx_far (s : State) (c : Nat) (f : CtxState → CtxState) : (s.onCtx c f).far = s.far := rfl
@[simp] theorem State.onCtx_ctxs (s : State) (c : Nat) (f : CtxState → CtxState) : (s.onCtx c f).ctxs = Table.put s.ctxs CtxState.idle c (f (s.ctx c)) := rfl
@[simp] theorem State.onCtx_disp (s : State) (c : Nat) (f : CtxState → CtxState) : (s.onCtx c f).disp = s.disp := rfl
@[simp] theorem State.onCtx_pwr (s : State) (c : Nat) (f : CtxState → CtxState) : (s.onCtx c f).pwr = s.pwr := rfl
@[simp] theorem State.onCtx_trc (s : State) (c : Nat) (f : CtxState → CtxState) : (s.onCtx c f).trc = s.trc := rfl
@[simp] theorem State.onCtx_pending (s : State) (c : Nat) (f : CtxState → CtxState) : (s.onCtx c f).pending = s.pending := rfl

/-! #### `State.onLink` -/
@[simp] theorem State.onLink_build (s : State) (n : Nat) (f : LinkState → LinkState) : (s.onLink n f).build = s.build := rfl
@[simp] theorem State.onLink_blk (s : State) (n : Nat) (f : LinkState → LinkState) : (s.onLink n f).blk = s.blk := rfl
@[simp] theorem State.onLink_rst (s : State) (n : Nat) (f : LinkState → LinkState) : (s.onLink n f).rst = s.rst := rfl
@[simp] theorem State.onLink_tclk (s : State) (n : Nat) (f : LinkState → LinkState) : (s.onLink n f).tclk = s.tclk := rfl
@[simp] theorem State.onLink_free (s : State) (n : Nat) (f : LinkState → LinkState) : (s.onLink n f).free = s.free := rfl
@[simp] theorem State.onLink_dict (s : State) (n : Nat) (f : LinkState → LinkState) : (s.onLink n f).dict = s.dict := rfl
@[simp] theorem State.onLink_revoked (s : State) (n : Nat) (f : LinkState → LinkState) : (s.onLink n f).revoked = s.revoked := rfl
@[simp] theorem State.onLink_ports (s : State) (n : Nat) (f : LinkState → LinkState) : (s.onLink n f).ports = s.ports := rfl
@[simp] theorem State.onLink_hcp (s : State) (n : Nat) (f : LinkState → LinkState) : (s.onLink n f).hcp = s.hcp := rfl
@[simp] theorem State.onLink_pmi (s : State) (n : Nat) (f : LinkState → LinkState) : (s.onLink n f).pmi = s.pmi := rfl
@[simp] theorem State.onLink_i3c (s : State) (n : Nat) (f : LinkState → LinkState) : (s.onLink n f).i3c = s.i3c := rfl
@[simp] theorem State.onLink_tap (s : State) (n : Nat) (f : LinkState → LinkState) : (s.onLink n f).tap = s.tap := rfl
@[simp] theorem State.onLink_ont (s : State) (n : Nat) (f : LinkState → LinkState) : (s.onLink n f).ont = s.ont := rfl
@[simp] theorem State.onLink_cad (s : State) (n : Nat) (f : LinkState → LinkState) : (s.onLink n f).cad = s.cad := rfl
@[simp] theorem State.onLink_flt (s : State) (n : Nat) (f : LinkState → LinkState) : (s.onLink n f).flt = s.flt := rfl
@[simp] theorem State.onLink_xlt (s : State) (n : Nat) (f : LinkState → LinkState) : (s.onLink n f).xlt = s.xlt := rfl
@[simp] theorem State.onLink_mem (s : State) (n : Nat) (f : LinkState → LinkState) : (s.onLink n f).mem = s.mem := rfl
@[simp] theorem State.onLink_memPoison (s : State) (n : Nat) (f : LinkState → LinkState) : (s.onLink n f).memPoison = s.memPoison := rfl
@[simp] theorem State.onLink_memAnswers (s : State) (n : Nat) (f : LinkState → LinkState) : (s.onLink n f).memAnswers = s.memAnswers := rfl
@[simp] theorem State.onLink_spad (s : State) (n : Nat) (f : LinkState → LinkState) : (s.onLink n f).spad = s.spad := rfl
@[simp] theorem State.onLink_spadWritten (s : State) (n : Nat) (f : LinkState → LinkState) : (s.onLink n f).spadWritten = s.spadWritten := rfl
@[simp] theorem State.onLink_spadPoison (s : State) (n : Nat) (f : LinkState → LinkState) : (s.onLink n f).spadPoison = s.spadPoison := rfl
@[simp] theorem State.onLink_sems (s : State) (n : Nat) (f : LinkState → LinkState) : (s.onLink n f).sems = s.sems := rfl
@[simp] theorem State.onLink_counters (s : State) (n : Nat) (f : LinkState → LinkState) : (s.onLink n f).counters = s.counters := rfl
@[simp] theorem State.onLink_links (s : State) (n : Nat) (f : LinkState → LinkState) : (s.onLink n f).links = Table.put s.links LinkState.reset n (f (s.link n)) := rfl
@[simp] theorem State.onLink_pkt (s : State) (n : Nat) (f : LinkState → LinkState) : (s.onLink n f).pkt = s.pkt := rfl
@[simp] theorem State.onLink_rmt (s : State) (n : Nat) (f : LinkState → LinkState) : (s.onLink n f).rmt = s.rmt := rfl
@[simp] theorem State.onLink_cores (s : State) (n : Nat) (f : LinkState → LinkState) : (s.onLink n f).cores = s.cores := rfl
@[simp] theorem State.onLink_far (s : State) (n : Nat) (f : LinkState → LinkState) : (s.onLink n f).far = s.far := rfl
@[simp] theorem State.onLink_ctxs (s : State) (n : Nat) (f : LinkState → LinkState) : (s.onLink n f).ctxs = s.ctxs := rfl
@[simp] theorem State.onLink_disp (s : State) (n : Nat) (f : LinkState → LinkState) : (s.onLink n f).disp = s.disp := rfl
@[simp] theorem State.onLink_pwr (s : State) (n : Nat) (f : LinkState → LinkState) : (s.onLink n f).pwr = s.pwr := rfl
@[simp] theorem State.onLink_trc (s : State) (n : Nat) (f : LinkState → LinkState) : (s.onLink n f).trc = s.trc := rfl
@[simp] theorem State.onLink_pending (s : State) (n : Nat) (f : LinkState → LinkState) : (s.onLink n f).pending = s.pending := rfl

/-! #### `State.onPort` -/
@[simp] theorem State.onPort_build (s : State) (n : Nat) (f : PortState → PortState) : (s.onPort n f).build = s.build := rfl
@[simp] theorem State.onPort_blk (s : State) (n : Nat) (f : PortState → PortState) : (s.onPort n f).blk = s.blk := rfl
@[simp] theorem State.onPort_rst (s : State) (n : Nat) (f : PortState → PortState) : (s.onPort n f).rst = s.rst := rfl
@[simp] theorem State.onPort_tclk (s : State) (n : Nat) (f : PortState → PortState) : (s.onPort n f).tclk = s.tclk := rfl
@[simp] theorem State.onPort_free (s : State) (n : Nat) (f : PortState → PortState) : (s.onPort n f).free = s.free := rfl
@[simp] theorem State.onPort_dict (s : State) (n : Nat) (f : PortState → PortState) : (s.onPort n f).dict = s.dict := rfl
@[simp] theorem State.onPort_revoked (s : State) (n : Nat) (f : PortState → PortState) : (s.onPort n f).revoked = s.revoked := rfl
@[simp] theorem State.onPort_ports (s : State) (n : Nat) (f : PortState → PortState) : (s.onPort n f).ports = Table.put s.ports PortState.idle n (f (s.port n)) := rfl
@[simp] theorem State.onPort_hcp (s : State) (n : Nat) (f : PortState → PortState) : (s.onPort n f).hcp = s.hcp := rfl
@[simp] theorem State.onPort_pmi (s : State) (n : Nat) (f : PortState → PortState) : (s.onPort n f).pmi = s.pmi := rfl
@[simp] theorem State.onPort_i3c (s : State) (n : Nat) (f : PortState → PortState) : (s.onPort n f).i3c = s.i3c := rfl
@[simp] theorem State.onPort_tap (s : State) (n : Nat) (f : PortState → PortState) : (s.onPort n f).tap = s.tap := rfl
@[simp] theorem State.onPort_ont (s : State) (n : Nat) (f : PortState → PortState) : (s.onPort n f).ont = s.ont := rfl
@[simp] theorem State.onPort_cad (s : State) (n : Nat) (f : PortState → PortState) : (s.onPort n f).cad = s.cad := rfl
@[simp] theorem State.onPort_flt (s : State) (n : Nat) (f : PortState → PortState) : (s.onPort n f).flt = s.flt := rfl
@[simp] theorem State.onPort_xlt (s : State) (n : Nat) (f : PortState → PortState) : (s.onPort n f).xlt = s.xlt := rfl
@[simp] theorem State.onPort_mem (s : State) (n : Nat) (f : PortState → PortState) : (s.onPort n f).mem = s.mem := rfl
@[simp] theorem State.onPort_memPoison (s : State) (n : Nat) (f : PortState → PortState) : (s.onPort n f).memPoison = s.memPoison := rfl
@[simp] theorem State.onPort_memAnswers (s : State) (n : Nat) (f : PortState → PortState) : (s.onPort n f).memAnswers = s.memAnswers := rfl
@[simp] theorem State.onPort_spad (s : State) (n : Nat) (f : PortState → PortState) : (s.onPort n f).spad = s.spad := rfl
@[simp] theorem State.onPort_spadWritten (s : State) (n : Nat) (f : PortState → PortState) : (s.onPort n f).spadWritten = s.spadWritten := rfl
@[simp] theorem State.onPort_spadPoison (s : State) (n : Nat) (f : PortState → PortState) : (s.onPort n f).spadPoison = s.spadPoison := rfl
@[simp] theorem State.onPort_sems (s : State) (n : Nat) (f : PortState → PortState) : (s.onPort n f).sems = s.sems := rfl
@[simp] theorem State.onPort_counters (s : State) (n : Nat) (f : PortState → PortState) : (s.onPort n f).counters = s.counters := rfl
@[simp] theorem State.onPort_links (s : State) (n : Nat) (f : PortState → PortState) : (s.onPort n f).links = s.links := rfl
@[simp] theorem State.onPort_pkt (s : State) (n : Nat) (f : PortState → PortState) : (s.onPort n f).pkt = s.pkt := rfl
@[simp] theorem State.onPort_rmt (s : State) (n : Nat) (f : PortState → PortState) : (s.onPort n f).rmt = s.rmt := rfl
@[simp] theorem State.onPort_cores (s : State) (n : Nat) (f : PortState → PortState) : (s.onPort n f).cores = s.cores := rfl
@[simp] theorem State.onPort_far (s : State) (n : Nat) (f : PortState → PortState) : (s.onPort n f).far = s.far := rfl
@[simp] theorem State.onPort_ctxs (s : State) (n : Nat) (f : PortState → PortState) : (s.onPort n f).ctxs = s.ctxs := rfl
@[simp] theorem State.onPort_disp (s : State) (n : Nat) (f : PortState → PortState) : (s.onPort n f).disp = s.disp := rfl
@[simp] theorem State.onPort_pwr (s : State) (n : Nat) (f : PortState → PortState) : (s.onPort n f).pwr = s.pwr := rfl
@[simp] theorem State.onPort_trc (s : State) (n : Nat) (f : PortState → PortState) : (s.onPort n f).trc = s.trc := rfl
@[simp] theorem State.onPort_pending (s : State) (n : Nat) (f : PortState → PortState) : (s.onPort n f).pending = s.pending := rfl

/-! #### `State.setReg` -/
@[simp] theorem State.setReg_build (s : State) (k v : Nat) : (s.setReg k v).build = s.build := rfl
@[simp] theorem State.setReg_blk (s : State) (k v : Nat) : (s.setReg k v).blk = s.blk := rfl
@[simp] theorem State.setReg_rst (s : State) (k v : Nat) : (s.setReg k v).rst = s.rst := rfl
@[simp] theorem State.setReg_tclk (s : State) (k v : Nat) : (s.setReg k v).tclk = s.tclk := rfl
@[simp] theorem State.setReg_free (s : State) (k v : Nat) : (s.setReg k v).free = s.free := rfl
@[simp] theorem State.setReg_dict (s : State) (k v : Nat) : (s.setReg k v).dict = if v = s.regDefault k then Table.erase s.dict k else Table.insert s.dict k v := rfl
@[simp] theorem State.setReg_revoked (s : State) (k v : Nat) : (s.setReg k v).revoked = s.revoked := rfl
@[simp] theorem State.setReg_ports (s : State) (k v : Nat) : (s.setReg k v).ports = s.ports := rfl
@[simp] theorem State.setReg_hcp (s : State) (k v : Nat) : (s.setReg k v).hcp = s.hcp := rfl
@[simp] theorem State.setReg_pmi (s : State) (k v : Nat) : (s.setReg k v).pmi = s.pmi := rfl
@[simp] theorem State.setReg_i3c (s : State) (k v : Nat) : (s.setReg k v).i3c = s.i3c := rfl
@[simp] theorem State.setReg_tap (s : State) (k v : Nat) : (s.setReg k v).tap = s.tap := rfl
@[simp] theorem State.setReg_ont (s : State) (k v : Nat) : (s.setReg k v).ont = s.ont := rfl
@[simp] theorem State.setReg_cad (s : State) (k v : Nat) : (s.setReg k v).cad = s.cad := rfl
@[simp] theorem State.setReg_flt (s : State) (k v : Nat) : (s.setReg k v).flt = s.flt := rfl
@[simp] theorem State.setReg_xlt (s : State) (k v : Nat) : (s.setReg k v).xlt = s.xlt := rfl
@[simp] theorem State.setReg_mem (s : State) (k v : Nat) : (s.setReg k v).mem = s.mem := rfl
@[simp] theorem State.setReg_memPoison (s : State) (k v : Nat) : (s.setReg k v).memPoison = s.memPoison := rfl
@[simp] theorem State.setReg_memAnswers (s : State) (k v : Nat) : (s.setReg k v).memAnswers = s.memAnswers := rfl
@[simp] theorem State.setReg_spad (s : State) (k v : Nat) : (s.setReg k v).spad = s.spad := rfl
@[simp] theorem State.setReg_spadWritten (s : State) (k v : Nat) : (s.setReg k v).spadWritten = s.spadWritten := rfl
@[simp] theorem State.setReg_spadPoison (s : State) (k v : Nat) : (s.setReg k v).spadPoison = s.spadPoison := rfl
@[simp] theorem State.setReg_sems (s : State) (k v : Nat) : (s.setReg k v).sems = s.sems := rfl
@[simp] theorem State.setReg_counters (s : State) (k v : Nat) : (s.setReg k v).counters = s.counters := rfl
@[simp] theorem State.setReg_links (s : State) (k v : Nat) : (s.setReg k v).links = s.links := rfl
@[simp] theorem State.setReg_pkt (s : State) (k v : Nat) : (s.setReg k v).pkt = s.pkt := rfl
@[simp] theorem State.setReg_rmt (s : State) (k v : Nat) : (s.setReg k v).rmt = s.rmt := rfl
@[simp] theorem State.setReg_cores (s : State) (k v : Nat) : (s.setReg k v).cores = s.cores := rfl
@[simp] theorem State.setReg_far (s : State) (k v : Nat) : (s.setReg k v).far = s.far := rfl
@[simp] theorem State.setReg_ctxs (s : State) (k v : Nat) : (s.setReg k v).ctxs = s.ctxs := rfl
@[simp] theorem State.setReg_disp (s : State) (k v : Nat) : (s.setReg k v).disp = s.disp := rfl
@[simp] theorem State.setReg_pwr (s : State) (k v : Nat) : (s.setReg k v).pwr = s.pwr := rfl
@[simp] theorem State.setReg_trc (s : State) (k v : Nat) : (s.setReg k v).trc = s.trc := rfl
@[simp] theorem State.setReg_pending (s : State) (k v : Nat) : (s.setReg k v).pending = s.pending := rfl

/-! #### `State.putSem` -/
@[simp] theorem State.putSem_build (s : State) (n : Nat) (v : Word32) : (s.putSem n v).build = s.build := rfl
@[simp] theorem State.putSem_blk (s : State) (n : Nat) (v : Word32) : (s.putSem n v).blk = s.blk := rfl
@[simp] theorem State.putSem_rst (s : State) (n : Nat) (v : Word32) : (s.putSem n v).rst = s.rst := rfl
@[simp] theorem State.putSem_tclk (s : State) (n : Nat) (v : Word32) : (s.putSem n v).tclk = s.tclk := rfl
@[simp] theorem State.putSem_free (s : State) (n : Nat) (v : Word32) : (s.putSem n v).free = s.free := rfl
@[simp] theorem State.putSem_dict (s : State) (n : Nat) (v : Word32) : (s.putSem n v).dict = s.dict := rfl
@[simp] theorem State.putSem_revoked (s : State) (n : Nat) (v : Word32) : (s.putSem n v).revoked = s.revoked := rfl
@[simp] theorem State.putSem_ports (s : State) (n : Nat) (v : Word32) : (s.putSem n v).ports = s.ports := rfl
@[simp] theorem State.putSem_hcp (s : State) (n : Nat) (v : Word32) : (s.putSem n v).hcp = s.hcp := rfl
@[simp] theorem State.putSem_pmi (s : State) (n : Nat) (v : Word32) : (s.putSem n v).pmi = s.pmi := rfl
@[simp] theorem State.putSem_i3c (s : State) (n : Nat) (v : Word32) : (s.putSem n v).i3c = s.i3c := rfl
@[simp] theorem State.putSem_tap (s : State) (n : Nat) (v : Word32) : (s.putSem n v).tap = s.tap := rfl
@[simp] theorem State.putSem_ont (s : State) (n : Nat) (v : Word32) : (s.putSem n v).ont = s.ont := rfl
@[simp] theorem State.putSem_cad (s : State) (n : Nat) (v : Word32) : (s.putSem n v).cad = s.cad := rfl
@[simp] theorem State.putSem_flt (s : State) (n : Nat) (v : Word32) : (s.putSem n v).flt = s.flt := rfl
@[simp] theorem State.putSem_xlt (s : State) (n : Nat) (v : Word32) : (s.putSem n v).xlt = s.xlt := rfl
@[simp] theorem State.putSem_mem (s : State) (n : Nat) (v : Word32) : (s.putSem n v).mem = s.mem := rfl
@[simp] theorem State.putSem_memPoison (s : State) (n : Nat) (v : Word32) : (s.putSem n v).memPoison = s.memPoison := rfl
@[simp] theorem State.putSem_memAnswers (s : State) (n : Nat) (v : Word32) : (s.putSem n v).memAnswers = s.memAnswers := rfl
@[simp] theorem State.putSem_spad (s : State) (n : Nat) (v : Word32) : (s.putSem n v).spad = s.spad := rfl
@[simp] theorem State.putSem_spadWritten (s : State) (n : Nat) (v : Word32) : (s.putSem n v).spadWritten = s.spadWritten := rfl
@[simp] theorem State.putSem_spadPoison (s : State) (n : Nat) (v : Word32) : (s.putSem n v).spadPoison = s.spadPoison := rfl
@[simp] theorem State.putSem_sems (s : State) (n : Nat) (v : Word32) : (s.putSem n v).sems = Table.put s.sems 0 n v := rfl
@[simp] theorem State.putSem_counters (s : State) (n : Nat) (v : Word32) : (s.putSem n v).counters = s.counters := rfl
@[simp] theorem State.putSem_links (s : State) (n : Nat) (v : Word32) : (s.putSem n v).links = s.links := rfl
@[simp] theorem State.putSem_pkt (s : State) (n : Nat) (v : Word32) : (s.putSem n v).pkt = s.pkt := rfl
@[simp] theorem State.putSem_rmt (s : State) (n : Nat) (v : Word32) : (s.putSem n v).rmt = s.rmt := rfl
@[simp] theorem State.putSem_cores (s : State) (n : Nat) (v : Word32) : (s.putSem n v).cores = s.cores := rfl
@[simp] theorem State.putSem_far (s : State) (n : Nat) (v : Word32) : (s.putSem n v).far = s.far := rfl
@[simp] theorem State.putSem_ctxs (s : State) (n : Nat) (v : Word32) : (s.putSem n v).ctxs = s.ctxs := rfl
@[simp] theorem State.putSem_disp (s : State) (n : Nat) (v : Word32) : (s.putSem n v).disp = s.disp := rfl
@[simp] theorem State.putSem_pwr (s : State) (n : Nat) (v : Word32) : (s.putSem n v).pwr = s.pwr := rfl
@[simp] theorem State.putSem_trc (s : State) (n : Nat) (v : Word32) : (s.putSem n v).trc = s.trc := rfl
@[simp] theorem State.putSem_pending (s : State) (n : Nat) (v : Word32) : (s.putSem n v).pending = s.pending := rfl

/-! #### `State.putCounter` -/
@[simp] theorem State.putCounter_build (s : State) (n : Nat) (v : Word64) : (s.putCounter n v).build = s.build := rfl
@[simp] theorem State.putCounter_blk (s : State) (n : Nat) (v : Word64) : (s.putCounter n v).blk = s.blk := rfl
@[simp] theorem State.putCounter_rst (s : State) (n : Nat) (v : Word64) : (s.putCounter n v).rst = s.rst := rfl
@[simp] theorem State.putCounter_tclk (s : State) (n : Nat) (v : Word64) : (s.putCounter n v).tclk = s.tclk := rfl
@[simp] theorem State.putCounter_free (s : State) (n : Nat) (v : Word64) : (s.putCounter n v).free = s.free := rfl
@[simp] theorem State.putCounter_dict (s : State) (n : Nat) (v : Word64) : (s.putCounter n v).dict = s.dict := rfl
@[simp] theorem State.putCounter_revoked (s : State) (n : Nat) (v : Word64) : (s.putCounter n v).revoked = s.revoked := rfl
@[simp] theorem State.putCounter_ports (s : State) (n : Nat) (v : Word64) : (s.putCounter n v).ports = s.ports := rfl
@[simp] theorem State.putCounter_hcp (s : State) (n : Nat) (v : Word64) : (s.putCounter n v).hcp = s.hcp := rfl
@[simp] theorem State.putCounter_pmi (s : State) (n : Nat) (v : Word64) : (s.putCounter n v).pmi = s.pmi := rfl
@[simp] theorem State.putCounter_i3c (s : State) (n : Nat) (v : Word64) : (s.putCounter n v).i3c = s.i3c := rfl
@[simp] theorem State.putCounter_tap (s : State) (n : Nat) (v : Word64) : (s.putCounter n v).tap = s.tap := rfl
@[simp] theorem State.putCounter_ont (s : State) (n : Nat) (v : Word64) : (s.putCounter n v).ont = s.ont := rfl
@[simp] theorem State.putCounter_cad (s : State) (n : Nat) (v : Word64) : (s.putCounter n v).cad = s.cad := rfl
@[simp] theorem State.putCounter_flt (s : State) (n : Nat) (v : Word64) : (s.putCounter n v).flt = s.flt := rfl
@[simp] theorem State.putCounter_xlt (s : State) (n : Nat) (v : Word64) : (s.putCounter n v).xlt = s.xlt := rfl
@[simp] theorem State.putCounter_mem (s : State) (n : Nat) (v : Word64) : (s.putCounter n v).mem = s.mem := rfl
@[simp] theorem State.putCounter_memPoison (s : State) (n : Nat) (v : Word64) : (s.putCounter n v).memPoison = s.memPoison := rfl
@[simp] theorem State.putCounter_memAnswers (s : State) (n : Nat) (v : Word64) : (s.putCounter n v).memAnswers = s.memAnswers := rfl
@[simp] theorem State.putCounter_spad (s : State) (n : Nat) (v : Word64) : (s.putCounter n v).spad = s.spad := rfl
@[simp] theorem State.putCounter_spadWritten (s : State) (n : Nat) (v : Word64) : (s.putCounter n v).spadWritten = s.spadWritten := rfl
@[simp] theorem State.putCounter_spadPoison (s : State) (n : Nat) (v : Word64) : (s.putCounter n v).spadPoison = s.spadPoison := rfl
@[simp] theorem State.putCounter_sems (s : State) (n : Nat) (v : Word64) : (s.putCounter n v).sems = s.sems := rfl
@[simp] theorem State.putCounter_counters (s : State) (n : Nat) (v : Word64) : (s.putCounter n v).counters = Table.put s.counters 0 n v := rfl
@[simp] theorem State.putCounter_links (s : State) (n : Nat) (v : Word64) : (s.putCounter n v).links = s.links := rfl
@[simp] theorem State.putCounter_pkt (s : State) (n : Nat) (v : Word64) : (s.putCounter n v).pkt = s.pkt := rfl
@[simp] theorem State.putCounter_rmt (s : State) (n : Nat) (v : Word64) : (s.putCounter n v).rmt = s.rmt := rfl
@[simp] theorem State.putCounter_cores (s : State) (n : Nat) (v : Word64) : (s.putCounter n v).cores = s.cores := rfl
@[simp] theorem State.putCounter_far (s : State) (n : Nat) (v : Word64) : (s.putCounter n v).far = s.far := rfl
@[simp] theorem State.putCounter_ctxs (s : State) (n : Nat) (v : Word64) : (s.putCounter n v).ctxs = s.ctxs := rfl
@[simp] theorem State.putCounter_disp (s : State) (n : Nat) (v : Word64) : (s.putCounter n v).disp = s.disp := rfl
@[simp] theorem State.putCounter_pwr (s : State) (n : Nat) (v : Word64) : (s.putCounter n v).pwr = s.pwr := rfl
@[simp] theorem State.putCounter_trc (s : State) (n : Nat) (v : Word64) : (s.putCounter n v).trc = s.trc := rfl
@[simp] theorem State.putCounter_pending (s : State) (n : Nat) (v : Word64) : (s.putCounter n v).pending = s.pending := rfl

/-! #### `State.setVector` -/
@[simp] theorem State.setVector_build (s : State) (v : Nat) (x : Vector) : (s.setVector v x).build = s.build := rfl
@[simp] theorem State.setVector_blk (s : State) (v : Nat) (x : Vector) : (s.setVector v x).blk = s.blk := rfl
@[simp] theorem State.setVector_rst (s : State) (v : Nat) (x : Vector) : (s.setVector v x).rst = s.rst := rfl
@[simp] theorem State.setVector_tclk (s : State) (v : Nat) (x : Vector) : (s.setVector v x).tclk = s.tclk := rfl
@[simp] theorem State.setVector_free (s : State) (v : Nat) (x : Vector) : (s.setVector v x).free = s.free := rfl
@[simp] theorem State.setVector_dict (s : State) (v : Nat) (x : Vector) : (s.setVector v x).dict = s.dict := rfl
@[simp] theorem State.setVector_revoked (s : State) (v : Nat) (x : Vector) : (s.setVector v x).revoked = s.revoked := rfl
@[simp] theorem State.setVector_ports (s : State) (v : Nat) (x : Vector) : (s.setVector v x).ports = s.ports := rfl
@[simp] theorem State.setVector_hcp (s : State) (v : Nat) (x : Vector) : (s.setVector v x).hcp = { s.hcp with vectors := Table.put s.hcp.vectors Vector.reset v x } := rfl
@[simp] theorem State.setVector_pmi (s : State) (v : Nat) (x : Vector) : (s.setVector v x).pmi = s.pmi := rfl
@[simp] theorem State.setVector_i3c (s : State) (v : Nat) (x : Vector) : (s.setVector v x).i3c = s.i3c := rfl
@[simp] theorem State.setVector_tap (s : State) (v : Nat) (x : Vector) : (s.setVector v x).tap = s.tap := rfl
@[simp] theorem State.setVector_ont (s : State) (v : Nat) (x : Vector) : (s.setVector v x).ont = s.ont := rfl
@[simp] theorem State.setVector_cad (s : State) (v : Nat) (x : Vector) : (s.setVector v x).cad = s.cad := rfl
@[simp] theorem State.setVector_flt (s : State) (v : Nat) (x : Vector) : (s.setVector v x).flt = s.flt := rfl
@[simp] theorem State.setVector_xlt (s : State) (v : Nat) (x : Vector) : (s.setVector v x).xlt = s.xlt := rfl
@[simp] theorem State.setVector_mem (s : State) (v : Nat) (x : Vector) : (s.setVector v x).mem = s.mem := rfl
@[simp] theorem State.setVector_memPoison (s : State) (v : Nat) (x : Vector) : (s.setVector v x).memPoison = s.memPoison := rfl
@[simp] theorem State.setVector_memAnswers (s : State) (v : Nat) (x : Vector) : (s.setVector v x).memAnswers = s.memAnswers := rfl
@[simp] theorem State.setVector_spad (s : State) (v : Nat) (x : Vector) : (s.setVector v x).spad = s.spad := rfl
@[simp] theorem State.setVector_spadWritten (s : State) (v : Nat) (x : Vector) : (s.setVector v x).spadWritten = s.spadWritten := rfl
@[simp] theorem State.setVector_spadPoison (s : State) (v : Nat) (x : Vector) : (s.setVector v x).spadPoison = s.spadPoison := rfl
@[simp] theorem State.setVector_sems (s : State) (v : Nat) (x : Vector) : (s.setVector v x).sems = s.sems := rfl
@[simp] theorem State.setVector_counters (s : State) (v : Nat) (x : Vector) : (s.setVector v x).counters = s.counters := rfl
@[simp] theorem State.setVector_links (s : State) (v : Nat) (x : Vector) : (s.setVector v x).links = s.links := rfl
@[simp] theorem State.setVector_pkt (s : State) (v : Nat) (x : Vector) : (s.setVector v x).pkt = s.pkt := rfl
@[simp] theorem State.setVector_rmt (s : State) (v : Nat) (x : Vector) : (s.setVector v x).rmt = s.rmt := rfl
@[simp] theorem State.setVector_cores (s : State) (v : Nat) (x : Vector) : (s.setVector v x).cores = s.cores := rfl
@[simp] theorem State.setVector_far (s : State) (v : Nat) (x : Vector) : (s.setVector v x).far = s.far := rfl
@[simp] theorem State.setVector_ctxs (s : State) (v : Nat) (x : Vector) : (s.setVector v x).ctxs = s.ctxs := rfl
@[simp] theorem State.setVector_disp (s : State) (v : Nat) (x : Vector) : (s.setVector v x).disp = s.disp := rfl
@[simp] theorem State.setVector_pwr (s : State) (v : Nat) (x : Vector) : (s.setVector v x).pwr = s.pwr := rfl
@[simp] theorem State.setVector_trc (s : State) (v : Nat) (x : Vector) : (s.setVector v x).trc = s.trc := rfl
@[simp] theorem State.setVector_pending (s : State) (v : Nat) (x : Vector) : (s.setVector v x).pending = s.pending := rfl

/-! #### `State.setRegAt` -/
@[simp] theorem State.setRegAt_build (s : State) (k n v : Nat) : (s.setRegAt k n v).build = s.build := rfl
@[simp] theorem State.setRegAt_blk (s : State) (k n v : Nat) : (s.setRegAt k n v).blk = s.blk := rfl
@[simp] theorem State.setRegAt_rst (s : State) (k n v : Nat) : (s.setRegAt k n v).rst = s.rst := rfl
@[simp] theorem State.setRegAt_tclk (s : State) (k n v : Nat) : (s.setRegAt k n v).tclk = s.tclk := rfl
@[simp] theorem State.setRegAt_free (s : State) (k n v : Nat) : (s.setRegAt k n v).free = s.free := rfl
@[simp] theorem State.setRegAt_revoked (s : State) (k n v : Nat) : (s.setRegAt k n v).revoked = s.revoked := rfl
@[simp] theorem State.setRegAt_ports (s : State) (k n v : Nat) : (s.setRegAt k n v).ports = s.ports := rfl
@[simp] theorem State.setRegAt_hcp (s : State) (k n v : Nat) : (s.setRegAt k n v).hcp = s.hcp := rfl
@[simp] theorem State.setRegAt_pmi (s : State) (k n v : Nat) : (s.setRegAt k n v).pmi = s.pmi := rfl
@[simp] theorem State.setRegAt_i3c (s : State) (k n v : Nat) : (s.setRegAt k n v).i3c = s.i3c := rfl
@[simp] theorem State.setRegAt_tap (s : State) (k n v : Nat) : (s.setRegAt k n v).tap = s.tap := rfl
@[simp] theorem State.setRegAt_ont (s : State) (k n v : Nat) : (s.setRegAt k n v).ont = s.ont := rfl
@[simp] theorem State.setRegAt_cad (s : State) (k n v : Nat) : (s.setRegAt k n v).cad = s.cad := rfl
@[simp] theorem State.setRegAt_flt (s : State) (k n v : Nat) : (s.setRegAt k n v).flt = s.flt := rfl
@[simp] theorem State.setRegAt_xlt (s : State) (k n v : Nat) : (s.setRegAt k n v).xlt = s.xlt := rfl
@[simp] theorem State.setRegAt_mem (s : State) (k n v : Nat) : (s.setRegAt k n v).mem = s.mem := rfl
@[simp] theorem State.setRegAt_memPoison (s : State) (k n v : Nat) : (s.setRegAt k n v).memPoison = s.memPoison := rfl
@[simp] theorem State.setRegAt_memAnswers (s : State) (k n v : Nat) : (s.setRegAt k n v).memAnswers = s.memAnswers := rfl
@[simp] theorem State.setRegAt_spad (s : State) (k n v : Nat) : (s.setRegAt k n v).spad = s.spad := rfl
@[simp] theorem State.setRegAt_spadWritten (s : State) (k n v : Nat) : (s.setRegAt k n v).spadWritten = s.spadWritten := rfl
@[simp] theorem State.setRegAt_spadPoison (s : State) (k n v : Nat) : (s.setRegAt k n v).spadPoison = s.spadPoison := rfl
@[simp] theorem State.setRegAt_sems (s : State) (k n v : Nat) : (s.setRegAt k n v).sems = s.sems := rfl
@[simp] theorem State.setRegAt_counters (s : State) (k n v : Nat) : (s.setRegAt k n v).counters = s.counters := rfl
@[simp] theorem State.setRegAt_links (s : State) (k n v : Nat) : (s.setRegAt k n v).links = s.links := rfl
@[simp] theorem State.setRegAt_pkt (s : State) (k n v : Nat) : (s.setRegAt k n v).pkt = s.pkt := rfl
@[simp] theorem State.setRegAt_rmt (s : State) (k n v : Nat) : (s.setRegAt k n v).rmt = s.rmt := rfl
@[simp] theorem State.setRegAt_cores (s : State) (k n v : Nat) : (s.setRegAt k n v).cores = s.cores := rfl
@[simp] theorem State.setRegAt_far (s : State) (k n v : Nat) : (s.setRegAt k n v).far = s.far := rfl
@[simp] theorem State.setRegAt_ctxs (s : State) (k n v : Nat) : (s.setRegAt k n v).ctxs = s.ctxs := rfl
@[simp] theorem State.setRegAt_disp (s : State) (k n v : Nat) : (s.setRegAt k n v).disp = s.disp := rfl
@[simp] theorem State.setRegAt_pwr (s : State) (k n v : Nat) : (s.setRegAt k n v).pwr = s.pwr := rfl
@[simp] theorem State.setRegAt_trc (s : State) (k n v : Nat) : (s.setRegAt k n v).trc = s.trc := rfl
@[simp] theorem State.setRegAt_pending (s : State) (k n v : Nat) : (s.setRegAt k n v).pending = s.pending := rfl

/-! #### `State.bumpBy` -/
@[simp] theorem State.bumpBy_build (s : State) (k w n : Nat) : (s.bumpBy k w n).build = s.build := rfl
@[simp] theorem State.bumpBy_blk (s : State) (k w n : Nat) : (s.bumpBy k w n).blk = s.blk := rfl
@[simp] theorem State.bumpBy_rst (s : State) (k w n : Nat) : (s.bumpBy k w n).rst = s.rst := rfl
@[simp] theorem State.bumpBy_tclk (s : State) (k w n : Nat) : (s.bumpBy k w n).tclk = s.tclk := rfl
@[simp] theorem State.bumpBy_free (s : State) (k w n : Nat) : (s.bumpBy k w n).free = s.free := rfl
@[simp] theorem State.bumpBy_revoked (s : State) (k w n : Nat) : (s.bumpBy k w n).revoked = s.revoked := rfl
@[simp] theorem State.bumpBy_ports (s : State) (k w n : Nat) : (s.bumpBy k w n).ports = s.ports := rfl
@[simp] theorem State.bumpBy_hcp (s : State) (k w n : Nat) : (s.bumpBy k w n).hcp = s.hcp := rfl
@[simp] theorem State.bumpBy_pmi (s : State) (k w n : Nat) : (s.bumpBy k w n).pmi = s.pmi := rfl
@[simp] theorem State.bumpBy_i3c (s : State) (k w n : Nat) : (s.bumpBy k w n).i3c = s.i3c := rfl
@[simp] theorem State.bumpBy_tap (s : State) (k w n : Nat) : (s.bumpBy k w n).tap = s.tap := rfl
@[simp] theorem State.bumpBy_ont (s : State) (k w n : Nat) : (s.bumpBy k w n).ont = s.ont := rfl
@[simp] theorem State.bumpBy_cad (s : State) (k w n : Nat) : (s.bumpBy k w n).cad = s.cad := rfl
@[simp] theorem State.bumpBy_flt (s : State) (k w n : Nat) : (s.bumpBy k w n).flt = s.flt := rfl
@[simp] theorem State.bumpBy_xlt (s : State) (k w n : Nat) : (s.bumpBy k w n).xlt = s.xlt := rfl
@[simp] theorem State.bumpBy_mem (s : State) (k w n : Nat) : (s.bumpBy k w n).mem = s.mem := rfl
@[simp] theorem State.bumpBy_memPoison (s : State) (k w n : Nat) : (s.bumpBy k w n).memPoison = s.memPoison := rfl
@[simp] theorem State.bumpBy_memAnswers (s : State) (k w n : Nat) : (s.bumpBy k w n).memAnswers = s.memAnswers := rfl
@[simp] theorem State.bumpBy_spad (s : State) (k w n : Nat) : (s.bumpBy k w n).spad = s.spad := rfl
@[simp] theorem State.bumpBy_spadWritten (s : State) (k w n : Nat) : (s.bumpBy k w n).spadWritten = s.spadWritten := rfl
@[simp] theorem State.bumpBy_spadPoison (s : State) (k w n : Nat) : (s.bumpBy k w n).spadPoison = s.spadPoison := rfl
@[simp] theorem State.bumpBy_sems (s : State) (k w n : Nat) : (s.bumpBy k w n).sems = s.sems := rfl
@[simp] theorem State.bumpBy_counters (s : State) (k w n : Nat) : (s.bumpBy k w n).counters = s.counters := rfl
@[simp] theorem State.bumpBy_links (s : State) (k w n : Nat) : (s.bumpBy k w n).links = s.links := rfl
@[simp] theorem State.bumpBy_pkt (s : State) (k w n : Nat) : (s.bumpBy k w n).pkt = s.pkt := rfl
@[simp] theorem State.bumpBy_rmt (s : State) (k w n : Nat) : (s.bumpBy k w n).rmt = s.rmt := rfl
@[simp] theorem State.bumpBy_cores (s : State) (k w n : Nat) : (s.bumpBy k w n).cores = s.cores := rfl
@[simp] theorem State.bumpBy_far (s : State) (k w n : Nat) : (s.bumpBy k w n).far = s.far := rfl
@[simp] theorem State.bumpBy_ctxs (s : State) (k w n : Nat) : (s.bumpBy k w n).ctxs = s.ctxs := rfl
@[simp] theorem State.bumpBy_disp (s : State) (k w n : Nat) : (s.bumpBy k w n).disp = s.disp := rfl
@[simp] theorem State.bumpBy_pwr (s : State) (k w n : Nat) : (s.bumpBy k w n).pwr = s.pwr := rfl
@[simp] theorem State.bumpBy_trc (s : State) (k w n : Nat) : (s.bumpBy k w n).trc = s.trc := rfl
@[simp] theorem State.bumpBy_pending (s : State) (k w n : Nat) : (s.bumpBy k w n).pending = s.pending := rfl

/-! #### `State.bump` -/
@[simp] theorem State.bump_build (s : State) (k : Nat) : (s.bump k).build = s.build := rfl
@[simp] theorem State.bump_blk (s : State) (k : Nat) : (s.bump k).blk = s.blk := rfl
@[simp] theorem State.bump_rst (s : State) (k : Nat) : (s.bump k).rst = s.rst := rfl
@[simp] theorem State.bump_tclk (s : State) (k : Nat) : (s.bump k).tclk = s.tclk := rfl
@[simp] theorem State.bump_free (s : State) (k : Nat) : (s.bump k).free = s.free := rfl
@[simp] theorem State.bump_revoked (s : State) (k : Nat) : (s.bump k).revoked = s.revoked := rfl
@[simp] theorem State.bump_ports (s : State) (k : Nat) : (s.bump k).ports = s.ports := rfl
@[simp] theorem State.bump_hcp (s : State) (k : Nat) : (s.bump k).hcp = s.hcp := rfl
@[simp] theorem State.bump_pmi (s : State) (k : Nat) : (s.bump k).pmi = s.pmi := rfl
@[simp] theorem State.bump_i3c (s : State) (k : Nat) : (s.bump k).i3c = s.i3c := rfl
@[simp] theorem State.bump_tap (s : State) (k : Nat) : (s.bump k).tap = s.tap := rfl
@[simp] theorem State.bump_ont (s : State) (k : Nat) : (s.bump k).ont = s.ont := rfl
@[simp] theorem State.bump_cad (s : State) (k : Nat) : (s.bump k).cad = s.cad := rfl
@[simp] theorem State.bump_flt (s : State) (k : Nat) : (s.bump k).flt = s.flt := rfl
@[simp] theorem State.bump_xlt (s : State) (k : Nat) : (s.bump k).xlt = s.xlt := rfl
@[simp] theorem State.bump_mem (s : State) (k : Nat) : (s.bump k).mem = s.mem := rfl
@[simp] theorem State.bump_memPoison (s : State) (k : Nat) : (s.bump k).memPoison = s.memPoison := rfl
@[simp] theorem State.bump_memAnswers (s : State) (k : Nat) : (s.bump k).memAnswers = s.memAnswers := rfl
@[simp] theorem State.bump_spad (s : State) (k : Nat) : (s.bump k).spad = s.spad := rfl
@[simp] theorem State.bump_spadWritten (s : State) (k : Nat) : (s.bump k).spadWritten = s.spadWritten := rfl
@[simp] theorem State.bump_spadPoison (s : State) (k : Nat) : (s.bump k).spadPoison = s.spadPoison := rfl
@[simp] theorem State.bump_sems (s : State) (k : Nat) : (s.bump k).sems = s.sems := rfl
@[simp] theorem State.bump_counters (s : State) (k : Nat) : (s.bump k).counters = s.counters := rfl
@[simp] theorem State.bump_links (s : State) (k : Nat) : (s.bump k).links = s.links := rfl
@[simp] theorem State.bump_pkt (s : State) (k : Nat) : (s.bump k).pkt = s.pkt := rfl
@[simp] theorem State.bump_rmt (s : State) (k : Nat) : (s.bump k).rmt = s.rmt := rfl
@[simp] theorem State.bump_cores (s : State) (k : Nat) : (s.bump k).cores = s.cores := rfl
@[simp] theorem State.bump_far (s : State) (k : Nat) : (s.bump k).far = s.far := rfl
@[simp] theorem State.bump_ctxs (s : State) (k : Nat) : (s.bump k).ctxs = s.ctxs := rfl
@[simp] theorem State.bump_disp (s : State) (k : Nat) : (s.bump k).disp = s.disp := rfl
@[simp] theorem State.bump_pwr (s : State) (k : Nat) : (s.bump k).pwr = s.pwr := rfl
@[simp] theorem State.bump_trc (s : State) (k : Nat) : (s.bump k).trc = s.trc := rfl
@[simp] theorem State.bump_pending (s : State) (k : Nat) : (s.bump k).pending = s.pending := rfl

/-! #### `State.bumpAt` -/
@[simp] theorem State.bumpAt_build (s : State) (k n : Nat) : (s.bumpAt k n).build = s.build := rfl
@[simp] theorem State.bumpAt_blk (s : State) (k n : Nat) : (s.bumpAt k n).blk = s.blk := rfl
@[simp] theorem State.bumpAt_rst (s : State) (k n : Nat) : (s.bumpAt k n).rst = s.rst := rfl
@[simp] theorem State.bumpAt_tclk (s : State) (k n : Nat) : (s.bumpAt k n).tclk = s.tclk := rfl
@[simp] theorem State.bumpAt_free (s : State) (k n : Nat) : (s.bumpAt k n).free = s.free := rfl
@[simp] theorem State.bumpAt_revoked (s : State) (k n : Nat) : (s.bumpAt k n).revoked = s.revoked := rfl
@[simp] theorem State.bumpAt_ports (s : State) (k n : Nat) : (s.bumpAt k n).ports = s.ports := rfl
@[simp] theorem State.bumpAt_hcp (s : State) (k n : Nat) : (s.bumpAt k n).hcp = s.hcp := rfl
@[simp] theorem State.bumpAt_pmi (s : State) (k n : Nat) : (s.bumpAt k n).pmi = s.pmi := rfl
@[simp] theorem State.bumpAt_i3c (s : State) (k n : Nat) : (s.bumpAt k n).i3c = s.i3c := rfl
@[simp] theorem State.bumpAt_tap (s : State) (k n : Nat) : (s.bumpAt k n).tap = s.tap := rfl
@[simp] theorem State.bumpAt_ont (s : State) (k n : Nat) : (s.bumpAt k n).ont = s.ont := rfl
@[simp] theorem State.bumpAt_cad (s : State) (k n : Nat) : (s.bumpAt k n).cad = s.cad := rfl
@[simp] theorem State.bumpAt_flt (s : State) (k n : Nat) : (s.bumpAt k n).flt = s.flt := rfl
@[simp] theorem State.bumpAt_xlt (s : State) (k n : Nat) : (s.bumpAt k n).xlt = s.xlt := rfl
@[simp] theorem State.bumpAt_mem (s : State) (k n : Nat) : (s.bumpAt k n).mem = s.mem := rfl
@[simp] theorem State.bumpAt_memPoison (s : State) (k n : Nat) : (s.bumpAt k n).memPoison = s.memPoison := rfl
@[simp] theorem State.bumpAt_memAnswers (s : State) (k n : Nat) : (s.bumpAt k n).memAnswers = s.memAnswers := rfl
@[simp] theorem State.bumpAt_spad (s : State) (k n : Nat) : (s.bumpAt k n).spad = s.spad := rfl
@[simp] theorem State.bumpAt_spadWritten (s : State) (k n : Nat) : (s.bumpAt k n).spadWritten = s.spadWritten := rfl
@[simp] theorem State.bumpAt_spadPoison (s : State) (k n : Nat) : (s.bumpAt k n).spadPoison = s.spadPoison := rfl
@[simp] theorem State.bumpAt_sems (s : State) (k n : Nat) : (s.bumpAt k n).sems = s.sems := rfl
@[simp] theorem State.bumpAt_counters (s : State) (k n : Nat) : (s.bumpAt k n).counters = s.counters := rfl
@[simp] theorem State.bumpAt_links (s : State) (k n : Nat) : (s.bumpAt k n).links = s.links := rfl
@[simp] theorem State.bumpAt_pkt (s : State) (k n : Nat) : (s.bumpAt k n).pkt = s.pkt := rfl
@[simp] theorem State.bumpAt_rmt (s : State) (k n : Nat) : (s.bumpAt k n).rmt = s.rmt := rfl
@[simp] theorem State.bumpAt_cores (s : State) (k n : Nat) : (s.bumpAt k n).cores = s.cores := rfl
@[simp] theorem State.bumpAt_far (s : State) (k n : Nat) : (s.bumpAt k n).far = s.far := rfl
@[simp] theorem State.bumpAt_ctxs (s : State) (k n : Nat) : (s.bumpAt k n).ctxs = s.ctxs := rfl
@[simp] theorem State.bumpAt_disp (s : State) (k n : Nat) : (s.bumpAt k n).disp = s.disp := rfl
@[simp] theorem State.bumpAt_pwr (s : State) (k n : Nat) : (s.bumpAt k n).pwr = s.pwr := rfl
@[simp] theorem State.bumpAt_trc (s : State) (k n : Nat) : (s.bumpAt k n).trc = s.trc := rfl
@[simp] theorem State.bumpAt_pending (s : State) (k n : Nat) : (s.bumpAt k n).pending = s.pending := rfl

end Sys2Proof.Machine
end

