-- ==== Sys2Proof/Laws/Reads.lean ====
section
/-! SUPPORT. What a write of an entry or of a unit reads back as, and what the end of a command does. -/
set_option Elab.async false
namespace Sys2Proof.Machine
open Sys2Proof Sys2Proof.Bits

variable {s t : State}

/-- The default of an entry depends on the build and the sampled strap alone. -/
theorem State.regDefault_congr (hb : t.build = s.build) (hr : t.rst.saddr = s.rst.saddr) (k : Nat) :
    t.regDefault k = s.regDefault k := by
  have he : t.entry? k = s.entry? k := by
    unfold State.entry? State.spanCount
    rw [hb]
  unfold State.regDefault
  rw [he, hb, hr]

/-- An entry reads as before where the dictionary, the build and the strap are as before. -/
theorem State.reg_congr (hd : t.dict = s.dict) (hb : t.build = s.build) (hr : t.rst.saddr = s.rst.saddr) (k : Nat) :
    t.reg k = s.reg k := by
  unfold State.reg
  rw [hd, State.regDefault_congr hb hr]

/-- A written entry reads back, and every other entry reads as before. -/
theorem State.reg_setReg (h : rising (s.dict.map Prod.fst) = true) (k v x : Nat) :
    (s.setReg k v).reg x = if x = k then v else s.reg x := by
  have hd : (s.setReg k v).regDefault x = s.regDefault x := State.regDefault_congr rfl rfl x
  unfold State.reg
  rw [hd, State.setReg_dict]
  split
  · next e =>
    rw [find?_erase_rising h]
    split
    · next hx => subst hx; exact e.symm
    · rfl
  · rw [Table.find?_insert]
    split
    · rfl
    · rfl

/-- A unit's state reads back what was put there. -/
theorem State.link_onLink (h : Table.wf LinkState.reset s.links = true) (n x : Nat) (f : LinkState → LinkState) :
    (s.onLink n f).link x = if x = n then f (s.link n) else s.link x := Table.get_put h

theorem State.core_onCore (h : Table.wf CoreState.reset s.cores = true) (n x : Nat) (f : CoreState → CoreState) :
    (s.onCore n f).core x = if x = n then f (s.core n) else s.core x := Table.get_put h

theorem State.ctx_onCtx (h : Table.wf CtxState.idle s.ctxs = true) (c x : Nat) (f : CtxState → CtxState) :
    (s.onCtx c f).ctx x = if x = c then f (s.ctx c) else s.ctx x := Table.get_put h

theorem State.port_onPort (h : Table.wf PortState.idle s.ports = true) (k x : Nat) (f : PortState → PortState) :
    (s.onPort k f).port x = if x = k then f (s.port k) else s.port x := Table.get_put h

theorem State.vector_setVector (h : Table.wf Vector.reset s.hcp.vectors = true) (v x : Nat) (y : Vector) :
    (s.setVector v y).vector x = if x = v then y else s.vector x := Table.get_put h

theorem State.sem_putSem (h : Table.wf 0 s.sems = true) (n x : Nat) (v : Word32) :
    (s.putSem n v).sem x = if x = n then v else s.sem x := Table.get_put h

theorem State.counter_putCounter (h : Table.wf 0 s.counters = true) (n x : Nat) (v : Word64) :
    (s.putCounter n v).counter x = if x = n then v else s.counter x := Table.get_put h

end Sys2Proof.Machine
end

