-- ==== Sys2Proof/Laws/Commands.lean ====
section
/-! SUPPORT. The end of a command, and commands that write an entry of the dictionary. -/
set_option Elab.async false
namespace Sys2Proof.Machine
open Sys2Proof Sys2Proof.Bits

variable {s : State}

/-- With nothing left for the end of a command, that end changes nothing. -/
theorem State.settle_of_quiet (h : s.quiet = true) : s.settle = s := by
  unfold State.settle
  rw [if_pos h]

/-- A command that passes the checks of R492 has its effect, and its status is noted. -/
theorem State.command_of_admits {via : Via} {key n v : Nat} {act : State → Status × State}
    (h : s.admits via key n v = true) :
    s.command via key n v act = (act s).2.answered (act s).1 := by
  unfold State.admits at h
  unfold State.command
  rw [Bool.and_eq_true] at h
  rw [if_neg (by rw [h.1]; decide)]
  cases hr : s.admitReq via.carrier via.level via.ctx (unitKey key n) true with
  | error x => rw [hr] at h; exact Bool.noConfusion h.2
  | ok p =>
    obtain ⟨e, m⟩ := p
    rw [hr] at h
    simp only [Bool.and_eq_true, Bool.not_eq_true', Bool.and_eq_false_iff, decide_eq_false_iff_not] at h
    obtain ⟨_, ⟨⟨hty, hrw⟩, hrange⟩, hbusy⟩ := h
    simp only [hty, if_true]
    unfold State.performWrite
    rw [if_neg (by rintro ⟨a, b⟩; rcases hrw with x | x <;> exact x (by assumption)), hrange, hbusy]
    rfl

end Sys2Proof.Machine
end

