-- ==== Sys2Proof/Laws/KeepOps.lean ====
section
/-! SUPPORT. What the operations of Ops.lean keep: a lemma for each. -/
set_option Elab.async false
namespace Sys2Proof.Machine
open Sys2Proof Sys2Proof.Bits

variable {s0 s : State}

theorem State.setVector_keep (h : Keep s0 s) : ∀ a1 a2, Keep s0 (s.setVector a1 a2) :=
  fun _ _ => Keep.hcp h (fun e => e) Table.wf_put

theorem State.queueMessage_keep (h : Keep s0 s) : ∀ a1, Keep s0 (State.queueMessage s a1) := by
  intro a1
  unfold State.queueMessage
  exact Keep.upd h

theorem State.assertVector_keep (h : Keep s0 s) : ∀ a1, Keep s0 (State.assertVector s a1) := by
  intro a1
  unfold State.assertVector
  extract_lets x1
  split
  · exact h
  · split
    · exact State.setVector_keep h _ _
    · split
      · exact State.setVector_keep h _ _
      · exact State.queueMessage_keep h _
      · exact State.setVector_keep (State.queueMessage_keep h _) _ _

theorem State.setReg_keep (h : Keep s0 s) : ∀ a1 a2, Keep s0 (s.setReg a1 a2) := by
  intro a1 a2
  refine Keep.dict h fun e => ?_
  split
  · exact rising_erase e
  · exact rising_insert e

theorem State.bumpBy_keep (h : Keep s0 s) : ∀ a1 a2 a3, Keep s0 (State.bumpBy s a1 a2 a3) := by
  intro a1 a2 a3
  unfold State.bumpBy
  exact State.setReg_keep h _ _

theorem State.bump_keep (h : Keep s0 s) : ∀ a1, Keep s0 (State.bump s a1) := by
  intro a1
  unfold State.bump
  exact State.bumpBy_keep h _ _ _

theorem State.bumpAt_keep (h : Keep s0 s) : ∀ a1 a2, Keep s0 (State.bumpAt s a1 a2) := by
  intro a1 a2
  unfold State.bumpAt
  exact State.bump_keep h _

theorem State.setRegAt_keep (h : Keep s0 s) : ∀ a1 a2 a3, Keep s0 (State.setRegAt s a1 a2 a3) := by
  intro a1 a2 a3
  unfold State.setRegAt
  exact State.setReg_keep h _ _

theorem State.countEvent_keep (h : Keep s0 s) : ∀ a1 a2, Keep s0 (State.countEvent s a1 a2) := by
  intro a1 a2
  unfold State.countEvent
  exact State.onFlt_keep (State.setRegAt_keep (State.bumpBy_keep (State.bumpAt_keep h _ _) _ _ _) _ _ _)

theorem State.loseEvent_keep (h : Keep s0 s) : Keep s0 (State.loseEvent s) := by
  unfold State.loseEvent
  exact State.onFlt_keep (State.bump_keep h _)

theorem State.queueFaultRecord_keep (h : Keep s0 s) : ∀ a1 a2, Keep s0 (State.queueFaultRecord s a1 a2) := by
  intro a1 a2
  unfold State.queueFaultRecord
  exact Keep.upd h

theorem State.onPkt_keep (h : Keep s0 s) : ∀ a1, Keep s0 (State.onPkt s a1) := by
  intro a1
  unfold State.onPkt
  exact Keep.upd h

theorem State.sendAvoiding_keep (h : Keep s0 s) : ∀ a1 a2 a3, Keep s0 (State.sendAvoiding s a1 a2 a3) := by
  intro a1 a2 a3
  unfold State.sendAvoiding
  extract_lets x1
  split
  · exact State.onPkt_keep h _
  · exact State.onPkt_keep h _

theorem State.sendPkt_keep (h : Keep s0 s) : ∀ a1 a2, Keep s0 (State.sendPkt s a1 a2) := by
  intro a1 a2
  unfold State.sendPkt
  exact State.sendAvoiding_keep h _ _ _

theorem State.sendEvent_keep (h : Keep s0 s) : Keep s0 (State.sendEvent s) := by
  unfold State.sendEvent
  split
  · exact h
  · extract_lets x1 x2 x3
    clear_value x2
    split
    · exact h
    · extract_lets x4 x5 x6 x7
      have kx7 : Keep s0 x7 := Keep.upd h
      split
      · exact Keep.upd h
      · exact Keep.upd h
      · exact State.sendPkt_keep kx7 _ _

theorem State.pushEvent_keep (h : Keep s0 s) : ∀ a1 a2, (s.flt.queue.length ≤ 256 → a1.length < 256) →
    Keep s0 (s.pushEvent a1 a2) := by
  intro a1 a2 hq
  have h1 : Keep s0 (s.onFlt fun f => { f with queue := a1 ++ [a2], lostPending := false }) :=
    Keep.flt h (fun e => e) (fun e => e) (fun e => by have := hq e; simp; omega) (fun e => e)
  unfold State.pushEvent
  extract_lets w s1 s2
  have h2 : Keep s0 s2 := by
    show Keep s0 (if s.flag Reg.FLT_HCP_COPY then s1.queueFaultRecord none a2.bytes else s1)
    split
    · exact State.queueFaultRecord_keep h1 _ _
    · exact h1
  split
  · exact State.sendEvent_keep h2
  · exact h2

theorem State.queueEvent_keep (h : Keep s0 s) : ∀ a1, Keep s0 (s.queueEvent a1) := by
  intro a1
  unfold State.queueEvent
  split
  · next hl => exact State.pushEvent_keep h _ _ fun _ => hl
  · split
    · exact State.loseEvent_keep h
    · extract_lets rest
      split
      · next hl =>
        exact State.pushEvent_keep (State.bump_keep h _) _ _ fun e => by
          rw [List.length_reverse]; exact Nat.lt_of_lt_of_le hl e
      · exact State.loseEvent_keep h

theorem State.queueByClass_keep (h : Keep s0 s) : ∀ a1, Keep s0 (State.queueByClass s a1) := by
  intro a1
  unfold State.queueByClass
  split
  · exact State.queueEvent_keep h _
  · exact h

theorem State.startTimer_keep (h : Keep s0 s) : ∀ a1, Keep s0 (s.startTimer a1) := by
  intro a1
  unfold State.startTimer
  split
  · exact h
  · split
    · exact h
    · split
      · next hl => exact Keep.flt h (fun e => e) (fun e => e) (fun e => e) (fun _ => by simp; omega)
      · exact State.onFlt_keep h rfl rfl rfl rfl

theorem State.noteSevere_keep (h : Keep s0 s) : ∀ a1 a2, Keep s0 (State.noteSevere s a1 a2) := by
  intro a1 a2
  unfold State.noteSevere
  exact State.onFlt_keep (State.setRegAt_keep h _ _ _)

theorem State.raiseOne_keep (h : Keep s0 s) : ∀ a1 a2 a3 a4, Keep s0 (State.raiseOne s a1 a2 a3 a4).2 := by
  intro a1 a2 a3 a4
  unfold State.raiseOne
  extract_lets x1 x2 x3
  have kx3 : Keep s0 x3 := State.queueByClass_keep (State.countEvent_keep h _ _) _
  split
  · exact Keep.snd kx3
  · exact Keep.snd (State.startTimer_keep (State.noteSevere_keep kx3 _ _) _)

theorem State.startPcyc_keep (h : Keep s0 s) : Keep s0 s.startPcyc :=
  Keep.flt h (fun _ => rfl) (fun _ => rfl) (fun e => e) (fun e => e)

theorem State.raise_keep (h : Keep s0 s) : ∀ a1 a2 a3 a4, Keep s0 (State.raise s a1 a2 a3 a4) := by
  intro a1 a2 a3 a4
  unfold State.raise
  extract_lets x1
  have kx1 : Keep s0 x1.2 := State.raiseOne_keep h _ _ _ _
  split
  · split
    · exact State.startPcyc_keep kx1
    · exact State.startPcyc_keep (State.raiseOne_keep (State.startPcyc_keep kx1) _ _ _ _)
  · exact kx1

theorem State.portCount_keep (h : Keep s0 s) : ∀ a1 a2 a3, Keep s0 (State.portCount s a1 a2 a3) := by
  intro a1 a2 a3
  unfold State.portCount
  split
  · exact h
  · exact State.bumpBy_keep h _ _ _

theorem State.readPiece_keep (h : Keep s0 s) : ∀ a1 a2, Keep s0 (State.readPiece s a1 a2).2 := by
  intro a1 a2
  unfold State.readPiece
  extract_lets x1 x2 x3 x4 x5 x6 x7
  have kx6 : Keep s0 x6 := State.portCount_keep h _ _ _
  have kx7 : Keep s0 x7 := State.portCount_keep kx6 _ _ _
  split
  · exact Keep.snd (State.raise_keep h _ _ _ _)
  · refine Keep.snd ?_
    clear_value x3
    split
    · exact kx7
    · exact State.raise_keep kx7 _ _ _ _

theorem State.memRead_keep (h : Keep s0 s) : ∀ a1 a2, Keep s0 (State.memRead s a1 a2).2 := by
  intro a1 a2
  unfold State.memRead
  refine Keep.foldl_snd (Keep.snd h) (fun _ _ h3 => ?_) _
  extract_lets x4
  have kx4 : Keep s0 x4.2 := State.readPiece_keep h3 _ _
  exact Keep.snd kx4

theorem State.memLe_keep (h : Keep s0 s) : ∀ a1 a2, Keep s0 (State.memLe s a1 a2).2 := by
  intro a1 a2
  unfold State.memLe
  extract_lets x1
  have kx1 : Keep s0 x1.2 := State.memRead_keep h _ _
  exact Keep.snd kx1

theorem State.writePiece_keep (h : Keep s0 s) : ∀ a1 a2, Keep s0 (s.writePiece a1 a2).2 := by
  intro a1 a2
  unfold State.writePiece
  extract_lets k beats bad pois r src s1
  have h1 : Keep s0 s1 := Keep.mem (p := r.2.memPoison) (State.drawBytes_keep _ h) storeBytes_wf fun e => e
  clear_value bad
  split
  · exact State.raise_keep h _ _ _ _
  · split
    · exact Keep.mem h storeBytes_wf markBeats_rising
    · split
      · dsimp only; exact State.portCount_keep h1 _ _ _
      · exact State.raise_keep (State.portCount_keep h1 _ _ _) _ _ _ _

theorem State.memWrite_keep (h : Keep s0 s) : ∀ a1 a2, Keep s0 (State.memWrite s a1 a2).2 := by
  intro a1 a2
  unfold State.memWrite
  refine Keep.foldl_snd (Keep.snd h) (fun _ _ h3 => ?_) _
  extract_lets x4
  have kx4 : Keep s0 x4.2 := State.writePiece_keep h3 _ _
  exact Keep.snd kx4

theorem State.memZero_keep (h : Keep s0 s) : ∀ a1 a2, Keep s0 (s.memZero a1 a2) := by
  intro a1 a2
  unfold State.memZero
  refine Keep.foldl (fun t a ht => ?_) _ h
  dsimp only
  split
  · exact State.raise_keep ht _ _ _ _
  · split
    · exact State.raise_keep (State.portCount_keep ht _ _ _) _ _ _ _
    · split
      · exact State.portCount_keep ht _ _ _
      · exact Keep.mem ht Table.wf_filter rising_filter

theorem State.onCad_keep (h : Keep s0 s) : ∀ a1, Keep s0 (State.onCad s a1) := by
  intro a1
  unfold State.onCad
  exact Keep.upd h

theorem State.onI3c_keep (h : Keep s0 s) : ∀ a1, Keep s0 (State.onI3c s a1) := by
  intro a1
  unfold State.onI3c
  exact Keep.upd h

theorem State.setLink_keep (h : Keep s0 s) : ∀ a1 a2, Keep s0 (s.setLink a1 a2) :=
  fun _ _ => h.stores fun e => { e with links := Table.wf_put e.links }

theorem State.onLink_keep (h : Keep s0 s) : ∀ a1 a2, Keep s0 (State.onLink s a1 a2) := by
  intro a1 a2
  unfold State.onLink
  exact State.setLink_keep h _ _

theorem State.onOnt_keep (h : Keep s0 s) : ∀ a1, Keep s0 (State.onOnt s a1) := by
  intro a1
  unfold State.onOnt
  exact Keep.upd h

theorem State.onPmi_keep (h : Keep s0 s) : ∀ a1, Keep s0 (State.onPmi s a1) := by
  intro a1
  unfold State.onPmi
  exact Keep.upd h

theorem State.setPort_keep (h : Keep s0 s) : ∀ a1 a2, Keep s0 (s.setPort a1 a2) :=
  fun _ _ => h.stores fun e => { e with ports := Table.wf_put e.ports }

theorem State.onPort_keep (h : Keep s0 s) : ∀ a1 a2, Keep s0 (State.onPort s a1 a2) := by
  intro a1 a2
  unfold State.onPort
  exact State.setPort_keep h _ _

theorem State.onRmt_keep (h : Keep s0 s) : ∀ a1, Keep s0 (State.onRmt s a1) := by
  intro a1
  unfold State.onRmt
  exact Keep.upd h

theorem State.onRst_keep (h : Keep s0 s) : ∀ a1, Keep s0 (State.onRst s a1) := by
  intro a1
  unfold State.onRst
  exact Keep.upd h

theorem State.onTap_keep (h : Keep s0 s) : ∀ a1, Keep s0 (State.onTap s a1) := by
  intro a1
  unfold State.onTap
  exact Keep.upd h

theorem State.onXlt_keep (h : Keep s0 s) : ∀ a1, Keep s0 (State.onXlt s a1) := by
  intro a1
  unfold State.onXlt
  exact Keep.upd h

theorem State.pick_keep {α : Type} (h : Keep s0 s) : ∀ a1 : List α, Keep s0 (s.pick a1).2 :=
  fun _ => State.drawNat_keep h

theorem State.raiseCtx_keep (h : Keep s0 s) : ∀ a1 a2 a3, Keep s0 (State.raiseCtx s a1 a2 a3) := by
  intro a1 a2 a3
  unfold State.raiseCtx
  exact State.raise_keep h _ _ _ _

theorem State.sendNeg_keep (h : Keep s0 s) : ∀ a1 a2 a3, Keep s0 (State.sendNeg s a1 a2 a3) := by
  intro a1 a2 a3
  unfold State.sendNeg
  split
  · exact h
  · exact State.sendPkt_keep h _ _

theorem State.unwrittenRead_keep (h : Keep s0 s) : ∀ a1 a2, Keep s0 (State.unwrittenRead s a1 a2) := by
  intro a1 a2
  unfold State.unwrittenRead
  extract_lets x1 x2
  have kx1 : Keep s0 x1 := State.bumpAt_keep h _ _
  have kx2 : Keep s0 x2 := by
    unfold x2
    split
    · exact kx1
    · exact State.onFlt_keep (State.setRegAt_keep kx1 _ _ _)
  exact State.raise_keep kx2 _ _ _ _

theorem State.spadRead_keep (h : Keep s0 s) : ∀ a1 a2 a3, Keep s0 (State.spadRead s a1 a2 a3).2 := by
  intro a1 a2 a3
  unfold State.spadRead
  extract_lets x1 x2 x3
  exact Keep.snd (Keep.foldl (fun _ _ h6 => State.unwrittenRead_keep h6 _ _) _ h)

theorem State.spadUnwrite_keep (h : Keep s0 s) : ∀ a1 a2 a3, Keep s0 (s.spadUnwrite a1 a2 a3) := by
  intro a1 a2 a3
  exact Keep.spad (m := s.spad) h (fun e => e) rising_filter rising_filter

theorem State.spadWrite_keep (h : Keep s0 s) : ∀ a1 a2 a3, Keep s0 (s.spadWrite a1 a2 a3) := by
  intro a1 a2 a3
  unfold State.spadWrite
  extract_lets lines s1
  have h1 : Keep s0 s1 := by
    refine Keep.foldl (fun t a ht => ?_) _ h
    refine Keep.spad ht (fun e => ?_) rising_setIns (fun e => ?_)
    · split
      · exact e
      · exact storeSpad_wf e
    · repeat' split
      all_goals first | exact e | exact rising_setIns e | exact rising_setDel e
  exact Keep.spad (w := s1.spadWritten) (p := s1.spadPoison) h1 storeSpad_wf (fun e => e) (fun e => e)

end Sys2Proof.Machine
end

