-- ==== Sys2Proof/Laws/KeepCoreOps.lean ====
section
/-! SUPPORT. What the operations of CoreOps.lean keep: a lemma for each. -/
set_option Elab.async false
namespace Sys2Proof.Machine
open Sys2Proof Sys2Proof.Bits

variable {s0 s : State}

theorem State.putSem_keep (h : Keep s0 s) : ∀ a1 a2, Keep s0 (s.putSem a1 a2) :=
  fun _ _ => Keep.sync (b := s.counters) h Table.wf_put fun e => e

theorem State.addSem_keep (h : Keep s0 s) : ∀ a1 a2, Keep s0 (State.addSem s a1 a2) := by
  intro a1 a2
  unfold State.addSem
  extract_lets x1
  split
  · exact State.putSem_keep h _ _
  · exact State.raiseCtx_keep (State.putSem_keep h _ _) _ _ _

theorem State.onCtx_keep (h : Keep s0 s) : ∀ a1 a2, Keep s0 (s.onCtx a1 a2) :=
  fun _ _ => h.stores fun e => { e with ctxs := Table.wf_put e.ctxs }

theorem State.arriveAs_keep (h : Keep s0 s) : ∀ a1 a2 a3, Keep s0 (State.arriveAs s a1 a2 a3) := by
  intro a1 a2 a3
  unfold State.arriveAs
  exact State.onCtx_keep (State.setRegAt_keep (State.putSem_keep h _ _) _ _ _) _ _

theorem State.checkArrival_keep (h : Keep s0 s) : ∀ a1, Keep s0 (State.checkArrival s a1) := by
  intro a1
  unfold State.checkArrival
  split
  · exact h
  · extract_lets x1 x2
    split
    · exact State.arriveAs_keep h _ _ _
    · split
      · exact State.arriveAs_keep h _ _ _
      · exact h

theorem State.fireTriggers_keep (h : Keep s0 s) : ∀ a1 a2, Keep s0 (State.fireTriggers s a1 a2) := by
  intro a1 a2
  induction a2 generalizing s a1 with
  | zero =>
    unfold State.fireTriggers
    exact h
  | succ n ih =>
    unfold State.fireTriggers
    split
    · exact h
    · exact ih (State.addSem_keep (State.onCtx_keep h _ _) _ _) _

theorem State.syncChanged_keep (h : Keep s0 s) : ∀ a1, Keep s0 (State.syncChanged s a1) := by
  intro a1
  unfold State.syncChanged
  split
  · exact h
  · exact State.checkArrival_keep (State.fireTriggers_keep h _ _) _

theorem State.putCounter_keep (h : Keep s0 s) : ∀ a1 a2, Keep s0 (s.putCounter a1 a2) :=
  fun _ _ => Keep.sync (a := s.sems) h (fun e => e) Table.wf_put

theorem State.advance_keep (h : Keep s0 s) : ∀ a1 a2, Keep s0 (State.advance s a1 a2) := by
  intro a1 a2
  unfold State.advance
  exact State.syncChanged_keep (State.putCounter_keep h _ _) _

theorem State.onPwr_keep (h : Keep s0 s) : ∀ a1, Keep s0 (State.onPwr s a1) := by
  intro a1
  unfold State.onPwr
  exact Keep.upd h

theorem State.askRamp_keep (h : Keep s0 s) : ∀ a1, Keep s0 (State.askRamp s a1) := by
  intro a1
  unfold State.askRamp
  split
  · exact State.onPwr_keep h _
  · exact h

theorem State.busy_keep (h : Keep s0 s) : ∀ a1 a2 a3 a4, Keep s0 (State.busy s a1 a2 a3 a4) := by
  intro a1 a2 a3 a4
  unfold State.busy
  extract_lets x1
  have kx1 : Keep s0 x1 := State.bumpBy_keep h _ _ _
  split
  · exact State.bumpBy_keep kx1 _ _ _
  · exact kx1

theorem State.progressed_keep (h : Keep s0 s) : ∀ a1, Keep s0 (State.progressed s a1) := by
  intro a1
  unfold State.progressed
  exact State.onFlt_keep h

theorem State.engineProgress_keep (h : Keep s0 s) : ∀ a1 a2, Keep s0 (State.engineProgress s a1 a2) := by
  intro a1 a2
  unfold State.engineProgress
  exact State.progressed_keep h _

theorem State.descProgress_keep (h : Keep s0 s) : ∀ a1 a2, Keep s0 (State.descProgress s a1 a2) := by
  intro a1 a2
  unfold State.descProgress
  extract_lets x1
  have kx1 : Keep s0 x1 := State.engineProgress_keep h _ _
  split
  · exact State.progressed_keep kx1 _
  · exact kx1

theorem State.forUnit_keep (h : Keep s0 s) : ∀ a1 a2 a3, (∀ t30, Keep s0 t30 → Keep s0 (a3 t30)) → Keep s0 (State.forUnit s a1 a2 a3) := by
  intro a1 a2 a3 g0
  unfold State.forUnit
  split
  · exact g0 _ h
  · exact h

theorem CoreState.canonical_of_mem {t : Table CoreState} {d v : CoreState} {k : Nat} (h : (t.all fun e => e.2.canonical) = true)
    (hv : v.canonical = true) : ((Table.put t d k v).all fun e => e.2.canonical) = true := by
  rw [List.all_eq_true] at h ⊢
  intro e he
  rcases Table.mem_put he with rfl | he
  · exact hv
  · exact h e he

theorem CoreState.withQueue_canonical {x : CoreState} (h : x.canonical = true) (e : Engine) (q : List (List Byte)) :
    (x.withQueue e q).canonical = true := by
  cases e <;> exact h

theorem CoreState.canonical_of {x : CoreState} (h1 : Table.wf 0 x.regs = true) (h2 : Table.wf 0 x.windows = true)
    (h3 : Table.wf 0 x.masks = true) (h4 : Table.wf 0 x.bank0.cells = true ∧ Table.wf 0 x.bank1.cells = true) : x.canonical = true := by
  unfold CoreState.canonical
  rw [h1, h2, h3, h4.1, h4.2]
  rfl

theorem CoreState.canonical_parts {x : CoreState} (h : x.canonical = true) :
    Table.wf 0 x.regs = true ∧ Table.wf 0 x.windows = true ∧ Table.wf 0 x.masks = true ∧
      Table.wf 0 x.bank0.cells = true ∧ Table.wf 0 x.bank1.cells = true := by
  unfold CoreState.canonical at h
  rw [Bool.and_eq_true, Bool.and_eq_true, Bool.and_eq_true, Bool.and_eq_true] at h
  exact ⟨h.1.1.1.1, h.1.1.1.2, h.1.1.2, h.1.2, h.2⟩

/-- What every core of a state with canonical cores holds. -/
theorem State.core_canonical (h : (s.cores.all fun e => e.2.canonical) = true) (n : Nat) : (s.core n).canonical = true := by
  unfold State.core Table.get
  cases e : Table.find? s.cores n with
  | none => rfl
  | some x => exact List.all_eq_true.1 h (n, x) (Table.mem_of_find? e)

theorem State.onCore_keep (h : Keep s0 s) (a1 : Nat) (a2 : CoreState → CoreState)
    (hf : ∀ x : CoreState, x.canonical = true → (a2 x).canonical = true := by intro x hx; exact hx) : Keep s0 (s.onCore a1 a2) :=
  h.stores fun e => { e with cores := Table.wf_put e.cores
                             coreParts := CoreState.canonical_of_mem e.coreParts (hf _ (State.core_canonical e.coreParts a1)) }

theorem State.onDisp_keep (h : Keep s0 s) : ∀ a1, Keep s0 (State.onDisp s a1) := by
  intro a1
  unfold State.onDisp
  exact Keep.upd h

theorem State.onFar_keep (h : Keep s0 s) : ∀ a1, Keep s0 (State.onFar s a1) := by
  intro a1
  unfold State.onFar
  exact Keep.upd h

theorem State.onTask_keep (h : Keep s0 s) : ∀ a1 a2 a3, Keep s0 (State.onTask s a1 a2 a3) := by
  intro a1 a2 a3
  unfold State.onTask
  exact State.onCtx_keep h _ _

theorem State.onTrc_keep {f : TraceState → TraceState} (h : Keep s0 s)
    (e : (f s.trc).buffer = s.trc.buffer := by rfl) : Keep s0 (s.onTrc f) :=
  Keep.upd h (e18 := e)

theorem State.popQueue_keep (h : Keep s0 s) : ∀ a1 a2, Keep s0 (State.popQueue s a1 a2) := by
  intro a1 a2
  unfold State.popQueue
  exact State.onCore_keep h _ _ (fun _ hx => CoreState.withQueue_canonical hx _ _)

theorem State.rankChip_keep (h : Keep s0 s) : ∀ a1 a2, Keep s0 (State.rankChip s a1 a2).2 := by
  intro a1 a2
  unfold State.rankChip
  split
  · exact Keep.snd h
  · extract_lets x1
    have kx1 : Keep s0 x1.2 := State.memLe_keep h _ _
    exact Keep.snd kx1

theorem State.signal_keep (h : Keep s0 s) : ∀ a1 a2, Keep s0 (State.signal s a1 a2) := by
  intro a1 a2
  unfold State.signal
  exact State.syncChanged_keep (State.addSem_keep h _ _) _

theorem State.release_keep (h : Keep s0 s) : ∀ a1, Keep s0 (State.release s a1) := by
  intro a1
  unfold State.release
  split
  · exact h
  · exact State.signal_keep h _ _

theorem State.setCounter_keep (h : Keep s0 s) : ∀ a1 a2, Keep s0 (State.setCounter s a1 a2) := by
  intro a1 a2
  unfold State.setCounter
  exact State.syncChanged_keep (State.putCounter_keep h _ _) _

theorem State.setSem_keep (h : Keep s0 s) : ∀ a1 a2, Keep s0 (State.setSem s a1 a2) := by
  intro a1 a2
  unfold State.setSem
  exact State.syncChanged_keep (State.putSem_keep h _ _) _

theorem State.taskError_keep (h : Keep s0 s) : ∀ a1 a2, Keep s0 (State.taskError s a1 a2) := by
  intro a1 a2
  unfold State.taskError
  split
  · exact h
  · extract_lets x1 x2
    exact State.onCore_keep (State.onTask_keep h _ _ _) _ _

end Sys2Proof.Machine
end

