-- ==== Sys2Proof/Laws/KeepFar.lean ====
section
/-! SUPPORT. What the operations of Far.lean keep: a lemma for each. -/
set_option Elab.async false
namespace Sys2Proof.Machine
open Sys2Proof Sys2Proof.Bits

variable {s0 s : State}

theorem State.askLine_keep (h : Keep s0 s) : ∀ a1 a2 a3 a4, Keep s0 (State.askLine s a1 a2 a3 a4) := by
  intro a1 a2 a3 a4
  unfold State.askLine
  extract_lets x1
  split
  · exact h
  · exact State.onFar_keep h _

theorem State.writeBackRun_keep (h : Keep s0 s) : ∀ a1 a2 a3, Keep s0 (State.writeBackRun s a1 a2 a3) := by
  intro a1 a2 a3
  unfold State.writeBackRun
  extract_lets x1 x2 x3 x4 x5
  exact State.onRmt_keep (State.bumpAt_keep (State.onFar_keep h _) _ _) _

theorem State.writeBack_keep (h : Keep s0 s) : ∀ a1, Keep s0 (State.writeBack s a1) := by
  intro a1
  unfold State.writeBack
  split
  · exact h
  · extract_lets x1 x2
    have kx1 : Keep s0 x1 := Keep.foldl (fun _ _ h5 => State.writeBackRun_keep h5 _ _ _) _ h
    exact State.onFar_keep kx1 _

theorem State.evict_keep (h : Keep s0 s) : ∀ a1, Keep s0 (State.evict s a1) := by
  intro a1
  unfold State.evict
  exact State.onFar_keep (State.writeBack_keep h _) _

theorem State.installLine_keep (h : Keep s0 s) : ∀ a1, Keep s0 (State.installLine s a1) := by
  intro a1
  unfold State.installLine
  extract_lets x1 x2
  have kx2 : Keep s0 x2 := by
    unfold x2
    split
    · split
      · exact State.evict_keep h _
      · exact h
    · exact h
  exact State.onFar_keep kx2 _

theorem State.grantLine_keep (h : Keep s0 s) : ∀ a1 a2 a3 a4, Keep s0 (State.grantLine s a1 a2 a3 a4) := by
  intro a1 a2 a3 a4
  unfold State.grantLine
  exact State.installLine_keep h _

theorem State.startFill_keep (h : Keep s0 s) : ∀ a1, Keep s0 (State.startFill s a1) := by
  intro a1
  unfold State.startFill
  extract_lets x1 x2 x3 x4
  exact State.onRmt_keep (State.onFar_keep h _) _

theorem State.grantReq_keep (h : Keep s0 s) : ∀ a1, Keep s0 (State.grantReq s a1) := by
  intro a1
  unfold State.grantReq
  extract_lets x1 x2 x3 x4 x5 x6 x7
  have kx6 : Keep s0 x6 := State.onFar_keep h _
  have kx7 : Keep s0 x7 := by
    unfold x7
    clear_value x3
    split
    · exact State.evict_keep h _
    · exact h
  split
  · split
    · clear_value x5
      split
      · exact State.grantLine_keep kx6 _ _ _ _
      · exact State.grantLine_keep kx6 _ _ _ _
    · clear_value x5
      split
      · exact State.grantLine_keep kx6 _ _ _ _
      · exact State.startFill_keep kx6 _
  · split
    · exact State.grantLine_keep kx7 _ _ _ _
    · split
      · exact State.grantLine_keep kx7 _ _ _ _
      · exact State.startFill_keep kx7 _

theorem State.dirRoom_keep (h : Keep s0 s) : ∀ a1, Keep s0 (State.dirRoom s a1) := by
  intro a1
  unfold State.dirRoom
  extract_lets x1 x2
  split
  · split
    · exact Keep.foldl (fun _ _ h5 => State.evict_keep h5 _) _ (State.bump_keep h _)
    · exact h
  · exact h

theorem State.dirGrant_keep (h : Keep s0 s) : ∀ a1, Keep s0 (State.dirGrant s a1) := by
  intro a1
  unfold State.dirGrant
  split
  · exact h
  · extract_lets x1 x2 x3
    clear_value x3
    split
    · exact h
    · extract_lets x4
      have kx4 : Keep s0 x4 := State.onFar_keep h _
      exact State.grantReq_keep (State.dirRoom_keep (State.setReg_keep kx4 _ _) _) _

theorem State.dropFarOf_keep (h : Keep s0 s) : ∀ a1 a2, Keep s0 (State.dropFarOf s a1 a2) := by
  intro a1 a2
  unfold State.dropFarOf
  extract_lets x1 x2 x3
  have kx3 : Keep s0 x3 := State.onFar_keep h _
  refine Keep.foldl (fun _ _ h6 => ?_) _ kx3
  extract_lets x7 x8
  have kx8 : Keep s0 x8 := State.bumpBy_keep h6 _ _ _
  split
  · exact State.raise_keep kx8 _ _ _ _
  · exact kx8

theorem State.fillComplete_keep (h : Keep s0 s) : ∀ a1, Keep s0 (State.fillComplete s a1) := by
  intro a1
  unfold State.fillComplete
  split
  · exact h
  · extract_lets x1 x2
    have kx1 : Keep s0 x1 := State.onFar_keep h _
    split
    · exact State.taskError_keep kx1 _ _
    · split
      · exact State.installLine_keep kx1 _
      · exact State.taskError_keep kx1 _ _

theorem State.flushFar_keep (h : Keep s0 s) : ∀ a1, Keep s0 (State.flushFar s a1) := by
  intro a1
  unfold State.flushFar
  exact Keep.foldl (fun _ _ h3 => State.writeBack_keep h3 _) _ h

theorem State.wbComplete_keep (h : Keep s0 s) : ∀ a1, Keep s0 (State.wbComplete s a1) := by
  intro a1
  unfold State.wbComplete
  split
  · exact h
  · split
    · exact h
    · extract_lets x1 x2
      have kx1 : Keep s0 x1 := State.onFar_keep h _
      have kx2 : Keep s0 x2 := State.raise_keep kx1 _ _ _ _
      split
      · exact kx1
      · split
        · exact State.taskError_keep kx2 _ _
        · exact kx2

end Sys2Proof.Machine
end

