-- ==== Sys2Proof/Laws/KeepRecords.lean ====
section
/-! SUPPORT. What the operations of Records.lean keep: a lemma for each. -/
set_option Elab.async false
namespace Sys2Proof.Machine
open Sys2Proof Sys2Proof.Bits

variable {s0 s : State}

theorem State.ledgerRecord_keep (h : Keep s0 s) : ∀ a1 a2 a3 a4 a5 a6 a7, Keep s0 (State.ledgerRecord s a1 a2 a3 a4 a5 a6 a7) := by
  intro a1 a2 a3 a4 a5 a6 a7
  unfold State.ledgerRecord
  split
  · exact h
  · split
    · extract_lets x1
      have kx1 : Keep s0 x1 := State.bumpAt_keep h _ _
      split
      · exact kx1
      · exact State.raiseCtx_keep (State.onCtx_keep kx1 _ _) _ _ _
    · extract_lets x2 x3 x4
      exact State.onCtx_keep (State.setRegAt_keep (State.memWrite_keep h _ _) _ _ _) _ _

theorem State.stepRecord_keep (h : Keep s0 s) : ∀ a1 a2, Keep s0 (State.stepRecord s a1 a2) := by
  intro a1 a2
  unfold State.stepRecord
  extract_lets x1
  exact State.onCtx_keep (State.ledgerRecord_keep h _ _ _ _ _ _ _) _ _

theorem State.traceRecord_keep (h : Keep s0 s) : ∀ a1 a2 a3 a4, Keep s0 (s.traceRecord a1 a2 a3 a4) := by
  intro a1 a2 a3 a4
  unfold State.traceRecord
  split
  · exact h
  · split
    · exact State.onTrc_keep (State.bump_keep h _)
    · exact Keep.trc h fun _ => by simp; omega

theorem State.traceWriteOne_keep (h : Keep s0 s) : Keep s0 s.traceWriteOne := by
  unfold State.traceWriteOne
  split
  · exact h
  · next b rest e =>
    extract_lets i at_
    have k := State.setReg_keep (State.memWrite_keep (Keep.refl s) at_ (clean b)) Reg.TRC_PRODUCER (i + 1)
    refine h.trans ⟨⟨k.kept.build, k.kept.pending, k.kept.tclk, k.kept.free, k.kept.revoked, fun hs => ?_⟩,
      ⟨k.latched.grave, k.latched.request⟩⟩
    have ht := State.sound_iff.1 (k.kept.sound hs)
    have hb := (State.sound_iff.1 hs).buffer
    rw [e] at hb
    exact State.sound_iff.2 { ht with buffer := Nat.le_of_succ_le hb }

theorem State.traceWrite_keep (h : Keep s0 s) : Keep s0 (State.traceWrite s) := by
  unfold State.traceWrite
  exact Keep.foldl (fun _ _ h3 => State.traceWriteOne_keep h3) _ h

end Sys2Proof.Machine
end

