-- ==== Sys2Proof/Laws/KeepXlt.lean ====
section
/-! SUPPORT. What the operations of Xlt.lean keep: a lemma for each. -/
set_option Elab.async false
namespace Sys2Proof.Machine
open Sys2Proof Sys2Proof.Bits

variable {s0 s : State}

theorem State.giveId_keep (h : Keep s0 s) : ∀ a1, Keep s0 (State.giveId s a1).2 := by
  intro a1
  unfold State.giveId
  split
  · exact Keep.snd h
  · extract_lets x1 x2
    have kx1 : Keep s0 x1.2 := State.pick_keep h _
    exact Keep.snd (State.bumpAt_keep (State.bump_keep (State.queueFaultRecord_keep kx1 _ _) _) _ _)

theorem State.assignIds_keep (h : Keep s0 s) : Keep s0 (State.assignIds s) := by
  unfold State.assignIds
  refine Keep.foldl (fun _ _ h3 => ?_) _ h
  split
  · extract_lets x4
    have kx4 : Keep s0 x4.2 := State.giveId_keep h3 _
    exact State.onXlt_keep kx4 _
  · exact h3

theorem State.flushLeaf_keep (h : Keep s0 s) : ∀ a1, Keep s0 (s.flushLeaf a1) := by
  intro a1
  unfold State.flushLeaf
  split
  · exact h
  · extract_lets x1 x2 x3 x4 x5 x6
    split
    · exact Keep.mem (p := x3.2.memPoison) (State.drawBytes_keep _ (State.memRead_keep h _ _)) storeBytes_wf fun e => e
    · exact State.memWrite_keep (State.memRead_keep h _ _) _ _

theorem State.dropLeaves_keep (h : Keep s0 s) : ∀ a1, Keep s0 (State.dropLeaves s a1) := by
  intro a1
  unfold State.dropLeaves
  exact State.onXlt_keep (Keep.foldl (fun _ _ h3 => State.flushLeaf_keep h3 _) _ h) _

theorem State.cacheLeaf_keep (h : Keep s0 s) : ∀ a1, Keep s0 (State.cacheLeaf s a1) := by
  intro a1
  unfold State.cacheLeaf
  extract_lets x1 x2
  have kx2 : Keep s0 x2 := by
    unfold x2
    split
    · split
      · exact State.dropLeaves_keep h _
      · exact h
    · exact h
  exact State.onXlt_keep kx2 _

theorem State.countAccess_keep (h : Keep s0 s) : ∀ a1 a2 a3 a4 a5, Keep s0 (State.countAccess s a1 a2 a3 a4 a5) := by
  intro a1 a2 a3 a4 a5
  unfold State.countAccess
  split
  · exact h
  · extract_lets x1 x2 x3 x4
    have kx4 : Keep s0 x4 := State.onXlt_keep h _
    split
    · split
      · exact State.onXlt_keep (State.flushLeaf_keep kx4 _) _
      · exact kx4
    · exact kx4

theorem State.countRange_keep (h : Keep s0 s) : ∀ a1 a2 a3 a4 a5, Keep s0 (State.countRange s a1 a2 a3 a4 a5) := by
  intro a1 a2 a3 a4 a5
  unfold State.countRange
  exact Keep.foldl (fun _ _ h3 => State.countAccess_keep h3 _ _ _ _ _) _ h

theorem State.invalidate_keep (h : Keep s0 s) : ∀ a1 a2 a3, Keep s0 (State.invalidate s a1 a2 a3) := by
  intro a1 a2 a3
  unfold State.invalidate
  exact State.dropLeaves_keep h _

theorem State.readPieces_keep (h : Keep s0 s) : ∀ a1, Keep s0 (State.readPieces s a1).2 := by
  intro a1
  unfold State.readPieces
  refine Keep.foldl_snd (Keep.snd h) (fun _ _ h3 => ?_) _
  extract_lets x4
  have kx4 : Keep s0 x4.2 := State.memRead_keep h3 _ _
  exact Keep.snd kx4

theorem State.walkFrom_keep (h : Keep s0 s) : ∀ a1 a2 a3 a4 a5, Keep s0 (State.walkFrom s a1 a2 a3 a4 a5).2 := by
  intro a1 a2 a3 a4 a5
  induction a5 generalizing s a1 a2 a3 a4 with
  | zero =>
    unfold State.walkFrom
    exact Keep.snd h
  | succ n ih =>
    unfold State.walkFrom
    extract_lets x1 x2
    have kx1 : Keep s0 x1.2 := State.memLe_keep h _ _
    split
    · exact Keep.snd (State.raiseCtx_keep kx1 _ _ _)
    · split
      · exact Keep.snd kx1
      · split
        · exact Keep.snd kx1
        · split
          · exact Keep.snd kx1
          · exact ih kx1 _ _ _ _

theorem State.walk_keep (h : Keep s0 s) : ∀ a1 a2, Keep s0 (State.walk s a1 a2).2 := by
  intro a1 a2
  unfold State.walk
  exact State.walkFrom_keep (State.bump_keep h _) _ _ _ _ _

theorem State.translate_keep (h : Keep s0 s) : ∀ a1 a2 a3 a4 a5, Keep s0 (s.translate a1 a2 a3 a4 a5).2 := by
  intro a1 a2 a3 a4 a5
  unfold State.translate
  extract_lets f
  have hf : ∀ t, Keep s0 t → Keep s0 (f t).2 := by
    intro t ht
    unfold f
    extract_lets x1
    have kx1 : Keep s0 x1.2 := State.walk_keep ht _ _
    split
    · exact Keep.snd kx1
    · split
      · exact Keep.snd kx1
      · exact Keep.snd (State.cacheLeaf_keep kx1 _)
  split
  · split
    · exact Keep.snd h
    · exact hf _ (State.dropLeaves_keep h _)
  · exact hf _ h

theorem State.translateParts_keep (h : Keep s0 s) : ∀ a1 a2 a3 a4 a5 a6, Keep s0 (State.translateParts s a1 a2 a3 a4 a5 a6).2 := by
  intro a1 a2 a3 a4 a5 a6
  unfold State.translateParts
  refine Keep.foldl_snd (Keep.snd h) (fun _ _ h3 => ?_) _
  split
  · exact Keep.snd h3
  · split
    · exact Keep.snd h3
    · extract_lets x4
      have kx4 : Keep s0 x4.2 := State.translate_keep h3 _ _ _ _ _
      split
      · exact Keep.snd kx4
      · exact Keep.snd kx4

theorem State.translateRange_keep (h : Keep s0 s) : ∀ a1 a2 a3 a4 a5 a6, Keep s0 (State.translateRange s a1 a2 a3 a4 a5 a6).2 := by
  intro a1 a2 a3 a4 a5 a6
  unfold State.translateRange
  extract_lets x1
  have kx1 : Keep s0 x1.2 := State.translateParts_keep h _ _ _ _ _ _
  split
  · exact Keep.snd kx1
  · exact Keep.snd (State.countRange_keep kx1 _ _ _ _ _)

theorem State.withdrawFaults_keep (h : Keep s0 s) : ∀ a1, Keep s0 (State.withdrawFaults s a1) := by
  intro a1
  unfold State.withdrawFaults
  extract_lets x1 x2
  exact State.onHcp_keep (State.onXlt_keep h _)

theorem State.writePieces_keep (h : Keep s0 s) : ∀ a1 a2, Keep s0 (s.writePieces a1 a2).2 := by
  intro a1 a2
  unfold State.writePieces
  refine Keep.foldl_on (fun r : (WriteEnd × State) × List MByte => r.1.2) (r := ((WriteEnd.ok, s), a2)) h ?_ a1
  intro r p hr
  exact State.memWrite_keep hr _ _

theorem State.xltRaise_keep (h : Keep s0 s) : ∀ a1 a2 a3 a4 a5, Keep s0 (State.xltRaise s a1 a2 a3 a4 a5) := by
  intro a1 a2 a3 a4 a5
  unfold State.xltRaise
  extract_lets x1 x2 x3 x4
  have kx4 : Keep s0 x4.2 := State.giveId_keep h _
  split
  · exact State.onXlt_keep h _
  · exact State.onXlt_keep kx4 _

end Sys2Proof.Machine
end

