-- ==== Sys2Proof/Laws/KeepTarget.lean ====
section
/-! SUPPORT. What the operations of Target.lean keep: a lemma for each. -/
set_option Elab.async false
namespace Sys2Proof.Machine
open Sys2Proof Sys2Proof.Bits

variable {s0 s : State}

theorem State.sendBusy_keep (h : Keep s0 s) : ∀ a1, Keep s0 (State.sendBusy s a1) := by
  intro a1
  unfold State.sendBusy
  exact State.sendNeg_keep (State.bump_keep h _) _ _ _

theorem State.admitSlot_keep (h : Keep s0 s) : ∀ a1, Keep s0 (State.admitSlot s a1).2 := by
  intro a1
  unfold State.admitSlot
  extract_lets x1
  split
  · exact Keep.snd (State.onRmt_keep h _)
  · split
    · exact Keep.snd h
    · exact Keep.snd (State.sendBusy_keep h _)

theorem State.sendCompletion_keep (h : Keep s0 s) : ∀ a1 a2, Keep s0 (State.sendCompletion s a1 a2) := by
  intro a1 a2
  unfold State.sendCompletion
  split
  · exact h
  · extract_lets x1 x2
    exact State.sendPkt_keep h _ _

theorem State.sendMask_keep (h : Keep s0 s) : ∀ a1 a2 a3, Keep s0 (s.sendMask a1 a2 a3) := by
  intro a1 a2 a3
  induction a2 generalizing s a3 with
  | zero => exact h
  | succ n ih =>
    cases a3 with
    | nil => exact h
    | cons q rest => exact ih (State.sendCompletion_keep h _ _) _

theorem State.flushMask_keep (h : Keep s0 s) : ∀ a1 a2 a3, Keep s0 (State.flushMask s a1 a2 a3) := by
  intro a1 a2 a3
  unfold State.flushMask
  extract_lets x1
  split
  · exact h
  · exact State.sendMask_keep (State.onRmt_keep h _) _ _ _

theorem State.noteCompletion_keep (h : Keep s0 s) : ∀ a1 a2, Keep s0 (State.noteCompletion s a1 a2) := by
  intro a1 a2
  unfold State.noteCompletion
  extract_lets x1 x2 x3 x4 x5
  have kx5 : Keep s0 x5 := State.onRmt_keep h _
  split
  · exact State.sendCompletion_keep h _ _
  · split
    · split
      · exact State.flushMask_keep kx5 _ _ _
      · exact kx5
    · exact kx5

theorem State.answerCached_keep (h : Keep s0 s) : ∀ a1 a2 a3, Keep s0 (State.answerCached s a1 a2 a3) := by
  intro a1 a2 a3
  unfold State.answerCached
  extract_lets x1 x2
  have kx1 : Keep s0 x1 := State.bump_keep h _
  split
  · exact h
  · exact State.noteCompletion_keep kx1 _ _
  · exact State.sendPkt_keep kx1 _ _
  · exact State.sendNeg_keep kx1 _ _ _

theorem State.atomicAt_keep (h : Keep s0 s) : ∀ a1 a2 a3 a4 a5, Keep s0 (s.atomicAt a1 a2 a3 a4 a5).2 := by
  intro a1 a2 a3 a4 a5
  unfold State.atomicAt
  extract_lets x1
  have h1 : Keep s0 x1.2 := State.memLe_keep h _ _
  split
  · exact Keep.snd h1
  · split
    · exact Keep.snd h1
    · extract_lets x2 x3 x4 x5
      have h2 : Keep s0 x5 := State.drawNat_keep (State.memWrite_keep h1 _ _)
      split
      · exact Keep.snd (State.memWrite_keep h1 _ _)
      · exact Keep.snd (Keep.mem (p := x5.memPoison) h2 storeBytes_wf fun e => e)

theorem State.releaseTag_keep (h : Keep s0 s) : ∀ a1 a2 a3, Keep s0 (State.releaseTag s a1 a2 a3) := by
  intro a1 a2 a3
  unfold State.releaseTag
  exact State.onRmt_keep h _

theorem State.cacheExpire_keep (h : Keep s0 s) : ∀ a1 a2 a3, Keep s0 (State.cacheExpire s a1 a2 a3) := by
  intro a1 a2 a3
  unfold State.cacheExpire
  extract_lets x1
  exact Keep.foldl (fun _ _ h4 => State.raise_keep h4 _ _ _ _) _ (State.releaseTag_keep h _ _ _)

theorem State.casExpire_keep (h : Keep s0 s) : ∀ a1 a2 a3, Keep s0 (State.casExpire s a1 a2 a3) := by
  intro a1 a2 a3
  unfold State.casExpire
  exact State.onRmt_keep h _

theorem State.countPacket_keep (h : Keep s0 s) : ∀ a1 a2, Keep s0 (State.countPacket s a1 a2) := by
  intro a1 a2
  unfold State.countPacket
  split
  · exact h
  · split
    · exact State.advance_keep h _ _
    · exact State.raise_keep (State.bump_keep h _) _ _ _ _

theorem State.dropCache_keep (h : Keep s0 s) : ∀ a1 a2, Keep s0 (State.dropCache s a1 a2) := by
  intro a1 a2
  unfold State.dropCache
  exact State.onRmt_keep h _

theorem State.gatherOver_keep (h : Keep s0 s) : ∀ a1, Keep s0 (State.gatherOver s a1) := by
  intro a1
  unfold State.gatherOver
  split
  · exact State.countPacket_keep h _ _
  · exact h

theorem State.sendGrant_keep (h : Keep s0 s) : ∀ a1 a2 a3 a4, Keep s0 (State.sendGrant s a1 a2 a3 a4) := by
  intro a1 a2 a3 a4
  unfold State.sendGrant
  exact State.sendPkt_keep (State.onRmt_keep h _) _ _

theorem State.grantDeferred_keep (h : Keep s0 s) : ∀ a1, Keep s0 (State.grantDeferred s a1) := by
  intro a1
  unfold State.grantDeferred
  split
  · exact h
  · extract_lets x1
    split
    · exact h
    · exact State.sendGrant_keep (State.onRmt_keep h _) _ _ _ _

theorem State.readRemote_keep (h : Keep s0 s) : ∀ a1 a2 a3 a4, Keep s0 (State.readRemote s a1 a2 a3 a4).2 := by
  intro a1 a2 a3 a4
  unfold State.readRemote
  extract_lets x1
  have kx1 : Keep s0 x1.2 := State.translateRange_keep h _ _ _ _ _ _
  split
  · exact Keep.snd kx1
  · extract_lets x2
    have kx2 : Keep s0 x2.2 := State.readPieces_keep kx1 _
    exact Keep.snd kx2

theorem State.sendLoadRsp_keep (h : Keep s0 s) : ∀ a1 a2 a3 a4, Keep s0 (State.sendLoadRsp s a1 a2 a3 a4) := by
  intro a1 a2 a3 a4
  unfold State.sendLoadRsp
  exact State.sendPkt_keep h _ _

theorem State.serveLoad_keep (h : Keep s0 s) : ∀ a1 a2 a3, Keep s0 (State.serveLoad s a1 a2 a3).2 := by
  intro a1 a2 a3
  unfold State.serveLoad
  extract_lets x1 x2 x3
  have kx3 : Keep s0 x3.2 := State.readRemote_keep h _ _ _ _
  split
  · exact Keep.snd h
  · split
    · exact Keep.snd kx3
    · exact Keep.snd (Keep.foldl (fun _ _ h6 => State.sendLoadRsp_keep h6 _ _ _ _) _ kx3)

theorem State.serveElem_keep (h : Keep s0 s) : ∀ a1 a2 a3 a4, Keep s0 (State.serveElem s a1 a2 a3 a4).2 := by
  intro a1 a2 a3 a4
  unfold State.serveElem
  extract_lets x1
  have kx1 : Keep s0 x1.2 := State.readRemote_keep h _ _ _ _
  split
  · exact Keep.snd kx1
  · exact Keep.snd (State.sendLoadRsp_keep kx1 _ _ _ _)

theorem State.serveAtomic_keep (h : Keep s0 s) : ∀ a1 a2 a3 a4, Keep s0 (State.serveAtomic s a1 a2 a3 a4).2 := by
  intro a1 a2 a3 a4
  unfold State.serveAtomic
  extract_lets x1 x2 x3 x4 x5
  have kx5 : Keep s0 x5.2 := State.translateRange_keep h _ _ _ _ _ _
  split
  · exact Keep.snd h
  · split
    · exact Keep.snd kx5
    · extract_lets x6
      have kx6 : Keep s0 x6.2 := State.atomicAt_keep kx5 _ _ _ _ _
      split
      · exact Keep.snd kx6
      · exact Keep.snd kx6
      · exact Keep.snd kx6

theorem State.serveStore_keep (h : Keep s0 s) : ∀ a1 a2 a3, Keep s0 (State.serveStore s a1 a2 a3).2 := by
  intro a1 a2 a3
  unfold State.serveStore
  extract_lets x1
  have kx1 : Keep s0 x1.2 := State.translateRange_keep h _ _ _ _ _ _
  split
  · exact Keep.snd kx1
  · extract_lets x2
    have kx2 : Keep s0 x2.2 := State.writePieces_keep kx1 _ _
    split
    · exact Keep.snd kx2
    · exact Keep.snd kx2
    · exact Keep.snd kx2

theorem State.setCache_keep (h : Keep s0 s) : ∀ a1 a2 a3, Keep s0 (State.setCache s a1 a2 a3) := by
  intro a1 a2 a3
  unfold State.setCache
  extract_lets x1 x2 x3
  exact State.onRmt_keep h _

theorem State.perform_keep (h : Keep s0 s) : ∀ a1, Keep s0 (State.perform s a1) := by
  intro a1
  unfold State.perform
  extract_lets x1 x2 x3
  have kx2 : Keep s0 x2.2 := by
    unfold x2
    split
    · exact State.serveLoad_keep h _ _ _
    · split
      · exact State.serveElem_keep h _ _ _ _
      · exact Keep.snd h
    · exact State.serveAtomic_keep h _ _ _ _
    · exact State.serveStore_keep h _ _ _
  split
  · extract_lets x4 x5
    have kx4 : Keep s0 x4 := State.xltRaise_keep kx2 _ _ _ _ _
    have kx5 : Keep s0 x5 := State.onRmt_keep kx4 _
    exact State.sendNeg_keep (State.bump_keep kx5 _) _ _ _
  · split
    · exact State.sendPkt_keep (State.setCache_keep kx2 _ _ _) _ _
    · split
      · exact State.noteCompletion_keep (State.countPacket_keep (State.setCache_keep kx2 _ _ _) _ _) _ _
      · exact kx2
  · extract_lets x6
    have kx6 : Keep s0 x6 := by
      unfold x6
      split
      · exact kx2
      · split
        · exact State.setCache_keep kx2 _ _ _
        · exact State.dropCache_keep kx2 _ _
    exact State.sendNeg_keep kx6 _ _ _

theorem State.unpark_keep (h : Keep s0 s) : ∀ a1, Keep s0 (State.unpark s a1) := by
  intro a1
  unfold State.unpark
  exact State.onRmt_keep h _

theorem State.refuseParked_keep (h : Keep s0 s) : ∀ a1, Keep s0 (State.refuseParked s a1) := by
  intro a1
  unfold State.refuseParked
  extract_lets x1
  have kx1 : Keep s0 x1 := State.sendNeg_keep (State.unpark_keep h _) _ _ _
  split
  · exact State.dropCache_keep kx1 _ _
  · exact kx1

theorem State.retryParked_keep (h : Keep s0 s) : ∀ a1, Keep s0 (State.retryParked s a1) := by
  intro a1
  unfold State.retryParked
  exact State.gatherOver_keep (State.perform_keep (State.unpark_keep h _) _) _

theorem State.runOrdered_keep (h : Keep s0 s) : ∀ a1, Keep s0 (State.runOrdered s a1) := by
  intro a1
  induction a1 generalizing s with
  | zero =>
    unfold State.runOrdered
    exact h
  | succ n ih =>
    unfold State.runOrdered
    extract_lets x1
    split
    · exact h
    · exact ih (State.gatherOver_keep (State.perform_keep (State.unpark_keep h _) _) _)

theorem State.startGather_keep (h : Keep s0 s) : ∀ a1 a2 a3, Keep s0 (State.startGather s a1 a2 a3) := by
  intro a1 a2 a3
  unfold State.startGather
  extract_lets x1 x2
  have kx2 : Keep s0 x2 := by
    refine Keep.foldl (fun _ _ h5 => ?_) _ h
    extract_lets x6
    split
    · exact State.onRmt_keep h5 _
    · exact State.perform_keep h5 _
  split
  · exact kx2
  · exact State.countPacket_keep kx2 _ _

theorem State.startRequest_keep (h : Keep s0 s) : ∀ a1, Keep s0 (State.startRequest s a1) := by
  intro a1
  unfold State.startRequest
  extract_lets x1
  have kx1 : Keep s0 x1 := by
    unfold x1
    split
    · exact State.setCache_keep h _ _ _
    · exact h
  split
  · exact State.onRmt_keep kx1 _
  · exact State.perform_keep kx1 _

theorem State.takeCasPart_keep (h : Keep s0 s) : ∀ a1 a2 a3, Keep s0 (State.takeCasPart s a1 a2 a3) := by
  intro a1 a2 a3
  unfold State.takeCasPart
  extract_lets x1 x2 x3
  have kx3 : Keep s0 x3 := State.onRmt_keep h _
  split
  · exact State.onRmt_keep h _
  · extract_lets x4 x5
    split
    · exact State.sendNeg_keep kx3 _ _ _
    · exact State.startRequest_keep kx3 _

theorem State.takeChange_keep (h : Keep s0 s) : ∀ a1 a2 a3 a4, Keep s0 (State.takeChange s a1 a2 a3 a4) := by
  intro a1 a2 a3 a4
  unfold State.takeChange
  extract_lets x1
  split
  · exact State.answerCached_keep h _ _ _
  · split
    · exact State.raise_keep (State.sendBusy_keep h _) _ _ _ _
    · split
      · exact State.sendNeg_keep (State.onRmt_keep h _) _ _ _
      · split
        · exact State.takeCasPart_keep h _ _ _
        · exact State.startRequest_keep h _

theorem State.takeRelease_keep (h : Keep s0 s) : ∀ a1, Keep s0 (State.takeRelease s a1) := by
  intro a1
  unfold State.takeRelease
  extract_lets x1
  clear_value x1
  split
  · split
    · exact h
    · exact State.releaseTag_keep h _ _ _
  · exact h

theorem State.takeRequest_keep (h : Keep s0 s) : ∀ a1 a2, Keep s0 (State.takeRequest s a1 a2) := by
  intro a1 a2
  unfold State.takeRequest
  split
  · exact h
  · extract_lets x1 x2
    have kx1 : Keep s0 x1 := State.takeRelease_keep h _
    have kx2 : Keep s0 x2.2 := State.admitSlot_keep kx1 _
    split
    · exact State.sendNeg_keep kx1 _ _ _
    · split
      · exact kx2
      · split
        · exact State.startGather_keep kx2 _ _ _
        · split
          · exact State.takeChange_keep kx2 _ _ _ _
          · exact State.startRequest_keep kx2 _

theorem State.takeWindowReq_keep (h : Keep s0 s) : ∀ a1, Keep s0 (State.takeWindowReq s a1) := by
  intro a1
  unfold State.takeWindowReq
  extract_lets x1 x2 x3 x4
  have kx2 : Keep s0 x2 := Keep.foldl (fun _ _ h7 => State.releaseTag_keep h7 _ _ _) _ h
  have kx4 : Keep s0 x4 := State.sendGrant_keep kx2 _ _ _ _
  split
  · exact kx2
  · split
    · exact State.onRmt_keep kx4 _
    · exact kx4

end Sys2Proof.Machine
end

