-- ==== Sys2Proof/Laws/KeepControlCore.lean ====
section
/-! SUPPORT. What the operations of ControlCore.lean keep: a lemma for each. -/
set_option Elab.async false
namespace Sys2Proof.Machine
open Sys2Proof Sys2Proof.Bits

variable {s0 s : State}

theorem State.ccStall_keep (h : Keep s0 s) : ∀ a1 a2, Keep s0 (State.ccStall s a1 a2) := by
  intro a1 a2
  unfold State.ccStall
  exact State.onCore_keep h _ _

theorem CcMem.andThen_keep : ∀ (a0 : CcMem × State) a1 a2, Keep s0 a0.2 → (∀ t20 t21, Keep s0 t21 → Keep s0 (a2 t20 t21)) →
    Keep s0 (CcMem.andThen a0 a1 a2) := by
  intro a0 a1 a2 h g0
  unfold CcMem.andThen
  split
  · exact g0 _ _ h
  · exact State.ccStall_keep h _ _
  · exact State.taskError_keep h _ _

theorem State.haltCore_keep (h : Keep s0 s) : ∀ a1, Keep s0 (State.haltCore s a1) := by
  intro a1
  unfold State.haltCore
  extract_lets x1
  exact State.onCore_keep h _ _

theorem State.breakHit_keep (h : Keep s0 s) : ∀ a1 a2, Keep s0 (State.breakHit s a1 a2) := by
  intro a1 a2
  unfold State.breakHit
  exact State.assertVector_keep (State.traceRecord_keep (State.haltCore_keep h _) _ _ _ _) _

theorem State.ccLoadSpad_keep (h : Keep s0 s) : ∀ a1 a2 a3, Keep s0 (State.ccLoadSpad s a1 a2 a3).2 := by
  intro a1 a2 a3
  unfold State.ccLoadSpad
  split
  · exact Keep.snd h
  · split
    · exact Keep.snd h
    · extract_lets x1
      have kx1 : Keep s0 x1.2 := State.spadRead_keep h _ _ _
      exact Keep.snd kx1

theorem State.ccLoadMem_keep (h : Keep s0 s) : ∀ a1 a2 a3, Keep s0 (State.ccLoadMem s a1 a2 a3).2 := by
  intro a1 a2 a3
  unfold State.ccLoadMem
  extract_lets x1 x2
  have kx2 : Keep s0 x2.2 := State.translateRange_keep h _ _ _ _ _ _
  split
  · exact Keep.snd (State.xltRaise_keep kx2 _ _ _ _ _)
  · extract_lets x3
    have kx3 : Keep s0 x3.2 := State.readPieces_keep kx2 _
    split
    · exact Keep.snd kx3
    · exact Keep.snd kx3

theorem State.farChip_keep (h : Keep s0 s) : ∀ a1 a2, Keep s0 (State.farChip s a1 a2).2 := by
  intro a1 a2
  unfold State.farChip
  exact State.rankChip_keep h _ _

theorem State.touchLine_keep (h : Keep s0 s) : ∀ a1, Keep s0 (State.touchLine s a1) := by
  intro a1
  unfold State.touchLine
  exact State.onFar_keep h _

theorem State.farLoadPart_keep (h : Keep s0 s) : ∀ a1 a2 a3, Keep s0 (State.farLoadPart s a1 a2 a3).2 := by
  intro a1 a2 a3
  unfold State.farLoadPart
  extract_lets x1 x2
  split
  · split
    · exact Keep.snd (State.touchLine_keep h _)
    · exact Keep.snd (State.touchLine_keep h _)
  · exact Keep.snd (State.askLine_keep h _ _ _ _)

theorem State.ccLoad_keep (h : Keep s0 s) : ∀ a1 a2 a3, Keep s0 (State.ccLoad s a1 a2 a3).2 := by
  intro a1 a2 a3
  unfold State.ccLoad
  split
  · split
    · exact Keep.snd h
    · exact State.ccLoadSpad_keep h _ _ _
  · split
    · exact Keep.snd h
    · exact State.ccLoadMem_keep h _ _ _
  · split
    · exact Keep.snd h
    · extract_lets x1
      have kx1 : Keep s0 x1.2 := State.farChip_keep h _ _
      split
      · exact Keep.snd kx1
      · split
        · exact State.ccLoadMem_keep kx1 _ _ _
        · refine Keep.foldl_snd (Keep.snd kx1) (fun _ _ h4 => ?_) _
          split
          · extract_lets x5
            have kx5 : Keep s0 x5.2 := State.farLoadPart_keep h4 _ _ _
            exact Keep.snd kx5
          · exact Keep.snd h4
  · exact Keep.snd h

theorem State.ccRetire_keep (h : Keep s0 s) : ∀ a1 a2, Keep s0 (State.ccRetire s a1 a2) := by
  intro a1 a2
  unfold State.ccRetire
  extract_lets x1 x2 x3
  have kx2 : Keep s0 x2 := State.onCore_keep h _ _
  have kx3 : Keep s0 x3 := State.engineProgress_keep (State.busy_keep kx2 _ _ _ _) _ _
  split
  · exact State.haltCore_keep kx3 _
  · exact kx3

theorem State.ccNext_keep (h : Keep s0 s) : ∀ a1, Keep s0 (State.ccNext s a1) := by
  intro a1
  unfold State.ccNext
  exact State.ccRetire_keep h _ _

theorem CoreState.setX_canonical {x : CoreState} (h : x.canonical = true) (n : Nat) (v : Word64) :
    (x.setX n v).canonical = true := by
  unfold CoreState.setX
  split
  · exact h
  · exact CoreState.canonical_of (Table.wf_put (CoreState.canonical_parts h).1) (CoreState.canonical_parts h).2.1
      (CoreState.canonical_parts h).2.2.1 (CoreState.canonical_parts h).2.2.2

theorem State.ccWrite_keep (h : Keep s0 s) : ∀ a1 a2 a3, Keep s0 (State.ccWrite s a1 a2 a3) := by
  intro a1 a2 a3
  unfold State.ccWrite
  exact State.ccNext_keep (State.onCore_keep h _ _ fun _ hx => CoreState.setX_canonical hx _ _) _

theorem State.ccStoreMem_keep (h : Keep s0 s) : ∀ a1 a2 a3, Keep s0 (State.ccStoreMem s a1 a2 a3).2 := by
  intro a1 a2 a3
  unfold State.ccStoreMem
  extract_lets x1 x2
  have kx2 : Keep s0 x2.2 := State.translateRange_keep h _ _ _ _ _ _
  split
  · exact Keep.snd (State.xltRaise_keep kx2 _ _ _ _ _)
  · exact Keep.snd (State.writePieces_keep kx2 _ _)

theorem State.farStorePart_keep (h : Keep s0 s) : ∀ a1 a2 a3 a4, Keep s0 (State.farStorePart s a1 a2 a3 a4).2 := by
  intro a1 a2 a3 a4
  unfold State.farStorePart
  extract_lets x1 x2
  split
  · extract_lets x3 x4
    exact Keep.snd (State.touchLine_keep h _)
  · exact Keep.snd (State.askLine_keep h _ _ _ _)

theorem State.ccStore_keep (h : Keep s0 s) : ∀ a1 a2 a3, Keep s0 (State.ccStore s a1 a2 a3).2 := by
  intro a1 a2 a3
  unfold State.ccStore
  split
  · split
    · exact Keep.snd h
    · exact Keep.snd (State.spadWrite_keep h _ _ _)
  · split
    · exact Keep.snd h
    · exact State.ccStoreMem_keep h _ _ _
  · split
    · exact Keep.snd h
    · extract_lets x1 x2
      have kx1 : Keep s0 x1.2 := State.farChip_keep h _ _
      split
      · exact Keep.snd kx1
      · split
        · exact State.ccStoreMem_keep kx1 _ _ _
        · refine Keep.foldl_snd (Keep.snd kx1) (fun _ _ h5 => ?_) _
          split
          · exact State.farStorePart_keep h5 _ _ _ _
          · exact Keep.snd h5
  · exact Keep.snd h

theorem State.ccAmoBytes_keep (h : Keep s0 s) : ∀ a1 a2 a3 a4 a5 a6 a7, Keep s0 (State.ccAmoBytes s a1 a2 a3 a4 a5 a6 a7) := by
  intro a1 a2 a3 a4 a5 a6 a7
  unfold State.ccAmoBytes
  refine CcMem.andThen_keep _ _ _ (State.ccLoad_keep h _ _ _) (fun _ _ h3 => ?_)
  extract_lets x4
  split
  · exact State.ccWrite_keep h3 _ _ _
  · exact CcMem.andThen_keep _ _ _ (State.ccStore_keep h3 _ _ _) (fun _ _ h7 => State.ccWrite_keep h7 _ _ _)

theorem State.ccAmoMem_keep (h : Keep s0 s) : ∀ a1 a2 a3 a4 a5 a6 a7, Keep s0 (State.ccAmoMem s a1 a2 a3 a4 a5 a6 a7) := by
  intro a1 a2 a3 a4 a5 a6 a7
  unfold State.ccAmoMem
  extract_lets x1 x2
  have kx2 : Keep s0 x2.2 := State.translateRange_keep h _ _ _ _ _ _
  split
  · exact State.ccStall_keep (State.xltRaise_keep kx2 _ _ _ _ _) _ _
  · extract_lets x3
    have kx3 : Keep s0 x3.2 := State.atomicAt_keep kx2 _ _ _ _ _
    split
    · exact State.ccWrite_keep kx3 _ _ _
    · exact State.taskError_keep kx3 _ _

theorem State.ccAmoFar_keep (h : Keep s0 s) : ∀ a1 a2 a3 a4 a5 a6 a7, Keep s0 (State.ccAmoFar s a1 a2 a3 a4 a5 a6 a7) := by
  intro a1 a2 a3 a4 a5 a6 a7
  unfold State.ccAmoFar
  extract_lets x1 x2
  have kx1 : Keep s0 x1.2 := State.farChip_keep h _ _
  split
  · exact State.taskError_keep kx1 _ _
  · split
    · exact State.ccAmoMem_keep kx1 _ _ _ _ _ _ _
    · extract_lets x3
      split
      · exact State.ccAmoBytes_keep kx1 _ _ _ _ _ _ _
      · exact State.ccStall_keep (State.askLine_keep kx1 _ _ _ _) _ _

theorem State.ccAmo_keep (h : Keep s0 s) : ∀ a1 a2 a3 a4 a5 a6, Keep s0 (State.ccAmo s a1 a2 a3 a4 a5 a6) := by
  intro a1 a2 a3 a4 a5 a6
  unfold State.ccAmo
  extract_lets x1 x2 x3 x4
  split
  · exact State.taskError_keep h _ _
  · split
    · exact State.taskError_keep h _ _
    · split
      · exact State.ccAmoBytes_keep h _ _ _ _ _ _ _
      · exact State.ccAmoMem_keep h _ _ _ _ _ _ _
      · exact State.ccAmoFar_keep h _ _ _ _ _ _ _

theorem State.ccBranch_keep (h : Keep s0 s) : ∀ a1 a2 a3, Keep s0 (State.ccBranch s a1 a2 a3) := by
  intro a1 a2 a3
  unfold State.ccBranch
  split
  · exact State.ccRetire_keep h _ _
  · exact State.ccNext_keep h _

theorem State.ccCnt_keep (h : Keep s0 s) : ∀ a1 a2 a3, (∀ t30 t31, Keep s0 t31 → Keep s0 (a3 t30 t31)) → Keep s0 (State.ccCnt s a1 a2 a3) := by
  intro a1 a2 a3 g0
  unfold State.ccCnt
  extract_lets x1
  split
  · exact g0 _ _ h
  · exact State.taskError_keep h _ _

theorem State.ccCread_keep (h : Keep s0 s) : ∀ a1 a2 a3, Keep s0 (State.ccCread s a1 a2 a3) := by
  intro a1 a2 a3
  unfold State.ccCread
  exact State.ccCnt_keep h _ _ _ (fun _ _ h3 => State.ccWrite_keep h3 _ _ _)

theorem State.ccCset_keep (h : Keep s0 s) : ∀ a1 a2 a3, Keep s0 (State.ccCset s a1 a2 a3) := by
  intro a1 a2 a3
  unfold State.ccCset
  exact State.ccCnt_keep h _ _ _ (fun _ _ h3 => State.ccNext_keep (State.setCounter_keep h3 _ _) _)

theorem State.setCv_keep (h : Keep s0 s) : ∀ a1 a2 a3, Keep s0 (State.setCv s a1 a2 a3) := by
  intro a1 a2 a3
  unfold State.setCv
  exact State.onCore_keep h _ _

theorem State.ccCvAppend_keep (h : Keep s0 s) : ∀ a1 a2 a3, Keep s0 (State.ccCvAppend s a1 a2 a3) := by
  intro a1 a2 a3
  unfold State.ccCvAppend
  extract_lets x1 x2 x3 x4 x5
  exact CcMem.andThen_keep _ _ _ (State.ccStore_keep h _ _ _) (fun _ _ h8 => State.ccNext_keep (State.setCv_keep h8 _ _ _) _)

theorem State.ccCvCheck_keep (h : Keep s0 s) : ∀ a1 a2 a3 a4, Keep s0 (State.ccCvCheck s a1 a2 a3 a4) := by
  intro a1 a2 a3 a4
  unfold State.ccCvCheck
  extract_lets x1 x2 x3 x4 x5
  refine CcMem.andThen_keep _ _ _ (State.ccLoad_keep h _ _ _) (fun _ _ h8 => ?_)
  extract_lets x9 x10 x11 x12
  exact State.ccWrite_keep (State.setCv_keep h8 _ _ _) _ _ _

theorem State.ccCvFeed_keep (h : Keep s0 s) : ∀ a1 a2 a3 a4, Keep s0 (State.ccCvFeed s a1 a2 a3 a4) := by
  intro a1 a2 a3 a4
  unfold State.ccCvFeed
  exact State.ccNext_keep (State.setCv_keep h _ _ _) _

theorem State.ccCvInit_keep (h : Keep s0 s) : ∀ a1 a2 a3, Keep s0 (State.ccCvInit s a1 a2 a3) := by
  intro a1 a2 a3
  unfold State.ccCvInit
  extract_lets x1 x2
  split
  · exact State.taskError_keep h _ _
  · exact State.ccNext_keep (State.setCv_keep h _ _ _) _

theorem State.ccCvLedger_keep (h : Keep s0 s) : ∀ a1 a2 a3 a4, Keep s0 (State.ccCvLedger s a1 a2 a3 a4) := by
  intro a1 a2 a3 a4
  unfold State.ccCvLedger
  extract_lets x1 x2
  exact State.ccNext_keep (State.ledgerRecord_keep h _ _ _ _ _ _ _) _

theorem State.ccCvPut_keep (h : Keep s0 s) : ∀ a1 a2 a3, Keep s0 (State.ccCvPut s a1 a2 a3) := by
  intro a1 a2 a3
  unfold State.ccCvPut
  extract_lets x1
  exact State.ccNext_keep (State.setCv_keep h _ _ _) _

theorem State.ccCvPuta_keep (h : Keep s0 s) : ∀ a1 a2 a3, Keep s0 (State.ccCvPuta s a1 a2 a3) := by
  intro a1 a2 a3
  unfold State.ccCvPuta
  extract_lets x1 x2
  split
  · exact State.taskError_keep h _ _
  · exact State.ccNext_keep (State.setCv_keep h _ _ _) _

theorem State.ccRelease_keep (h : Keep s0 s) : ∀ a1 a2 a3, (∀ t30, Keep s0 t30 → Keep s0 (a3 t30)) → Keep s0 (State.ccRelease s a1 a2 a3) := by
  intro a1 a2 a3 g0
  unfold State.ccRelease
  extract_lets x1
  have kx1 : Keep s0 x1 := State.flushFar_keep h _
  split
  · exact g0 _ kx1
  · exact State.ccStall_keep kx1 _ _

theorem State.ccEndInstance_keep (h : Keep s0 s) : ∀ a1 a2, Keep s0 (State.ccEndInstance s a1 a2) := by
  intro a1 a2
  unfold State.ccEndInstance
  refine State.ccRelease_keep h _ _ _ (fun _ h2 => ?_)
  extract_lets x3
  exact State.ccRetire_keep (State.onCore_keep h2 _ _) _ _

theorem State.ccEnq_keep (h : Keep s0 s) : ∀ a1 a2 a3, Keep s0 (State.ccEnq s a1 a2 a3) := by
  intro a1 a2 a3
  unfold State.ccEnq
  extract_lets x1
  split
  · exact State.ccStall_keep h _ _
  · refine State.ccRelease_keep h _ _ _ (fun _ h3 => ?_)
    refine CcMem.andThen_keep _ _ _ (State.ccLoadSpad_keep h3 _ _ _) (fun _ _ h6 => ?_)
    extract_lets x7 x8
    have kx7 : Keep s0 x7 := by
      unfold x7
      split
      · exact h6
      · exact State.engineProgress_keep h6 _ _
    have kx8 : Keep s0 x8 := State.onCore_keep kx7 _ _ fun _ hx => CoreState.withQueue_canonical hx _ _
    refine State.ccNext_keep ?_ _
    split
    · exact State.askRamp_keep kx8 _
    · exact kx8

theorem State.ccMaint_keep (h : Keep s0 s) : ∀ a1, Keep s0 (State.ccMaint s a1) := by
  intro a1
  unfold State.ccMaint
  split
  · exact State.ccNext_keep h _
  · exact State.ccStall_keep h _ _

theorem State.ccFar_keep (h : Keep s0 s) : ∀ a1 a2 a3 a4, Keep s0 (State.ccFar s a1 a2 a3 a4) := by
  intro a1 a2 a3 a4
  unfold State.ccFar
  extract_lets x1 x2
  have kx2 : Keep s0 x2.2 := State.farChip_keep h _ _
  split
  · exact State.taskError_keep h _ _
  · split
    · exact State.taskError_keep kx2 _ _
    · extract_lets x3
      refine State.ccMaint_keep ?_ _
      refine Keep.foldl (fun _ _ h6 => ?_) _ kx2
      split
      · exact State.evict_keep h6 _
      · exact State.writeBack_keep h6 _

theorem State.ccFence_keep (h : Keep s0 s) : ∀ a1, Keep s0 (State.ccFence s a1) := by
  intro a1
  unfold State.ccFence
  exact State.ccMaint_keep (State.flushFar_keep h _) _

theorem State.ccJump_keep (h : Keep s0 s) : ∀ a1 a2 a3, Keep s0 (State.ccJump s a1 a2 a3) := by
  intro a1 a2 a3
  unfold State.ccJump
  extract_lets x1
  exact State.ccRetire_keep (State.onCore_keep h _ _ fun _ hx => CoreState.setX_canonical hx _ _) _ _

theorem State.ccLd_keep (h : Keep s0 s) : ∀ a1 a2 a3 a4, Keep s0 (State.ccLd s a1 a2 a3 a4) := by
  intro a1 a2 a3 a4
  unfold State.ccLd
  split
  · exact State.taskError_keep h _ _
  · split
    · exact State.taskError_keep h _ _
    · exact CcMem.andThen_keep _ _ _ (State.ccLoad_keep h _ _ _) (fun _ _ h3 => State.ccWrite_keep h3 _ _ _)

theorem State.ccMark_keep (h : Keep s0 s) : ∀ a1 a2 a3, Keep s0 (State.ccMark s a1 a2 a3) := by
  intro a1 a2 a3
  unfold State.ccMark
  exact State.ccNext_keep (State.traceRecord_keep h _ _ _ _) _

theorem State.ccMaskCount_keep (h : Keep s0 s) : ∀ a1 a2 a3, Keep s0 (State.ccMaskCount s a1 a2 a3) := by
  intro a1 a2 a3
  unfold State.ccMaskCount
  extract_lets x1
  exact State.ccNext_keep (State.onCore_keep h _ _ fun _ hx => by
    obtain ⟨a, b, c, d⟩ := CoreState.canonical_parts hx
    exact CoreState.canonical_of a b (Table.wf_put c) d) _

theorem State.ccMaskSpad_keep (h : Keep s0 s) : ∀ a1 a2 a3, Keep s0 (State.ccMaskSpad s a1 a2 a3) := by
  intro a1 a2 a3
  unfold State.ccMaskSpad
  exact CcMem.andThen_keep _ _ _ (State.ccLoadSpad_keep h _ _ _) (fun _ _ h3 => State.ccNext_keep (State.onCore_keep h3 _ _ fun _ hx => by
    obtain ⟨a, b, c, d⟩ := CoreState.canonical_parts hx
    exact CoreState.canonical_of a b (Table.wf_put c) d) _)

theorem State.ccSem_keep (h : Keep s0 s) : ∀ a1 a2 a3, (∀ t30 t31, Keep s0 t31 → Keep s0 (a3 t30 t31)) → Keep s0 (State.ccSem s a1 a2 a3) := by
  intro a1 a2 a3 g0
  unfold State.ccSem
  extract_lets x1
  split
  · exact g0 _ _ h
  · exact State.taskError_keep h _ _

theorem State.ccReadSem_keep (h : Keep s0 s) : ∀ a1 a2 a3, Keep s0 (State.ccReadSem s a1 a2 a3) := by
  intro a1 a2 a3
  unfold State.ccReadSem
  exact State.ccSem_keep h _ _ _ (fun _ _ h3 => State.ccWrite_keep h3 _ _ _)

theorem State.ccRun_keep (h : Keep s0 s) : ∀ a1 a2 a3, (∀ t30, Keep s0 t30 → Keep s0 (a3 t30)) → Keep s0 (State.ccRun s a1 a2 a3) := by
  intro a1 a2 a3 g0
  unfold State.ccRun
  split
  · exact h
  · split
    · exact State.breakHit_keep h _ _
    · split
      · exact State.taskError_keep h _ _
      · split
        · exact State.taskError_keep h _ _
        · split
          · exact g0 _ h
          · exact h

theorem State.ccSet_keep (h : Keep s0 s) : ∀ a1 a2 a3, Keep s0 (State.ccSet s a1 a2 a3) := by
  intro a1 a2 a3
  unfold State.ccSet
  exact State.ccSem_keep h _ _ _ (fun _ _ h3 => State.ccRelease_keep h3 _ _ _ (fun _ h5 => State.ccNext_keep (State.setSem_keep h5 _ _) _))

theorem State.ccSignal_keep (h : Keep s0 s) : ∀ a1 a2 a3, Keep s0 (State.ccSignal s a1 a2 a3) := by
  intro a1 a2 a3
  unfold State.ccSignal
  exact State.ccSem_keep h _ _ _ (fun _ _ h3 => State.ccRelease_keep h3 _ _ _ (fun _ h5 => State.ccNext_keep (State.signal_keep h5 _ _) _))

theorem State.ccSt_keep (h : Keep s0 s) : ∀ a1 a2 a3 a4, Keep s0 (State.ccSt s a1 a2 a3 a4) := by
  intro a1 a2 a3 a4
  unfold State.ccSt
  split
  · exact State.taskError_keep h _ _
  · split
    · exact State.taskError_keep h _ _
    · exact CcMem.andThen_keep _ _ _ (State.ccStore_keep h _ _ _) (fun _ _ h3 => State.ccNext_keep h3 _)

theorem State.ccTrigArm_keep (h : Keep s0 s) : ∀ a1 a2 a3, Keep s0 (State.ccTrigArm s a1 a2 a3) := by
  intro a1 a2 a3
  unfold State.ccTrigArm
  split
  · exact State.taskError_keep h _ _
  · refine CcMem.andThen_keep _ _ _ (State.ccLoadSpad_keep h _ _ _) (fun _ _ h3 => ?_)
    extract_lets x4 x5 x6
    split
    · exact State.taskError_keep h3 _ _
    · exact State.ccNext_keep (State.syncChanged_keep (State.onCtx_keep h3 _ _) _) _

theorem State.ccTrigDisarm_keep (h : Keep s0 s) : ∀ a1 a2, Keep s0 (State.ccTrigDisarm s a1 a2) := by
  intro a1 a2
  unfold State.ccTrigDisarm
  split
  · exact State.taskError_keep h _ _
  · exact State.ccNext_keep (State.onCtx_keep h _ _) _

theorem State.ccWait_keep (h : Keep s0 s) : ∀ a1 a2 a3, Keep s0 (State.ccWait s a1 a2 a3) := by
  intro a1 a2 a3
  unfold State.ccWait
  refine State.ccSem_keep h _ _ _ (fun _ _ h3 => ?_)
  extract_lets x4
  split
  · exact State.ccNext_keep h3 _
  · exact State.ccStall_keep h3 _ _

theorem State.ccWaitc_keep (h : Keep s0 s) : ∀ a1 a2 a3, Keep s0 (State.ccWaitc s a1 a2 a3) := by
  intro a1 a2 a3
  unfold State.ccWaitc
  refine State.ccCnt_keep h _ _ _ (fun _ _ h3 => ?_)
  extract_lets x4
  split
  · exact State.ccNext_keep h3 _
  · exact State.ccStall_keep h3 _ _

theorem State.ccWindow_keep (h : Keep s0 s) : ∀ a1 a2 a3, Keep s0 (State.ccWindow s a1 a2 a3) := by
  intro a1 a2 a3
  unfold State.ccWindow
  extract_lets x1
  exact State.ccNext_keep (State.onCore_keep h _ _ fun _ hx => by
    obtain ⟨a, b, c, d⟩ := CoreState.canonical_parts hx
    exact CoreState.canonical_of a (Table.wf_put b) c d) _

theorem State.maintComplete_keep (h : Keep s0 s) : ∀ a1, Keep s0 (State.maintComplete s a1) := by
  intro a1
  unfold State.maintComplete
  split
  · exact State.ccNext_keep h _
  · exact h

theorem State.waitSatisfied_keep (h : Keep s0 s) : ∀ a1, Keep s0 (State.waitSatisfied s a1) := by
  intro a1
  unfold State.waitSatisfied
  split
  · exact State.ccNext_keep h _
  · exact h

end Sys2Proof.Machine
end

