-- ==== Sys2Proof/Laws/Cores.lean ====
section
/-! SUPPORT. Instructions of the control core: running the word a core is about to execute, retiring, and registers. -/
set_option Elab.async false
namespace Sys2Proof.Machine
open Sys2Proof Sys2Proof.Bits

variable {s : State}

/-- The instruction that a core is about to execute has its effect. -/
theorem State.ccRun_about {core w : Nat} {form : CcForm} {effect : State → State} (h : s.about core w = true)
    (hl : ccLegal w = true) (hm : form.matches w = true) : s.ccRun core form effect = effect s := by
  unfold State.about at h
  simp only [Bool.and_eq_true, Bool.or_eq_true, beq_iff_eq] at h
  obtain ⟨⟨hr, hb⟩, hw⟩ := h
  have e : (if (s.core core).pass = true then none else s.bkptAt core) = none := by
    split
    · rfl
    · next hp =>
      rcases hb with hb | hb
      · exact absurd hb hp
      · simpa using hb
  unfold State.ccRun
  rw [if_neg (by simp [hr]), e, hw]
  simp [hl, hm]

/-! ### Words -/

theorem fld_op {op rd ra x : Nat} (h : op < 64) (hd : rd < 32) (ha : ra < 32) (hx : x < 65536) :
    fld (op * 2 ^ 26 + rd * 2 ^ 21 + ra * 2 ^ 16 + x) 31 26 = op := by
  simp only [fld, Nat.shiftRight_eq_div_pow]; omega

theorem fld_rd {op rd ra x : Nat} (hd : rd < 32) (ha : ra < 32) (hx : x < 65536) :
    fld (op * 2 ^ 26 + rd * 2 ^ 21 + ra * 2 ^ 16 + x) 25 21 = rd := by
  simp only [fld, Nat.shiftRight_eq_div_pow]; omega

theorem fld_ra {op rd ra x : Nat} (ha : ra < 32) (hx : x < 65536) :
    fld (op * 2 ^ 26 + rd * 2 ^ 21 + ra * 2 ^ 16 + x) 20 16 = ra := by
  simp only [fld, Nat.shiftRight_eq_div_pow]; omega

theorem fld_imm {op rd ra x : Nat} (hx : x < 65536) :
    fld (op * 2 ^ 26 + rd * 2 ^ 21 + ra * 2 ^ 16 + x) 15 0 = x := by
  simp only [fld, Nat.shiftRight_eq_div_pow]; omega

theorem fld_rb {op rd ra rb fn : Nat} (hb : rb < 32) (hf : fn < 2048) :
    fld (op * 2 ^ 26 + rd * 2 ^ 21 + ra * 2 ^ 16 + (rb * 2 ^ 11 + fn)) 15 11 = rb := by
  simp only [fld, Nat.shiftRight_eq_div_pow]; omega

theorem fld_fn {op rd ra rb fn : Nat} (hf : fn < 2048) :
    fld (op * 2 ^ 26 + rd * 2 ^ 21 + ra * 2 ^ 16 + (rb * 2 ^ 11 + fn)) 10 0 = fn := by
  simp only [fld, Nat.shiftRight_eq_div_pow]; omega

/-- The fields of a word with two registers and an immediate. -/
theorem ccWordImm_fields {op rd ra imm : Nat} (h : op < 64) (hd : rd < 32) (ha : ra < 32) (hx : imm < 65536) :
    fld (ccWordImm op rd ra imm) 31 26 = op ∧ fld (ccWordImm op rd ra imm) 25 21 = rd ∧
    fld (ccWordImm op rd ra imm) 20 16 = ra ∧ fld (ccWordImm op rd ra imm) 15 0 = imm :=
  ⟨fld_op h hd ha hx, fld_rd hd ha hx, fld_ra ha hx, fld_imm hx⟩

/-- The fields of a word with three registers and a function code. -/
theorem ccWord_fields {op rd ra rb fn : Nat} (h : op < 64) (hd : rd < 32) (ha : ra < 32) (hb : rb < 32) (hf : fn < 2048) :
    fld (ccWord op rd ra rb fn) 31 26 = op ∧ fld (ccWord op rd ra rb fn) 25 21 = rd ∧
    fld (ccWord op rd ra rb fn) 20 16 = ra ∧ fld (ccWord op rd ra rb fn) 15 11 = rb ∧ fld (ccWord op rd ra rb fn) 10 0 = fn := by
  have e : ccWord op rd ra rb fn = op * 2 ^ 26 + rd * 2 ^ 21 + ra * 2 ^ 16 + (rb * 2 ^ 11 + fn) := by
    unfold ccWord; omega
  have hx : rb * 2 ^ 11 + fn < 65536 := by omega
  rw [e]
  exact ⟨fld_op h hd ha hx, fld_rd hd ha hx, fld_ra ha hx, fld_rb hb hf, fld_fn hf⟩

/-! ### Retiring -/

/-- Busy counts change the dictionary alone. -/
theorem State.busy_dict (s : State) (bk ck c n : Nat) : s.busy bk ck c n = { s with dict := (s.busy bk ck c n).dict } := by
  unfold State.busy
  dsimp only
  split <;> rfl

theorem State.setReg_rising (h : rising (s.dict.map Prod.fst) = true) (k v : Nat) :
    rising ((s.setReg k v).dict.map Prod.fst) = true := by
  rw [State.setReg_dict]
  split
  · exact rising_erase h
  · exact rising_insert h

/-- Busy counts leave other entries alone. -/
theorem State.busy_reg (hd : rising (s.dict.map Prod.fst) = true) (bk ck c n : Nat) (k : Nat) (h1 : k ≠ bk) (h2 : k ≠ unitKey ck c) :
    (s.busy bk ck c n).reg k = s.reg k := by
  unfold State.busy State.bumpBy
  dsimp only
  split
  · rw [State.reg_setReg (State.setReg_rising hd _ _), if_neg h2, State.reg_setReg hd, if_neg h1]
  · rw [State.reg_setReg hd, if_neg h1]

theorem State.core_congr {t : State} (h : t.cores = s.cores) (n : Nat) : t.core n = s.core n := by
  unfold State.core; rw [h]

/-- An instruction that retires leaves all but its core, the counts and the progress alone. -/
theorem State.ccRetire_retired (h : s.sound = true) (core pc : Nat) : s.Retired (s.ccRetire core pc) core (pc % 2 ^ 64) := by
  have hc := (State.sound_iff.1 h).cores
  have hd := (State.sound_iff.1 h).dict
  unfold State.ccRetire
  extract_lets c s1 s2
  obtain ⟨s3, e3⟩ : ∃ x, x = s1.busy Reg.OBS_CC_RETIRED Reg.CTX_CC_RETIRED c 1 := ⟨_, rfl⟩
  have h3 : s3 = { s1 with dict := s3.dict } := by rw [e3]; exact State.busy_dict _ _ _ _ _
  have h2 : s2 = { s3 with flt := s2.flt } := by unfold s2; rw [← e3]; rfl
  have hf : s2.flt = { s.flt with progress := s2.flt.progress } := by
    have hf3 : s3.flt = s.flt := by rw [h3]; rfl
    rw [← hf3]
    unfold s2; rw [← e3]
    rfl
  have hcs : s2.cores = s1.cores := by rw [h2, h3]
  have e2 (n : Nat) : s2.core n = if n = core then { s.core core with pc := pc % 2 ^ 64, stall := .none, pass := false } else s.core n := by
    rw [State.core_congr hcs]
    exact State.core_onCore hc _ _ _
  have hr (k : Nat) (a : k ≠ Reg.OBS_CC_RETIRED) (b : k ≠ unitKey Reg.CTX_CC_RETIRED c) : s2.reg k = s.reg k := by
    have : s2.reg k = s3.reg k := State.reg_congr (by rw [h2]) (by rw [h2]) (by rw [h2]) k
    rw [this, e3, State.busy_reg (s := s1) hd _ _ _ _ _ a b]
    exact State.reg_congr rfl rfl rfl k
  have w2 : Table.wf CoreState.reset s2.cores = true := by rw [hcs]; exact Table.wf_put hc
  have r2 : s2 = { s with cores := s2.cores, dict := s2.dict, flt := { s.flt with progress := s2.flt.progress } } := by
    rw [← hf, hcs]
    conv => lhs; rw [h2, h3]
    have : s2.dict = s3.dict := by rw [h2]
    rw [this]; rfl
  split
  · next hs =>
    unfold State.haltCore
    extract_lets hl
    have e4 (n : Nat) : (s2.onCore core fun x => { x with halt := hl, step := false, pass := false }).core n =
        if n = core then { s2.core core with halt := hl, step := false, pass := false } else s2.core n := State.core_onCore w2 _ _ _
    have hl' : hl ≠ .running := by unfold hl; split <;> intro h <;> cases h
    refine ⟨?_, ?_, ?_, ?_, ?_, ?_, ?_⟩
    · rw [e4, if_pos rfl, e2, if_pos rfl]
    · rw [e4, if_pos rfl, e2, if_pos rfl]
    · intro hn; rw [hs] at hn; cases hn
    · intro _; rw [e4, if_pos rfl]; exact ⟨hl', rfl⟩
    · intro n hn; rw [e4, if_neg hn, e2, if_neg hn]
    · intro k a b
      exact (State.reg_congr rfl rfl rfl k).trans (hr k a b)
    · show { s2 with cores := _ } = _
      conv => lhs; rw [r2]
      rfl
  · next hs =>
    refine ⟨?_, ?_, ?_, ?_, ?_, hr, r2⟩
    · rw [e2, if_pos rfl]
    · rw [e2, if_pos rfl]
    · intro _; rw [e2, if_pos rfl]
    · intro hn; exact absurd hn hs
    · intro n hn; rw [e2, if_neg hn]

/-- The registers of a core after it retires. -/
theorem State.ccRetire_x (h : s.sound = true) (core pc n r : Nat) : (s.ccRetire core pc).x n r = s.x n r := by
  have hc := (State.sound_iff.1 h).cores
  have key : ((s.ccRetire core pc).core n).regs = (s.core n).regs := by
    unfold State.ccRetire
    extract_lets c s1 s2
    have hcs : s2.cores = s1.cores := by
      have := congrArg State.cores (State.busy_dict s1 Reg.OBS_CC_RETIRED Reg.CTX_CC_RETIRED c 1)
      exact this
    have e2 : (s2.core n).regs = (s.core n).regs := by
      rw [State.core_congr hcs]
      unfold s1
      rw [State.core_onCore hc]
      split
      · next e => rw [e]
      · rfl
    have w2 : Table.wf CoreState.reset s2.cores = true := by rw [hcs]; exact Table.wf_put hc
    split
    · unfold State.haltCore
      rw [State.core_onCore w2]
      split
      · next e => rw [← e]; exact e2
      · exact e2
    · exact e2
  unfold State.x CoreState.x
  rw [key]

/-- What a core with a register written reads. -/
theorem CoreState.x_setX {x : CoreState} (h : x.canonical = true) (n r : Nat) (v : Word64) :
    (x.setX n v).x r = if r = n ∧ r ≠ 0 then v else x.x r := by
  unfold CoreState.setX CoreState.x
  by_cases hr : r = 0
  · simp [hr]
  · by_cases hn : n = 0
    · simp [hn, hr]
    · rw [if_neg hr, if_neg hr, if_neg hn, Table.get_put (CoreState.canonical_parts h).1]
      simp [hr]

/-- An instruction that writes a register and retires. -/
theorem State.ccWrite_spec (h : s.sound = true) (core rd : Nat) (v : Word64) :
    s.Retired (s.ccWrite core rd v) core (((s.core core).pc + 4) % 2 ^ 64) ∧
    ∀ r, (s.ccWrite core rd v).x core r = if r = rd ∧ r ≠ 0 then v else s.x core r := by
  have hc := (State.sound_iff.1 h).cores
  have hp := (State.sound_iff.1 h).coreParts
  have k : Keep s (s.onCore core fun x => x.setX rd v) :=
    State.onCore_keep (Keep.refl s) _ _ fun _ hx => CoreState.setX_canonical hx _ _
  have h1 := k.kept.sound h
  have e (n : Nat) : (s.onCore core fun x => x.setX rd v).core n = if n = core then (s.core core).setX rd v else s.core n :=
    State.core_onCore hc _ _ _
  have e1 : (s.onCore core fun x => x.setX rd v).core core = (s.core core).setX rd v := by rw [e, if_pos rfl]
  have same : ∀ x : CoreState, (x.setX rd v) = { x with regs := (x.setX rd v).regs } := by
    intro x; unfold CoreState.setX; split <;> rfl
  have epc : ((s.onCore core fun x => x.setX rd v).core core).pc = (s.core core).pc := by rw [e1, same]
  have est : ((s.onCore core fun x => x.setX rd v).core core).step = (s.core core).step := by rw [e1, same]
  unfold State.ccWrite State.ccNext
  rw [epc]
  have R := State.ccRetire_retired h1 core ((s.core core).pc + 4)
  refine ⟨⟨R.next, R.idle, ?_, ?_, ?_, ?_, ?_⟩, ?_⟩
  · intro hs
    have := R.own (est.trans hs)
    rw [e1, same] at this
    exact this
  · intro hs; exact R.steps (est.trans hs)
  · intro n hn
    rw [R.cores n hn, e, if_neg hn]
  · intro kk a b
    have hctx : (s.onCore core fun x => x.setX rd v).ctxOfCore core = s.ctxOfCore core := by
      unfold State.ctxOfCore; rw [e1, same]
    rw [R.entries kk a (by rw [hctx]; exact b)]
    exact State.reg_congr rfl rfl rfl kk
  · exact R.rest
  · intro r
    rw [State.ccRetire_x h1]
    unfold State.x
    rw [e1, CoreState.x_setX (State.core_canonical hp core)]

end Sys2Proof.Machine
end

