-- ==== Sys2Proof/Laws/KeepRequester.lean ====
section
/-! SUPPORT. What the operations of Requester.lean keep: a lemma for each. -/
set_option Elab.async false
namespace Sys2Proof.Machine
open Sys2Proof Sys2Proof.Bits

variable {s0 s : State}

theorem State.windowReq_keep (h : Keep s0 s) : ∀ a1 a2 a3 a4 a5, Keep s0 (State.windowReq s a1 a2 a3 a4 a5) := by
  intro a1 a2 a3 a4 a5
  unfold State.windowReq
  extract_lets x1 x2
  exact State.sendPkt_keep h _ _

theorem State.onWindow_keep (h : Keep s0 s) : ∀ a1 a2, Keep s0 (State.onWindow s a1 a2) := by
  intro a1 a2
  unfold State.onWindow
  exact State.onRmt_keep h _

theorem State.askWindow_keep (h : Keep s0 s) : ∀ a1 a2 a3, Keep s0 (State.askWindow s a1 a2 a3) := by
  intro a1 a2 a3
  unfold State.askWindow
  extract_lets x1
  split
  · exact h
  · exact State.windowReq_keep (State.onWindow_keep h _ _) _ _ _ _ _

theorem State.countReissue_keep (h : Keep s0 s) : ∀ a1, Keep s0 (State.countReissue s a1) := by
  intro a1
  unfold State.countReissue
  exact State.bumpBy_keep (State.bump_keep h _) _ _ _

theorem State.onTxn_keep (h : Keep s0 s) : ∀ a1 a2, Keep s0 (State.onTxn s a1 a2) := by
  intro a1 a2
  unfold State.onTxn
  exact State.onRmt_keep h _

theorem State.sendSeq_keep (h : Keep s0 s) : ∀ a1 a2 a3, Keep s0 (State.sendSeq s a1 a2 a3) := by
  intro a1 a2 a3
  unfold State.sendSeq
  split
  · exact h
  · extract_lets x1 x2 x3 x4 x5 x6 x7 x8 x9 x10
    have kx7 : Keep s0 x7 := State.onWindow_keep h _ _
    have kx8 : Keep s0 x8 := State.onTxn_keep kx7 _ _
    have kx10 : Keep s0 x10 := State.sendAvoiding_keep kx8 _ _ _
    split
    · exact State.sendAvoiding_keep kx10 _ _ _
    · exact kx10

theorem State.pump_keep (h : Keep s0 s) : ∀ a1, Keep s0 (State.pump s a1) := by
  intro a1
  unfold State.pump
  refine Keep.foldl (fun _ _ h3 => ?_) _ h
  extract_lets x4
  have kx4 : ∀ p1, Keep s0 p1 → Keep s0 (x4 p1) := fun _ h6 => State.onWindow_keep h6 _ _
  split
  · exact kx4 _ h3
  · split
    · exact kx4 _ h3
    · split
      · exact kx4 _ h3
      · split
        · exact kx4 _ (State.sendSeq_keep h3 _ _ _)
        · split
          · exact kx4 _ (State.sendSeq_keep h3 _ _ _)
          · exact State.askWindow_keep h3 _ _ _

theorem State.queueSeq_keep (h : Keep s0 s) : ∀ a1 a2, Keep s0 (State.queueSeq s a1 a2) := by
  intro a1 a2
  unfold State.queueSeq
  split
  · exact h
  · split
    · exact State.sendSeq_keep h _ _ _
    · exact State.pump_keep (State.onWindow_keep h _ _) _

theorem State.backoffExpire_keep (h : Keep s0 s) : ∀ a1 a2, Keep s0 (State.backoffExpire s a1 a2) := by
  intro a1 a2
  unfold State.backoffExpire
  split
  · exact h
  · split
    · exact h
    · extract_lets x1 x2
      have kx2 : Keep s0 x2 := State.countReissue_keep (State.onTxn_keep h _ _) _
      split
      · exact h
      · split
        · exact State.queueSeq_keep kx2 _ _
        · split
          · exact State.sendSeq_keep kx2 _ _ _
          · exact kx2

theorem State.endDesc_keep (h : Keep s0 s) : ∀ a1 a2 a3, Keep s0 (State.endDesc s a1 a2 a3) := by
  intro a1 a2 a3
  unfold State.endDesc
  extract_lets x1 x2 x3 x4
  have kx1 : Keep s0 x1 := State.descProgress_keep (State.onRmt_keep h _) _ _
  have kx2 : Keep s0 x2 := by
    unfold x2
    split
    · exact State.spadWrite_keep kx1 _ _ _
    · exact kx1
  have kx3 : Keep s0 x3 := by
    unfold x3
    split
    · exact kx2
    · exact State.bump_keep kx2 _
  have kx4 : Keep s0 x4 := by
    unfold x4
    split
    · exact State.advance_keep kx3 _ _
    · exact kx3
  split
  · split
    · exact State.onTask_keep kx4 _ _ _
    · exact kx4
  · exact kx4

theorem State.checkDesc_keep (h : Keep s0 s) : ∀ a1, Keep s0 (State.checkDesc s a1) := by
  intro a1
  unfold State.checkDesc
  split
  · exact h
  · split
    · exact h
    · split
      · exact State.endDesc_keep h _ _ _
      · exact State.endDesc_keep h _ _ _

theorem State.onDesc_keep (h : Keep s0 s) : ∀ a1 a2, Keep s0 (State.onDesc s a1 a2) := by
  intro a1 a2
  unfold State.onDesc
  exact State.onRmt_keep h _

theorem State.tellOwner_keep (h : Keep s0 s) : ∀ a1, Keep s0 (State.tellOwner s a1) := by
  intro a1
  unfold State.tellOwner
  split
  · extract_lets x1
    exact State.engineProgress_keep (State.checkDesc_keep (State.onDesc_keep h _ _) _) _ _
  · split
    · exact State.endDesc_keep h _ _ _
    · exact h
  · extract_lets x2 x3
    exact State.onFar_keep h _
  · exact State.onFar_keep h _
  · split
    · exact State.onDisp_keep (State.setReg_keep (State.setReg_keep h _ _) _ _) _
    · exact State.onDisp_keep (State.setReg_keep h _ _) _

theorem State.retireTxn_keep (h : Keep s0 s) : ∀ a1, Keep s0 (State.retireTxn s a1) := by
  intro a1
  unfold State.retireTxn
  split
  · exact State.onTxn_keep h _ _
  · extract_lets x1
    have kx1 : Keep s0 x1 := State.onRmt_keep h _
    split
    · exact kx1
    · exact State.onWindow_keep kx1 _ _

theorem State.checkTxn_keep (h : Keep s0 s) : ∀ a1, Keep s0 (State.checkTxn s a1) := by
  intro a1
  unfold State.checkTxn
  split
  · exact h
  · split
    · exact State.pump_keep (State.tellOwner_keep (State.retireTxn_keep h _) _) _
    · exact State.pump_keep h _

theorem State.doneSeq_keep (h : Keep s0 s) : ∀ a1 a2, Keep s0 (State.doneSeq s a1 a2) := by
  intro a1 a2
  unfold State.doneSeq
  exact State.onTxn_keep h _ _

theorem State.failSeq_keep (h : Keep s0 s) : ∀ a1 a2 a3, Keep s0 (State.failSeq s a1 a2 a3) := by
  intro a1 a2 a3
  unfold State.failSeq
  split
  · exact h
  · extract_lets x1 x2 x3 x4
    have kx3 : Keep s0 x3 := by
      unfold x3
      split
      · exact State.onRmt_keep (State.onTxn_keep h _ _) _
      · exact State.onTxn_keep h _ _
    have kx4 : Keep s0 x4 := by
      unfold x4
      split
      · exact State.raise_keep kx3 _ _ _ _
      · exact kx3
    exact State.checkTxn_keep kx4 _

theorem State.freeTag_keep (h : Keep s0 s) : ∀ a1, Keep s0 (State.freeTag s a1).2 := by
  intro a1
  unfold State.freeTag
  extract_lets x1
  split
  · exact Keep.snd h
  · exact State.pick_keep h _

theorem State.readItem_keep (h : Keep s0 s) : ∀ a1 a2 a3, Keep s0 (State.readItem s a1 a2 a3).2 := by
  intro a1 a2 a3
  unfold State.readItem
  split
  · extract_lets x1
    have kx1 : Keep s0 x1.2 := State.memRead_keep h _ _
    exact Keep.snd kx1
  · extract_lets x2
    have kx2 : Keep s0 x2.2 := State.spadRead_keep h _ _ _
    exact Keep.snd kx2
  · extract_lets x3
    have kx3 : Keep s0 x3.2 := State.translateRange_keep h _ _ _ _ _ _
    split
    · exact Keep.snd kx3
    · extract_lets x4
      have kx4 : Keep s0 x4.2 := State.readPieces_keep kx3 _
      exact Keep.snd kx4

theorem State.pinPieces_keep (h : Keep s0 s) : ∀ a1 a2 a3 a4, Keep s0 (State.pinPieces s a1 a2 a3 a4).2 := by
  intro a1 a2 a3 a4
  induction a4 generalizing s a1 a2 a3 with
  | nil =>
    unfold State.pinPieces
    exact Keep.snd h
  | cons x xs ih =>
    unfold State.pinPieces
    extract_lets x1 x2
    have kx1 : Keep s0 x1.2 := by
      unfold x1
      split
      · exact Keep.snd h
      · exact State.translateRange_keep h _ _ _ _ _ _
    have kx2 : Keep s0 x2.2 := ih kx1 _ _ _
    split
    · exact Keep.snd kx1
    · split
      · exact Keep.snd kx2
      · exact Keep.snd kx2

theorem State.prepare_keep (h : Keep s0 s) : ∀ a1 a2 a3 a4, Keep s0 (State.prepare s a1 a2 a3 a4).2 := by
  intro a1 a2 a3 a4
  unfold State.prepare
  split
  · extract_lets x1 x2
    have kx1 : Keep s0 x1.2 := State.readItem_keep h _ _ _
    split
    · exact Keep.snd (State.xltRaise_keep kx1 _ _ _ _ _)
    · extract_lets x3
      split
      · exact Keep.snd (State.onTxn_keep kx1 _ _)
      · exact Keep.snd (State.queueSeq_keep (State.onTxn_keep kx1 _ _) _ _)
  · extract_lets x4
    have kx4 : Keep s0 x4.2 := State.pinPieces_keep h _ _ _ _
    split
    · exact Keep.snd (State.xltRaise_keep kx4 _ _ _ _ _)
    · extract_lets x5
      have kx5 : Keep s0 x5 := State.onTxn_keep kx4 _ _
      refine Keep.snd ?_
      split
      · exact kx5
      · exact State.queueSeq_keep kx5 _ _

theorem State.prepareAll_keep (h : Keep s0 s) : ∀ a1 a2 a3 a4, Keep s0 (State.prepareAll s a1 a2 a3 a4).2 := by
  intro a1 a2 a3 a4
  induction a4 generalizing s a1 a2 a3 with
  | nil =>
    unfold State.prepareAll
    exact Keep.snd h
  | cons x xs ih =>
    unfold State.prepareAll
    extract_lets x1 x2
    have kx1 : Keep s0 x1.2 := State.prepare_keep h _ _ _ _
    have kx2 : Keep s0 x2.2 := ih kx1 _ _ _
    split
    · exact kx2
    · split
      · exact Keep.snd kx2
      · exact Keep.snd kx1

theorem State.runPlan_keep (h : Keep s0 s) : ∀ a1 a2 a3, Keep s0 (State.runPlan s a1 a2 a3) := by
  intro a1 a2 a3
  unfold State.runPlan
  extract_lets x1 x2 x3 x4
  have kx2 : Keep s0 x2.2 := State.prepareAll_keep h _ _ _ _
  have kx3 : Keep s0 x3.2 := kx2
  have kx4 : Keep s0 x4 := by
    unfold x4
    split
    · split
      · exact State.queueSeq_keep kx3 _ _
      · exact kx3
    · exact kx3
  split
  · exact State.checkTxn_keep (State.onTxn_keep kx4 _ _) _
  · exact State.onRmt_keep kx4 _

theorem State.issue_keep (h : Keep s0 s) : ∀ a1, Keep s0 (State.issue s a1) := by
  intro a1
  unfold State.issue
  split
  · exact h
  · extract_lets x1 x2 x3 x4 x5 x6 x7
    have kx3 : Keep s0 x3 := State.onRmt_keep h _
    have kx4 : Keep s0 x4.2 := State.freeTag_keep kx3 _
    have kx7 : Keep s0 x7 := State.onPkt_keep kx4 _
    split
    · exact h
    · split
      · exact State.runPlan_keep kx3 _ _ _
      · split
        · exact h
        · split
          · exact h
          · exact State.runPlan_keep (State.onRmt_keep kx7 _) _ _ _

theorem State.land_keep (h : Keep s0 s) : ∀ a1 a2 a3 a4, Keep s0 (State.land s a1 a2 a3 a4) := by
  intro a1 a2 a3 a4
  unfold State.land
  split
  · exact State.spadWrite_keep h _ _ _
  · exact State.writePieces_keep h _ _

theorem State.leaseExpire_keep (h : Keep s0 s) : ∀ a1, Keep s0 (State.leaseExpire s a1) := by
  intro a1
  unfold State.leaseExpire
  exact State.onRmt_keep (State.onWindow_keep h _ _) _

theorem State.parkLimit_keep (h : Keep s0 s) : ∀ a1 a2, Keep s0 (State.parkLimit s a1 a2) := by
  intro a1 a2
  unfold State.parkLimit
  split
  · split
    · exact State.failSeq_keep h _ _ _
    · exact h
  · exact h

theorem State.quarantineEnd_keep (h : Keep s0 s) : ∀ a1, Keep s0 (State.quarantineEnd s a1) := by
  intro a1
  unfold State.quarantineEnd
  split
  · exact h
  · split
    · extract_lets x1
      have kx1 : Keep s0 x1 := State.onRmt_keep h _
      split
      · exact kx1
      · exact State.onWindow_keep kx1 _ _
    · exact h

theorem State.reissue_keep (h : Keep s0 s) : ∀ a1 a2 a3, Keep s0 (State.reissue s a1 a2 a3) := by
  intro a1 a2 a3
  unfold State.reissue
  split
  · exact h
  · extract_lets x1
    have kx1 : Keep s0 x1 := State.countReissue_keep (State.onTxn_keep h _ _) _
    exact State.sendSeq_keep kx1 _ _ _

theorem State.releaseDelay_keep (h : Keep s0 s) : ∀ a1, Keep s0 (State.releaseDelay s a1) := by
  intro a1
  unfold State.releaseDelay
  split
  · exact h
  · split
    · exact State.onWindow_keep h _ _
    · extract_lets x1
      exact State.windowReq_keep (State.onWindow_keep h _ _) _ _ _ _ _

theorem State.reqTimeout_keep (h : Keep s0 s) : ∀ a1 a2, Keep s0 (State.reqTimeout s a1 a2) := by
  intro a1 a2
  unfold State.reqTimeout
  split
  · exact h
  · split
    · exact h
    · split
      · split
        · exact State.failSeq_keep h _ _ _
        · exact State.reissue_keep h _ _ _
      · split
        · split
          · exact State.failSeq_keep h _ _ _
          · exact State.reissue_keep h _ _ _
        · split
          · exact State.askWindow_keep (State.onWindow_keep h _ _) _ _ _
          · exact h

theorem State.rmtAccept_keep (h : Keep s0 s) : ∀ a1 a2 a3 a4 a5, Keep s0 (State.rmtAccept s a1 a2 a3 a4 a5) := by
  intro a1 a2 a3 a4 a5
  unfold State.rmtAccept
  extract_lets x1 x2 x3 x4
  exact State.popQueue_keep (State.onRmt_keep h _) _ _

theorem State.rmtRefuse_keep (h : Keep s0 s) : ∀ a1 a2 a3 a4 a5, Keep s0 (State.rmtRefuse s a1 a2 a3 a4 a5) := by
  intro a1 a2 a3 a4 a5
  unfold State.rmtRefuse
  exact State.endDesc_keep (State.popQueue_keep h _ _) _ _ _

theorem State.rmtDesc_keep (h : Keep s0 s) : ∀ a1 a2, Keep s0 (State.rmtDesc s a1 a2) := by
  intro a1 a2
  unfold State.rmtDesc
  split
  · exact h
  · extract_lets x1 x2 x3 x4 x5 x6 x7 x8
    have kx3 : Keep s0 x3.2 := by
      unfold x3
      split
      · exact State.spadRead_keep h _ _ _
      · exact Keep.snd h
    have kx5 : Keep s0 x5 := kx3
    have kx6 : Keep s0 x6.2 := State.drawNat_keep kx5
    have kx7 : Keep s0 x7.2 := State.rankChip_keep kx5 _ _
    have kx8 : Keep s0 x8.2 := State.drawNat_keep kx7
    split
    · exact h
    · split
      · exact State.taskError_keep h _ _
      · split
        · exact State.taskError_keep h _ _
        · split
          · exact State.rmtRefuse_keep kx6 _ _ _ _ _
          · split
            · exact State.taskError_keep kx5 _ _
            · split
              · exact State.rmtRefuse_keep kx8 _ _ _ _ _
              · exact State.rmtAccept_keep kx7 _ _ _ _ _

theorem State.stale_keep (h : Keep s0 s) : Keep s0 (State.stale s) := by
  unfold State.stale
  exact State.bump_keep h _

theorem State.takeAtomicRsp_keep (h : Keep s0 s) : ∀ a1, Keep s0 (State.takeAtomicRsp s a1) := by
  intro a1
  unfold State.takeAtomicRsp
  split
  · exact State.stale_keep h
  · split
    · split
      · exact State.stale_keep h
      · exact State.checkTxn_keep (State.doneSeq_keep (State.onTxn_keep (State.land_keep h _ _ _ _) _ _) _ _) _
    · exact State.stale_keep h

theorem State.takeCompletion_keep (h : Keep s0 s) : ∀ a1, Keep s0 (State.takeCompletion s a1) := by
  intro a1
  unfold State.takeCompletion
  extract_lets x1 x2
  have kx2 : Keep s0 x2 := by
    refine Keep.foldl (fun _ _ h5 => ?_) _ h
    split
    · exact State.doneSeq_keep h5 _ _
    · exact State.stale_keep h5
  exact State.checkTxn_keep kx2 _

theorem State.takeGrant_keep (h : Keep s0 s) : ∀ a1, Keep s0 (State.takeGrant s a1) := by
  intro a1
  unfold State.takeGrant
  extract_lets x1
  exact State.pump_keep (State.onWindow_keep h _ _) _

theorem State.takeLoadRsp_keep (h : Keep s0 s) : ∀ a1, Keep s0 (State.takeLoadRsp s a1) := by
  intro a1
  unfold State.takeLoadRsp
  split
  · exact State.stale_keep h
  · split
    · exact State.stale_keep h
    · split
      · split
        · exact State.stale_keep h
        · extract_lets x1 x2 x3 x4 x5 x6 x7 x8
          have kx5 : Keep s0 x5 := by
            unfold x5
            split
            · exact State.onFar_keep h _
            · exact State.land_keep h _ _ _ _
          have kx7 : Keep s0 x7 := State.onTxn_keep kx5 _ _
          have kx8 : Keep s0 x8 := State.doneSeq_keep kx7 _ _
          exact State.checkTxn_keep (State.engineProgress_keep kx8 _ _) _
      · split
        · exact State.stale_keep h
        · extract_lets x9 x10 x11 x12 x13 x14 x15 x16
          have kx13 : Keep s0 x13 := by
            unfold x13
            split
            · exact State.onFar_keep h _
            · exact State.land_keep h _ _ _ _
          have kx15 : Keep s0 x15 := State.onTxn_keep kx13 _ _
          have kx16 : Keep s0 x16 := by
            unfold x16
            split
            · exact State.doneSeq_keep kx15 _ _
            · exact kx15
          exact State.checkTxn_keep (State.engineProgress_keep kx16 _ _) _

theorem State.takeNeg_keep (h : Keep s0 s) : ∀ a1, Keep s0 (State.takeNeg s a1) := by
  intro a1
  unfold State.takeNeg
  extract_lets x1
  split
  · split
    · exact State.failSeq_keep h _ _ _
    · exact State.stale_keep h
  · extract_lets x2
    split
    · split
      · exact State.onTxn_keep h _ _
      · split
        · exact State.failSeq_keep h _ _ _
        · split
          · exact State.failSeq_keep h _ _ _
          · exact State.onTxn_keep h _ _
    · split
      · exact State.onTxn_keep h _ _
      · exact State.failSeq_keep h _ _ _

end Sys2Proof.Machine
end

