-- ==== Sys2Proof/Laws/KeepTasks.lean ====
section
/-! SUPPORT. What the operations of Tasks.lean keep: a lemma for each. -/
set_option Elab.async false
namespace Sys2Proof.Machine
open Sys2Proof Sys2Proof.Bits

variable {s0 s : State}

theorem State.addSub_keep (h : Keep s0 s) : ∀ a1 a2 a3 a4, Keep s0 (State.addSub s a1 a2 a3 a4) := by
  intro a1 a2 a3 a4
  unfold State.addSub
  extract_lets x1 x2
  exact State.onCtx_keep h _ _

theorem State.advanceHead_keep (h : Keep s0 s) : ∀ a1 a2, Keep s0 (State.advanceHead s a1 a2) := by
  intro a1 a2
  induction a2 generalizing s a1 with
  | zero =>
    unfold State.advanceHead
    exact h
  | succ n ih =>
    unfold State.advanceHead
    split
    · split
      · exact ih (State.setRegAt_keep (State.onCtx_keep h _ _) _ _ _) _
      · exact h
    · exact h

theorem State.onSub_keep (h : Keep s0 s) : ∀ a1 a2 a3, Keep s0 (State.onSub s a1 a2 a3) := by
  intro a1 a2 a3
  unfold State.onSub
  exact State.onCtx_keep h _ _

theorem State.recordDone_keep (h : Keep s0 s) : ∀ a1 a2, Keep s0 (State.recordDone s a1 a2) := by
  intro a1 a2
  unfold State.recordDone
  extract_lets x1 x2
  have kx1 : Keep s0 x1 := State.advanceHead_keep (State.onSub_keep h _ _ _) _ _
  have kx2 : Keep s0 x2 := by
    unfold x2
    split
    · exact State.raiseCtx_keep kx1 _ _ _
    · exact kx1
  split
  · exact State.assertVector_keep kx2 _
  · exact kx2

theorem State.writeRecord_keep (h : Keep s0 s) : ∀ a1 a2, Keep s0 (State.writeRecord s a1 a2) := by
  intro a1 a2
  unfold State.writeRecord
  extract_lets x1
  have kx1 : Keep s0 x1.2 := State.translateRange_keep h _ _ _ _ _ _
  split
  · exact State.xltRaise_keep kx1 _ _ _ _ _
  · exact State.recordDone_keep (State.writePieces_keep kx1 _ _) _ _

theorem State.writeRecords_keep (h : Keep s0 s) : ∀ a1, Keep s0 (State.writeRecords s a1) := by
  intro a1
  unfold State.writeRecords
  refine Keep.foldl (fun _ _ h3 => ?_) _ h
  split
  · exact State.writeRecord_keep h3 _ _
  · exact h3

theorem State.failSub_keep (h : Keep s0 s) : ∀ a1 a2 a3, Keep s0 (State.failSub s a1 a2 a3) := by
  intro a1 a2 a3
  unfold State.failSub
  extract_lets x1 x2 x3 x4 x5 x6
  have kx6 : Keep s0 x6 := State.onCtx_keep h _ _
  refine State.writeRecords_keep ?_ _
  split
  · exact State.setRegAt_keep kx6 _ _ _
  · exact kx6

theorem State.coresCheck_keep (h : Keep s0 s) : ∀ a1, Keep s0 (State.coresCheck s a1) := by
  intro a1
  unfold State.coresCheck
  split
  · exact h
  · exact State.failSub_keep (State.onCtx_keep h _ _) _ _ _

theorem State.unbind_keep (h : Keep s0 s) : ∀ a1, Keep s0 (State.unbind s a1) := by
  intro a1
  unfold State.unbind
  extract_lets x1 x2
  have kx2 : Keep s0 x2 := State.onPkt_keep h _
  exact State.onCtx_keep (State.setRegAt_keep kx2 _ _ _) _ _

theorem State.ctxCloseAct_keep (h : Keep s0 s) : ∀ a1, Keep s0 (State.ctxCloseAct s a1).2 := by
  intro a1
  unfold State.ctxCloseAct
  extract_lets x1 x2
  have kx2 : Keep s0 x2 := State.onCtx_keep (State.unbind_keep h _) _ _
  split
  · exact Keep.snd h
  · exact Keep.snd (State.setRegAt_keep (State.setRegAt_keep kx2 _ _ _) _ _ _)

theorem State.ctxCoresAct_keep (h : Keep s0 s) : ∀ a1 a2, Keep s0 (State.ctxCoresAct s a1 a2).2 := by
  intro a1 a2
  unfold State.ctxCoresAct
  split
  · exact Keep.snd (State.setRegAt_keep h _ _ _)
  · extract_lets x1 x2
    split
    · exact Keep.snd h
    · exact Keep.snd (State.coresCheck_keep (State.setRegAt_keep h _ _ _) _)
  · exact Keep.snd h

theorem State.zeroCtxCounters_keep (h : Keep s0 s) : ∀ a1, Keep s0 (State.zeroCtxCounters s a1) := by
  intro a1
  unfold State.zeroCtxCounters
  exact Keep.foldl (fun _ _ h3 => State.setRegAt_keep h3 _ _ _) _ h

theorem State.nextGeneration_keep (h : Keep s0 s) : ∀ a1, Keep s0 (State.nextGeneration s a1) := by
  intro a1
  unfold State.nextGeneration
  exact State.setRegAt_keep h _ _ _

theorem State.zeroWindows_keep (h : Keep s0 s) : ∀ a1, Keep s0 (s.zeroWindows a1) :=
  fun _ => Keep.sync h Table.wf_filter Table.wf_filter

theorem State.ctxOpenAct_keep (h : Keep s0 s) : ∀ a1, Keep s0 (State.ctxOpenAct s a1).2 := by
  intro a1
  unfold State.ctxOpenAct
  split
  · exact Keep.snd h
  · extract_lets x1 x2 x3 x4
    have kx2 : Keep s0 x2 := State.setRegAt_keep h _ _ _
    have kx3 : Keep s0 x3 := State.zeroCtxCounters_keep (State.setRegAt_keep (State.setRegAt_keep (State.nextGeneration_keep (State.zeroWindows_keep kx2 _) _) _ _ _) _ _ _) _
    have kx4 : Keep s0 x4 := State.onHcp_keep (State.onCtx_keep kx3 _ _)
    split
    · exact Keep.snd kx2
    · exact Keep.snd (State.progressed_keep (State.setRegAt_keep kx4 _ _ _) _)

theorem State.ctxResumeAct_keep (h : Keep s0 s) : ∀ a1, Keep s0 (State.ctxResumeAct s a1).2 := by
  intro a1
  unfold State.ctxResumeAct
  split
  · exact Keep.snd h
  · exact Keep.snd (State.syncChanged_keep (State.progressed_keep (State.setRegAt_keep h _ _ _) _) _)

theorem State.fetchArg_keep (h : Keep s0 s) : ∀ a1, Keep s0 (State.fetchArg s a1) := by
  intro a1
  unfold State.fetchArg
  split
  · exact h
  · split
    · exact h
    · extract_lets x1 x2 x3
      have kx2 : Keep s0 x2.2 := State.translateRange_keep h _ _ _ _ _ _
      split
      · exact State.xltRaise_keep kx2 _ _ _ _ _
      · extract_lets x4 x5
        have kx4 : Keep s0 x4.2 := State.readPieces_keep kx2 _
        have kx5 : Keep s0 x5 := State.onCore_keep kx4 _ _
        split
        · exact State.taskError_keep kx5 _ _
        · exact kx5

theorem State.releaseOld_keep (h : Keep s0 s) : ∀ a1, Keep s0 (State.releaseOld s a1) := by
  intro a1
  unfold State.releaseOld
  split
  · exact h
  · split
    · exact h
    · exact State.setRegAt_keep (State.onCtx_keep h _ _) _ _ _

theorem State.freeCore_keep (h : Keep s0 s) : ∀ a1, Keep s0 (State.freeCore s a1) := by
  intro a1
  unfold State.freeCore
  extract_lets x1 x2
  have kx1 : Keep s0 x1 := State.onCore_keep h _ _
  have kx2 : Keep s0 x2 := State.onXlt_keep kx1 _
  split
  · exact State.setRegAt_keep kx2 _ _ _
  · exact kx2

theorem State.removeTask_keep (h : Keep s0 s) : ∀ a1 a2, Keep s0 (State.removeTask s a1 a2) := by
  intro a1 a2
  unfold State.removeTask
  extract_lets x1 x2
  have kx1 : Keep s0 x1 := Keep.foldl (fun _ _ h5 => State.freeCore_keep h5 _) _ h
  exact State.bumpBy_keep (State.onFlt_keep (State.onCtx_keep kx1 _ _)) _ _ _

theorem State.noteTurn_keep (h : Keep s0 s) : ∀ a1 a2, Keep s0 (State.noteTurn s a1 a2) := by
  intro a1 a2
  unfold State.noteTurn
  split
  · exact State.onFlt_keep h
  · exact h

theorem State.finishTask_keep (h : Keep s0 s) : ∀ a1 a2, Keep s0 (State.finishTask s a1 a2) := by
  intro a1 a2
  unfold State.finishTask
  extract_lets x1 x2 x3
  have kx2 : Keep s0 x2 := State.progressed_keep (State.onSub_keep (State.releaseOld_keep (State.removeTask_keep h _ _) _) _ _ _) _
  have kx3 : Keep s0 x3 := by
    unfold x3
    split
    · exact State.syncChanged_keep (Keep.foldl (fun _ _ h6 => State.addSem_keep h6 _ _) _ (State.noteTurn_keep kx2 _ _)) _
    · exact State.failSub_keep kx2 _ _ _
  exact State.writeRecords_keep (State.coresCheck_keep kx3 _) _

theorem State.zeroPages_keep (h : Keep s0 s) : ∀ a1 a2, Keep s0 (State.zeroPages s a1 a2).2 := by
  intro a1 a2
  induction a2 generalizing s a1 with
  | nil =>
    unfold State.zeroPages
    exact Keep.snd h
  | cons x xs ih =>
    unfold State.zeroPages
    extract_lets x1
    have kx1 : Keep s0 x1.2 := by
      unfold x1
      split
      · exact Keep.snd h
      · exact State.translateRange_keep h _ _ _ _ _ _
    split
    · exact Keep.snd kx1
    · exact ih (Keep.foldl (fun _ _ h4 => State.memZero_keep h4 _ _) _ kx1) _

theorem State.memZeroComplete_keep (h : Keep s0 s) : ∀ a1, Keep s0 (State.memZeroComplete s a1) := by
  intro a1
  unfold State.memZeroComplete
  split
  · exact h
  · extract_lets x1 x2
    have kx1 : Keep s0 x1.2 := State.zeroPages_keep h _ _
    have kx2 : Keep s0 x2 := State.onCtx_keep kx1 _ _
    split
    · exact State.setRegAt_keep kx2 _ _ _
    · exact State.setRegAt_keep (State.setRegAt_keep kx2 _ _ _) _ _ _

theorem State.memZeroGoAct_keep (h : Keep s0 s) : ∀ a1, Keep s0 (State.memZeroGoAct s a1).2 := by
  intro a1
  unfold State.memZeroGoAct
  split
  · exact Keep.snd h
  · extract_lets x1 x2
    exact Keep.snd (State.setRegAt_keep (State.onCtx_keep h _ _) _ _ _)

theorem State.passOver_keep (h : Keep s0 s) : ∀ a1, Keep s0 (State.passOver s a1) := by
  intro a1
  unfold State.passOver
  refine Keep.foldl (fun _ _ h3 => ?_) _ h
  split
  · split
    · exact h3
    · exact State.onTask_keep h3 _ _ _
  · exact h3

theorem State.refuseDispatcher_keep (h : Keep s0 s) : ∀ a1 a2, Keep s0 (State.refuseDispatcher s a1 a2) := by
  intro a1 a2
  unfold State.refuseDispatcher
  split
  · split
    · exact State.recordDone_keep h _ _
    · exact h
  · extract_lets x1
    have kx1 : Keep s0 x1.2 := State.memRead_keep h _ _
    exact State.addSub_keep kx1 _ _ _ _

theorem State.wakeCore_keep (h : Keep s0 s) : ∀ a1, Keep s0 (State.wakeCore s a1) := by
  intro a1
  unfold State.wakeCore
  split
  · exact State.setRegAt_keep h _ _ _
  · exact State.onPwr_keep (State.setRegAt_keep h _ _ _) _
  · exact h

theorem State.setUpCore_keep (h : Keep s0 s) : ∀ a1 a2 a3 a4, Keep s0 (State.setUpCore s a1 a2 a3 a4) := by
  intro a1 a2 a3 a4
  unfold State.setUpCore
  extract_lets x1 x2 x3 x4
  have h3 : Table.wf 0 x3 = true :=
    Table.wf_put (Table.wf_put (Table.wf_put (Table.wf_put rfl)))
  exact State.engineProgress_keep (State.wakeCore_keep (State.onCore_keep h _ _ fun _ hx =>
    by exact CoreState.canonical_of h3 rfl rfl (CoreState.canonical_parts hx).2.2.2) _) _ _

theorem State.startTask_keep (h : Keep s0 s) : ∀ a1 a2, Keep s0 (State.startTask s a1 a2) := by
  intro a1 a2
  unfold State.startTask
  extract_lets x1 x2
  have kx1 : Keep s0 x1 := State.onTask_keep h _ _ _
  exact State.progressed_keep (Keep.foldl (fun _ _ h5 => State.setUpCore_keep h5 _ _ _ _) _ kx1) _

theorem State.submissionRead_keep (h : Keep s0 s) : ∀ a1, Keep s0 (State.submissionRead s a1) := by
  intro a1
  unfold State.submissionRead
  extract_lets x1 x2 x3 x4 x5
  have kx2 : Keep s0 x2.2 := State.memRead_keep h _ _
  have kx5 : Keep s0 x5.2 := State.translateRange_keep kx2 _ _ _ _ _ _
  split
  · exact h
  · split
    · exact State.addSub_keep kx2 _ _ _ _
    · split
      · exact State.addSub_keep kx2 _ _ _ _
      · split
        · exact State.addSub_keep kx2 _ _ _ _
        · split
          · exact State.xltRaise_keep kx5 _ _ _ _ _
          · extract_lets x6 x7
            have kx6 : Keep s0 x6.2 := State.readPieces_keep kx5 _
            split
            · exact State.addSub_keep kx6 _ _ _ _
            · exact State.addSub_keep kx6 _ _ _ _

theorem State.taskAdmit_keep (h : Keep s0 s) : ∀ a1, Keep s0 (State.taskAdmit s a1) := by
  intro a1
  unfold State.taskAdmit
  split
  · exact h
  · split
    · exact h
    · split
      · exact h
      · split
        · exact State.failSub_keep h _ _ _
        · split
          · exact h
          · extract_lets x1 x2
            have kx2 : Keep s0 x2 := State.onSub_keep (State.onDisp_keep h _) _ _ _
            exact State.progressed_keep (State.onCtx_keep kx2 _ _) _

theorem State.taskEnd_keep (h : Keep s0 s) : ∀ a1, Keep s0 (State.taskEnd s a1) := by
  intro a1
  unfold State.taskEnd
  split
  · exact h
  · split
    · exact h
    · extract_lets x1
      have kx1 : Keep s0 x1 := Keep.foldl (fun _ _ h4 => State.flushFar_keep h4 _) _ h
      split
      · exact State.finishTask_keep kx1 _ _
      · exact kx1

theorem State.taskStart_keep (h : Keep s0 s) : Keep s0 (State.taskStart s) := by
  unfold State.taskStart
  split
  · exact h
  · split
    · exact State.onDisp_keep (State.startTask_keep (State.passOver_keep h _) _ _) _
    · exact h

end Sys2Proof.Machine
end

