-- ==== Sys2Proof/Laws/KeepAttend.lean ====
section
/-! SUPPORT. What the operations of Attend.lean keep: a lemma for each. -/
set_option Elab.async false
namespace Sys2Proof.Machine
open Sys2Proof Sys2Proof.Bits

variable {s0 s : State}

theorem State.sendParts_keep (h : Keep s0 s) : ∀ a1 a2, Keep s0 (State.sendParts s a1 a2) := by
  intro a1 a2
  unfold State.sendParts
  exact Keep.foldl (fun _ _ h0003 => State.sendPkt_keep h0003 _ _) _ (State.memRead_keep h _ _)

theorem State.onSlot_keep (h : Keep s0 s) : ∀ a1 a2 a3, Keep s0 (State.onSlot s a1 a2 a3) := by
  intro a1 a2 a3
  unfold State.onSlot
  exact State.onCtx_keep h _ _

theorem State.answerSlot_keep (h : Keep s0 s) : ∀ a1 a2 a3, Keep s0 (State.answerSlot s a1 a2 a3) := by
  intro a1 a2 a3
  unfold State.answerSlot
  extract_lets x1 x2 x3 x4
  have kx2 : Keep s0 x2.2 := State.memRead_keep h _ _
  have kx4 : Keep s0 x4.2 := State.memWrite_keep kx2 _ _
  exact State.bump_keep (State.sendParts_keep (State.onSlot_keep kx4 _ _ _) _ _) _

theorem State.queryImage_keep (h : Keep s0 s) : ∀ a1 a2, Keep s0 (State.queryImage s a1 a2).2 := by
  intro a1 a2
  unfold State.queryImage
  extract_lets x1 x2 x3
  have kx2 : Keep s0 x2.2 := by
    refine Keep.foldl_snd (Keep.snd h) (fun _ _ h6 => ?_) _
    extract_lets x7
    have kx7 : Keep s0 x7.2 := State.spadRead_keep h6 _ _ _
    exact Keep.snd kx7
  have kx3 : Keep s0 x3.2 := State.spadRead_keep kx2 _ _ _
  split
  · exact Keep.snd kx3
  · exact kx2

theorem State.attAccept_keep (h : Keep s0 s) : ∀ a1 a2 a3 a4, Keep s0 (State.attAccept s a1 a2 a3 a4) := by
  intro a1 a2 a3 a4
  unfold State.attAccept
  exact State.popQueue_keep (State.onRmt_keep (State.queryImage_keep h _ _) _) _ _

theorem State.freeSlot_keep (h : Keep s0 s) : ∀ a1 a2, Keep s0 (State.freeSlot s a1 a2) := by
  intro a1 a2
  unfold State.freeSlot
  exact State.onCtx_keep h _ _

theorem State.attBadReq_keep (h : Keep s0 s) : ∀ a1 a2, Keep s0 (State.attBadReq s a1 a2) := by
  intro a1 a2
  unfold State.attBadReq
  extract_lets x1
  have kx1 : Keep s0 x1 := State.sendNeg_keep h _ _ _
  split
  · exact State.freeSlot_keep kx1 _ _
  · exact kx1

theorem State.attComplete_keep (h : Keep s0 s) : ∀ a1 a2 a3, Keep s0 (State.attComplete s a1 a2 a3) := by
  intro a1 a2 a3
  unfold State.attComplete
  exact State.sendCompletion_keep h _ _

theorem State.takePiece_keep (h : Keep s0 s) : ∀ a1 a2 a3, Keep s0 (State.takePiece s a1 a2 a3) := by
  intro a1 a2 a3
  unfold State.takePiece
  split
  · exact h
  · extract_lets x1 x2 x3 x4 x5
    have kx2 : Keep s0 x2.2 := State.memWrite_keep h _ _
    have kx5 : Keep s0 x5 := State.onSlot_keep kx2 _ _ _
    split
    · exact State.progressed_keep (State.attComplete_keep (State.onDisp_keep kx5 _) _ _ _) _
    · exact kx5

theorem State.attAdmit_keep (h : Keep s0 s) : ∀ a1 a2, Keep s0 (State.attAdmit s a1 a2) := by
  intro a1 a2
  unfold State.attAdmit
  extract_lets x1 x2 x3
  split
  · exact State.attBadReq_keep h _ _
  · split
    · split
      · exact State.attBadReq_keep h _ _
      · split
        · exact State.takePiece_keep h _ _ _
        · exact State.attComplete_keep h _ _ _
        · exact State.attComplete_keep h _ _ _
        · exact State.sendParts_keep (State.bump_keep h _) _ _
    · split
      · exact State.sendNeg_keep (State.bump_keep h _) _ _ _
      · extract_lets x4
        exact State.takePiece_keep (State.onCtx_keep h _ _) _ _ _

theorem State.attAssemblyTimeout_keep (h : Keep s0 s) : ∀ a1 a2, Keep s0 (State.attAssemblyTimeout s a1 a2) := by
  intro a1 a2
  unfold State.attAssemblyTimeout
  split
  · exact State.raiseCtx_keep (State.bump_keep (State.freeSlot_keep h _ _) _) _ _ _
  · exact h

theorem State.attDisableAct_keep (h : Keep s0 s) : ∀ a1, Keep s0 (State.attDisableAct s a1).2 := by
  intro a1
  unfold State.attDisableAct
  exact Keep.snd (State.setRegAt_keep h _ _ _)

theorem State.attEnableAct_keep (h : Keep s0 s) : ∀ a1, Keep s0 (State.attEnableAct s a1).2 := by
  intro a1
  unfold State.attEnableAct
  extract_lets x1 x2 x3 x4
  split
  · exact Keep.snd h
  · exact Keep.snd (State.setRegAt_keep h _ _ _)

theorem State.attHoldExpire_keep (h : Keep s0 s) : ∀ a1 a2, Keep s0 (State.attHoldExpire s a1 a2) := by
  intro a1 a2
  unfold State.attHoldExpire
  split
  · exact State.freeSlot_keep h _ _
  · exact h

theorem State.attNeg_keep (h : Keep s0 s) : ∀ a1 a2 a3 a4, Keep s0 (State.attNeg s a1 a2 a3 a4) := by
  intro a1 a2 a3 a4
  unfold State.attNeg
  exact State.sendPkt_keep h _ _

theorem State.attRefuse_keep (h : Keep s0 s) : ∀ a1 a2 a3 a4, Keep s0 (State.attRefuse s a1 a2 a3 a4) := by
  intro a1 a2 a3 a4
  unfold State.attRefuse
  extract_lets x1
  have kx1 : Keep s0 x1.2 := State.drawNat_keep h
  exact State.endDesc_keep (State.popQueue_keep kx1 _ _) _ _ _

theorem State.scramble_keep (h : Keep s0 s) : ∀ a1 a2 a3, Keep s0 (State.scramble s a1 a2 a3) := by
  intro a1 a2 a3
  unfold State.scramble
  extract_lets x1
  have kx1 : Keep s0 x1.2 := State.drawBytes_keep _ h
  exact State.spadWrite_keep kx1 _ _ _

theorem State.endService_keep (h : Keep s0 s) : ∀ a1 a2, Keep s0 (State.endService s a1 a2) := by
  intro a1 a2
  unfold State.endService
  extract_lets x1 x2 x3
  have kx2 : Keep s0 x2 := State.scramble_keep (State.onCtx_keep h _ _) _ _ _
  have kx3 : Keep s0 x3 := State.engineProgress_keep (State.progressed_keep kx2 _) _ _
  split
  · exact State.setRegAt_keep kx3 _ _ _
  · exact kx3

theorem State.attReset_keep (h : Keep s0 s) : ∀ a1, Keep s0 (State.attReset s a1) := by
  intro a1
  unfold State.attReset
  extract_lets x1 x2
  have kx1 : Keep s0 x1 := by
    refine Keep.foldl (fun _ _ h5 => ?_) _ h
    split
    · exact Keep.foldl (fun _ _ h8 => State.attNeg_keep h8 _ _ _ _) _ h5
    · exact State.attNeg_keep h5 _ _ _ _
    · exact State.attNeg_keep h5 _ _ _ _
    · exact h5
  exact State.onCtx_keep (Keep.foldl (fun _ _ h11 => State.endService_keep h11 _ _) _ kx1) _ _

theorem State.attResultTimeout_keep (h : Keep s0 s) : ∀ a1 a2, Keep s0 (State.attResultTimeout s a1 a2) := by
  intro a1 a2
  unfold State.attResultTimeout
  extract_lets x1
  split
  · split
    · exact h
    · extract_lets x2
      have kx2 : Keep s0 x2 := State.endDesc_keep (State.onTxn_keep h _ _) _ _ _
      exact State.raiseCtx_keep kx2 _ _ _
  · exact h

theorem State.attend_keep (h : Keep s0 s) : ∀ a1, Keep s0 (State.attend s a1) := by
  intro a1
  unfold State.attend
  split
  · exact h
  · extract_lets x1 x2 x3
    have kx3 : Keep s0 x3.2 := State.rankChip_keep h _ _
    split
    · exact h
    · split
      · exact State.taskError_keep h _ _
      · split
        · exact State.taskError_keep h _ _
        · split
          · exact State.attRefuse_keep h _ _ _ _
          · split
            · exact State.taskError_keep h _ _
            · split
              · exact State.attRefuse_keep kx3 _ _ _ _
              · exact State.attAccept_keep kx3 _ _ _ _

theorem State.failService_keep (h : Keep s0 s) : ∀ a1 a2 a3, Keep s0 (State.failService s a1 a2 a3) := by
  intro a1 a2 a3
  unfold State.failService
  split
  · exact h
  · extract_lets x1
    exact State.endService_keep (Keep.foldl (fun _ _ h4 => State.freeSlot_keep (State.attNeg_keep h4 _ _ _ _) _ _) _ h) _ _

theorem State.readPage_keep (h : Keep s0 s) : ∀ a1 a2 a3 a4, Keep s0 (State.readPage s a1 a2 a3 a4).2 := by
  intro a1 a2 a3 a4
  unfold State.readPage
  extract_lets x1 x2 x3 x4
  have kx3 : Keep s0 x3.2 := State.translateRange_keep h _ _ _ _ _ _
  split
  · exact Keep.snd kx3
  · extract_lets x5 x6 x7 x8
    have kx5 : Keep s0 x5.2 := State.readPieces_keep kx3 _
    have kx7 : Keep s0 x7.2 := State.translateRange_keep kx5 _ _ _ _ _ _
    have kx8 : Keep s0 x8.2 := State.translateRange_keep kx7 _ _ _ _ _ _
    split
    · exact Keep.snd kx5
    · split
      · exact Keep.snd kx5
      · split
        · exact Keep.snd kx7
        · split
          · exact Keep.snd kx8
          · extract_lets x9 x10
            have kx9 : Keep s0 x9.2 := State.readPieces_keep kx8 _
            have kx10 : Keep s0 x10.2 := State.readPieces_keep kx9 _
            exact Keep.snd kx10

theorem State.readPages_keep (h : Keep s0 s) : ∀ a1 a2 a3 a4 a5, Keep s0 (State.readPages s a1 a2 a3 a4 a5).2 := by
  intro a1 a2 a3 a4 a5
  induction a5 generalizing s a1 a2 a3 a4 with
  | zero =>
    unfold State.readPages
    exact Keep.snd h
  | succ n ih =>
    unfold State.readPages
    extract_lets x1 x2
    have kx1 : Keep s0 x1.2 := State.readPage_keep h _ _ _ _
    have kx2 : Keep s0 x2.2 := ih kx1 _ _ _ _
    split
    · exact Keep.snd kx1
    · split
      · exact Keep.snd kx2
      · exact Keep.snd kx2

theorem State.serviceEnd_keep (h : Keep s0 s) : ∀ a1 a2, Keep s0 (State.serviceEnd s a1 a2) := by
  intro a1 a2
  unfold State.serviceEnd
  split
  · exact h
  · split
    · exact h
    · extract_lets x1 x2
      clear_value x1
      split
      · exact State.endService_keep h _ _
      · extract_lets x3 x4
        have kx4 : Keep s0 x4.2 := State.readPages_keep h _ _ _ _ _
        split
        · exact State.xltRaise_keep kx4 _ _ _ _ _
        · exact State.failService_keep kx4 _ _ _
        · exact kx4
        · exact State.endService_keep (Keep.foldl (fun _ _ h7 => State.answerSlot_keep h7 _ _ _) _ kx4) _ _

theorem State.serviceStart_keep (h : Keep s0 s) : ∀ a1 a2, Keep s0 (State.serviceStart s a1 a2) := by
  intro a1 a2
  unfold State.serviceStart
  split
  · exact h
  · split
    · exact h
    · extract_lets x1 x2 x3 x4 x5 x6
      have kx4 : Keep s0 x4 := Keep.foldl (fun _ _ h9 => State.onSlot_keep h9 _ _ _) _ h
      have kx5 : Keep s0 x5 := State.onCtx_keep kx4 _ _
      have kx6 : Keep s0 x6 := State.wakeCore_keep (State.onDisp_keep kx5 _) _
      refine State.engineProgress_keep ?_ _ _
      refine State.progressed_keep ?_ _
      split
      · exact State.bump_keep kx6 _
      · exact kx6

theorem State.takeAttendPart_keep (h : Keep s0 s) : ∀ a1, Keep s0 (State.takeAttendPart s a1) := by
  intro a1
  unfold State.takeAttendPart
  split
  · exact State.stale_keep h
  · extract_lets x1 x2 x3 x4 x5
    have kx1 : Keep s0 x1 := State.spadWrite_keep h _ _ _
    have kx3 : Keep s0 x3 := State.engineProgress_keep (State.onTxn_keep kx1 _ _) _ _
    have kx5 : Keep s0 x5 := State.onDesc_keep kx3 _ _
    split
    · split
      · exact State.pump_keep (State.endDesc_keep (State.retireTxn_keep kx5 _) _ _ _) _
      · exact kx5
    · exact State.pump_keep kx5 _

theorem State.takeAttendReq_keep (h : Keep s0 s) : ∀ a1, Keep s0 (State.takeAttendReq s a1) := by
  intro a1
  unfold State.takeAttendReq
  split
  · exact h
  · extract_lets x1 x2
    have kx1 : Keep s0 x1 := State.takeRelease_keep h _
    have kx2 : Keep s0 x2.2 := State.admitSlot_keep kx1 _
    split
    · exact State.sendNeg_keep kx1 _ _ _
    · split
      · exact kx2
      · exact State.attAdmit_keep kx2 _ _

end Sys2Proof.Machine
end

