-- ==== Sys2Proof/Laws/KeepCmdControl.lean ====
section
/-! SUPPORT. What the operations of CmdControl.lean keep: a lemma for each. -/
set_option Elab.async false
namespace Sys2Proof.Machine
open Sys2Proof Sys2Proof.Bits

variable {s0 s : State}

theorem State.ccAlu_keep (h : Keep s0 s) : ∀ a1 a2 a3 a4 a5 a6, Keep s0 (State.ccAlu s a1 a2 a3 a4 a5 a6) := by
  intro a1 a2 a3 a4 a5 a6
  unfold State.ccAlu
  exact State.ccRun_keep h _ _ _ (fun _ h2 => State.ccWrite_keep h2 _ _ _)

theorem State.ccShift_keep (h : Keep s0 s) : ∀ a1 a2 a3 a4 a5 a6, Keep s0 (State.ccShift s a1 a2 a3 a4 a5 a6) := by
  intro a1 a2 a3 a4 a5 a6
  unfold State.ccShift
  refine State.ccRun_keep h _ _ _ (fun _ h2 => ?_)
  split
  · extract_lets x3
    have kx3 : Keep s0 x3.2 := State.drawWord_keep h2
    exact State.ccWrite_keep kx3 _ _ _
  · exact State.ccWrite_keep h2 _ _ _

end Sys2Proof.Machine
end

