-- ==== Sys2Proof/Laws/KeepPacket.lean ====
section
/-! SUPPORT. What the operations of Packet.lean keep: a lemma for each. -/
set_option Elab.async false
namespace Sys2Proof.Machine
open Sys2Proof Sys2Proof.Bits

variable {s0 s : State}

theorem State.dropPacket_keep (h : Keep s0 s) : ∀ a1 a2, Keep s0 (State.dropPacket s a1 a2) := by
  intro a1 a2
  unfold State.dropPacket
  exact State.bumpAt_keep (State.bump_keep h _) _ _

end Sys2Proof.Machine
end

