-- ==== Sys2Proof/Laws/KeepLink.lean ====
section
/-! SUPPORT. What the operations of Link.lean keep: a lemma for each. -/
set_option Elab.async false
namespace Sys2Proof.Machine
open Sys2Proof Sys2Proof.Bits

variable {s0 s : State}

theorem State.ackTimer_keep (h : Keep s0 s) : ∀ a1, Keep s0 (State.ackTimer s a1) := by
  intro a1
  unfold State.ackTimer
  split
  · exact State.onLink_keep h _ _
  · exact h

theorem State.holdDown_keep (h : Keep s0 s) : ∀ a1, Keep s0 (State.holdDown s a1) := by
  intro a1
  unfold State.holdDown
  exact State.onLink_keep h _ _

theorem State.attemptFails_keep (h : Keep s0 s) : ∀ a1, Keep s0 (State.attemptFails s a1) := by
  intro a1
  unfold State.attemptFails
  extract_lets x1
  split
  · exact State.raise_keep (State.holdDown_keep h _) _ _ _ _
  · split
    · exact State.raise_keep (State.holdDown_keep (State.onLink_keep h _ _) _) _ _ _ _
    · exact State.onLink_keep h _ _

theorem State.attemptTimeout_keep (h : Keep s0 s) : ∀ a1, Keep s0 (State.attemptTimeout s a1) := by
  intro a1
  unfold State.attemptTimeout
  split
  · exact State.attemptFails_keep h _
  · exact h

theorem State.tear_keep (h : Keep s0 s) : ∀ a1, Keep s0 (State.tear s a1) := by
  intro a1
  unfold State.tear
  split
  · exact h
  · extract_lets x1 x2
    have kx1 : Keep s0 x1 := State.onLink_keep h _ _
    have kx2 : Keep s0 x2 := State.dropPacket_keep kx1 _ _
    split
    · exact kx1
    · split
      · split
        · exact kx2
        · exact State.sendNeg_keep kx2 _ _ _
      · exact State.dropPacket_keep kx1 _ _

theorem State.flush_keep (h : Keep s0 s) : ∀ a1, Keep s0 (State.flush s a1) := by
  intro a1
  unfold State.flush
  extract_lets x1 x2 x3 x4 x5 x6
  have kx5 : Keep s0 x5 := by
    refine State.onLink_keep ?_ _ _
    split
    · exact State.tear_keep h _
    · exact h
  have kx6 : Keep s0 x6 := State.onPkt_keep (State.bumpAt_keep (State.setRegAt_keep kx5 _ _ _) _ _) _
  split
  · exact State.onLink_keep h _ _
  · split
    · exact State.raise_keep kx6 _ _ _ _
    · exact kx6

theorem State.goDown_keep (h : Keep s0 s) : ∀ a1 a2, Keep s0 (State.goDown s a1 a2) := by
  intro a1 a2
  unfold State.goDown
  split
  · exact h
  · extract_lets x1 x2 x3 x4
    have kx2 : Keep s0 x2 := State.onLink_keep h _ _
    have kx3 : Keep s0 x3 := State.setRegAt_keep (State.setRegAt_keep (State.bumpAt_keep kx2 _ _) _ _ _) _ _ _
    have kx4 : Keep s0 x4 := State.raise_keep kx3 _ _ _ _
    split
    · exact kx4
    · exact State.flush_keep kx4 _

theorem State.failPosition_keep (h : Keep s0 s) : ∀ a1 a2, Keep s0 (State.failPosition s a1 a2) := by
  intro a1 a2
  unfold State.failPosition
  extract_lets x1
  have kx1 : Keep s0 x1 := State.onLink_keep h _ _
  split
  · exact State.raise_keep kx1 _ _ _ _
  · exact kx1

theorem State.countUnit_keep (h : Keep s0 s) : ∀ a1 a2 a3, Keep s0 (State.countUnit s a1 a2 a3) := by
  intro a1 a2 a3
  unfold State.countUnit
  extract_lets x1 x2 x3 x4 x5 x6
  have kx5 : Keep s0 x5 := State.onLink_keep (State.setRegAt_keep h _ _ _) _ _
  have kx6 : Keep s0 x6 := by
    unfold x6
    split
    · exact State.bumpBy_keep kx5 _ _ _
    · exact kx5
  split
  · exact State.goDown_keep (State.failPosition_keep kx6 _ _) _ _
  · split
    · exact State.goDown_keep kx6 _ _
    · split
      · exact State.goDown_keep kx6 _ _
      · split
        · exact State.onLink_keep (State.setRegAt_keep kx6 _ _ _) _ _
        · exact kx6

theorem State.badData_keep (h : Keep s0 s) : ∀ a1 a2, Keep s0 (State.badData s a1 a2) := by
  intro a1 a2
  unfold State.badData
  exact State.countUnit_keep (State.onLink_keep h _ _) _ _ _

theorem State.chooseUnit_keep (h : Keep s0 s) : ∀ a1, Keep s0 (State.chooseUnit s a1).2 := by
  intro a1
  unfold State.chooseUnit
  extract_lets x1 x2 x3 x4 x5 x6 x7 x8
  split
  · exact Keep.snd (State.onLink_keep h _ _)
  · split
    · exact Keep.snd h
    · split
      · exact Keep.snd (State.bumpBy_keep (State.bumpAt_keep (State.onLink_keep h _ _) _ _) _ _ _)
      · split
        · exact Keep.snd (State.onLink_keep h _ _)
        · split
          · exact Keep.snd (State.onLink_keep h _ _)
          · exact Keep.snd h

theorem State.detectSuccess_keep (h : Keep s0 s) : ∀ a1 a2, Keep s0 (State.detectSuccess s a1 a2) := by
  intro a1 a2
  unfold State.detectSuccess
  extract_lets x1 x2 x3
  split
  · exact h
  · exact State.onLink_keep h _ _

theorem State.detectTimeout_keep (h : Keep s0 s) : ∀ a1, Keep s0 (State.detectTimeout s a1) := by
  intro a1
  unfold State.detectTimeout
  split
  · exact State.attemptFails_keep h _
  · exact h

theorem State.disableLink_keep (h : Keep s0 s) : ∀ a1, Keep s0 (State.disableLink s a1) := by
  intro a1
  unfold State.disableLink
  exact State.onLink_keep (State.flush_keep h _) _ _

theorem State.freewheelExpire_keep (h : Keep s0 s) : ∀ a1, Keep s0 (State.freewheelExpire s a1) := by
  intro a1
  unfold State.freewheelExpire
  extract_lets x1 x2
  have kx2 : Keep s0 x2 := State.flush_keep h _
  split
  · exact h
  · split
    · exact State.raise_keep (State.holdDown_keep kx2 _) _ _ _ _
    · exact kx2

theorem State.holdForClock_keep (h : Keep s0 s) : ∀ a1, Keep s0 (State.holdForClock s a1) := by
  intro a1
  unfold State.holdForClock
  refine State.onRst_keep ?_ _
  refine State.onLink_keep ?_ _ _
  split
  · exact State.goDown_keep h _ _
  · exact h

theorem State.judgeExchange_keep (h : Keep s0 s) : ∀ a1, Keep s0 (State.judgeExchange s a1) := by
  intro a1
  unfold State.judgeExchange
  extract_lets x1
  split
  · split
    · exact State.raise_keep (State.holdDown_keep h _) _ _ _ _
    · extract_lets x2 x3
      split
      · exact State.attemptFails_keep h _
      · exact State.onLink_keep h _ _
  · exact h

theorem State.laneFail_keep (h : Keep s0 s) : ∀ a1 a2, Keep s0 (State.laneFail s a1 a2) := by
  intro a1 a2
  unfold State.laneFail
  extract_lets x1
  split
  · exact h
  · split
    · exact State.goDown_keep (State.failPosition_keep h _ _) _ _
    · split
      · exact State.failPosition_keep h _ _
      · exact h

theorem State.lockDeadline_keep (h : Keep s0 s) : ∀ a1, Keep s0 (State.lockDeadline s a1) := by
  intro a1
  unfold State.lockDeadline
  extract_lets x1 x2 x3 x4
  have kx4 : Keep s0 x4 := State.onLink_keep h _ _
  split
  · exact h
  · split
    · exact State.attemptFails_keep kx4 _
    · exact kx4

theorem State.overflow_keep (h : Keep s0 s) : ∀ a1 a2, Keep s0 (State.overflow s a1 a2) := by
  intro a1 a2
  unfold State.overflow
  exact State.badData_keep (State.bumpAt_keep h _ _) _ _

theorem State.pauseTimeout_keep (h : Keep s0 s) : ∀ a1, Keep s0 (State.pauseTimeout s a1) := by
  intro a1
  unfold State.pauseTimeout
  split
  · exact State.goDown_keep h _ _
  · exact h

theorem State.recordRepeat_keep (h : Keep s0 s) : ∀ a1, Keep s0 (State.recordRepeat s a1) := by
  intro a1
  unfold State.recordRepeat
  split
  · exact State.onLink_keep h _ _
  · exact h

theorem State.replayUnits_keep (h : Keep s0 s) : ∀ a1 a2, Keep s0 (State.replayUnits s a1 a2) := by
  intro a1 a2
  unfold State.replayUnits
  extract_lets x1 x2
  split
  · exact State.goDown_keep h _ _
  · exact State.onLink_keep h _ _

theorem State.replayTimeout_keep (h : Keep s0 s) : ∀ a1 a2, Keep s0 (State.replayTimeout s a1 a2) := by
  intro a1 a2
  unfold State.replayTimeout
  split
  · exact State.replayUnits_keep h _ _
  · exact h

theorem State.retrain_keep (h : Keep s0 s) : ∀ a1, Keep s0 (State.retrain s a1) := by
  intro a1
  unfold State.retrain
  split
  · exact State.goDown_keep h _ _
  · exact State.onLink_keep h _ _

theorem State.trainingStart_keep (h : Keep s0 s) : ∀ a1, Keep s0 (State.trainingStart s a1) := by
  intro a1
  unfold State.trainingStart
  extract_lets x1
  split
  · exact h
  · exact State.onLink_keep h _ _

theorem State.retryWait_keep (h : Keep s0 s) : ∀ a1, Keep s0 (State.retryWait s a1) := by
  intro a1
  unfold State.retryWait
  extract_lets x1
  split
  · exact h
  · exact State.trainingStart_keep (State.onLink_keep h _ _) _

theorem State.takeConfirm_keep (h : Keep s0 s) : ∀ a1 a2 a3 a4, Keep s0 (State.takeConfirm s a1 a2 a3 a4) := by
  intro a1 a2 a3 a4
  unfold State.takeConfirm
  extract_lets x1 x2
  split
  · extract_lets x3 x4
    have kx4 : ∀ p1, Keep s0 p1 → Keep s0 (x4 p1) := by
      intro t5 h6
      unfold x4
      extract_lets x7
      have kx7 : Keep s0 x7 := State.onLink_keep (State.setRegAt_keep (State.setRegAt_keep h6 _ _ _) _ _ _) _ _
      split
      · exact State.raise_keep kx7 _ _ _ _
      · exact kx7
    split
    · exact kx4 _ (State.onLink_keep h _ _)
    · exact kx4 _ (State.flush_keep h _)
  · exact h

theorem State.takeRecord_keep (h : Keep s0 s) : ∀ a1 a2, Keep s0 (State.takeRecord s a1 a2) := by
  intro a1 a2
  unfold State.takeRecord
  extract_lets x1
  split
  · exact h
  · split
    · exact State.onLink_keep h _ _
    · exact h
  · split
    · exact State.onLink_keep h _ _
    · exact h
  · split
    · exact State.replayUnits_keep h _ _
    · exact h
  · split
    · exact State.onLink_keep h _ _
    · split
      · exact State.judgeExchange_keep (State.onLink_keep h _ _) _
      · exact h
  · split
    · exact State.onLink_keep h _ _
    · split
      · exact State.judgeExchange_keep (State.onLink_keep h _ _) _
      · exact h
  · split
    · exact State.onLink_keep h _ _
    · split
      · exact State.takeConfirm_keep h _ _ _ _
      · exact h
  · exact State.bumpAt_keep h _ _

theorem State.takeXoff_keep (h : Keep s0 s) : ∀ a1 a2, Keep s0 (State.takeXoff s a1 a2) := by
  intro a1 a2
  unfold State.takeXoff
  exact State.onLink_keep h _ _

theorem State.rxControl_keep (h : Keep s0 s) : ∀ a1 a2 a3, Keep s0 (State.rxControl s a1 a2 a3) := by
  intro a1 a2 a3
  unfold State.rxControl
  extract_lets x1 x2
  have kx2 : Keep s0 x2 := by
    refine Keep.foldl (fun _ _ h5 => State.takeRecord_keep h5 _ _) _ ?_
    split
    · exact State.takeXoff_keep h _ _
    · exact h
  split
  · exact h
  · split
    · split
      · exact State.countUnit_keep h _ _ _
      · exact h
    · split
      · exact State.countUnit_keep kx2 _ _ _
      · exact kx2

theorem State.rxData_keep (h : Keep s0 s) : ∀ a1 a2 a3, Keep s0 (State.rxData s a1 a2 a3) := by
  intro a1 a2 a3
  unfold State.rxData
  extract_lets x1 x2 x3 x4
  split
  · exact h
  · split
    · exact State.badData_keep h _ _
    · split
      · split
        · exact State.overflow_keep h _ _
        · exact State.countUnit_keep (State.takeXoff_keep (State.onLink_keep h _ _) _ _) _ _ _
      · split
        · split
          · exact State.overflow_keep h _ _
          · exact State.countUnit_keep (State.takeXoff_keep (State.onLink_keep h _ _) _ _) _ _ _
        · split
          · exact State.countUnit_keep (State.takeXoff_keep (State.onLink_keep h _ _) _ _) _ _ _
          · exact State.badData_keep h _ _

theorem State.rxIdle_keep (h : Keep s0 s) : ∀ a1 a2 a3, Keep s0 (State.rxIdle s a1 a2 a3) := by
  intro a1 a2 a3
  unfold State.rxIdle
  split
  · exact h
  · split
    · exact State.countUnit_keep h _ _ _
    · exact State.countUnit_keep (State.takeXoff_keep h _ _) _ _ _

theorem State.rxReplayed_keep (h : Keep s0 s) : ∀ a1 a2 a3, Keep s0 (State.rxReplayed s a1 a2 a3) := by
  intro a1 a2 a3
  unfold State.rxReplayed
  extract_lets x1 x2 x3 x4 x5
  have kx5 : ∀ p1, Keep s0 p1 → Keep s0 (x5 p1) := fun _ h7 => State.countUnit_keep (State.takeXoff_keep h7 _ _) _ _ _
  split
  · exact h
  · split
    · exact State.badData_keep h _ _
    · split
      · split
        · exact kx5 _ (State.onLink_keep h _ _)
        · exact kx5 _ (State.onLink_keep (State.bumpAt_keep h _ _) _ _)
      · split
        · exact State.overflow_keep h _ _
        · exact kx5 _ (State.onLink_keep h _ _)

theorem State.trainWord_keep (h : Keep s0 s) : ∀ a1 a2 a3, Keep s0 (State.trainWord s a1 a2 a3) := by
  intro a1 a2 a3
  unfold State.trainWord
  extract_lets x1 x2 x3 x4 x5 x6 x7 x8
  have kx7 : Keep s0 x7 := State.onLink_keep h _ _
  split
  · exact kx7
  · split
    · exact State.onLink_keep kx7 _ _
    · exact State.onLink_keep kx7 _ _

theorem State.rxTraining_keep (h : Keep s0 s) : ∀ a1 a2 a3, Keep s0 (State.rxTraining s a1 a2 a3) := by
  intro a1 a2 a3
  unfold State.rxTraining
  extract_lets x1 x2 x3
  split
  · exact h
  · split
    · split
      · exact State.goDown_keep h _ _
      · exact h
    · split
      · exact h
      · split
        · exact State.trainWord_keep h _ _ _
        · exact State.onLink_keep h _ _

theorem State.silence_keep (h : Keep s0 s) : ∀ a1, Keep s0 (State.silence s a1) := by
  intro a1
  unfold State.silence
  exact State.goDown_keep h _ _

theorem State.takeMembers_keep (h : Keep s0 s) : ∀ a1, Keep s0 (State.takeMembers s a1) := by
  intro a1
  unfold State.takeMembers
  refine Keep.foldl (fun _ _ h3 => ?_) _ h
  extract_lets x4 x5 x6
  split
  · exact h3
  · exact State.onPkt_keep h3 _

theorem State.unitBoundary_keep (h : Keep s0 s) : ∀ a1, Keep s0 (State.unitBoundary s a1) := by
  intro a1
  unfold State.unitBoundary
  extract_lets x1 x2 x3
  have kx2 : Keep s0 x2.2 := State.chooseUnit_keep h _
  have kx3 : Keep s0 x3 := State.onLink_keep kx2 _ _
  split
  · exact h
  · split
    · exact State.takeMembers_keep kx3 _
    · exact kx3

end Sys2Proof.Machine
end

