-- ==== Sys2Proof/Laws/KeepRoute.lean ====
section
/-! SUPPORT. What the operations of Route.lean keep: a lemma for each. -/
set_option Elab.async false
namespace Sys2Proof.Machine
open Sys2Proof Sys2Proof.Bits

variable {s0 s : State}

theorem State.bindAct_keep (h : Keep s0 s) : ∀ a1, Keep s0 (State.bindAct s a1).2 := by
  intro a1
  unfold State.bindAct
  split
  · exact Keep.snd h
  · exact Keep.snd (State.onPkt_keep h _)

theorem State.bindRefused_keep (h : Keep s0 s) : ∀ a1 a2, Keep s0 (State.bindRefused s a1 a2) := by
  intro a1 a2
  unfold State.bindRefused
  exact State.setRegAt_keep (State.setRegAt_keep h _ _ _) _ _ _

theorem State.readRanks_keep (h : Keep s0 s) : ∀ a1, Keep s0 (State.readRanks s a1).2 := by
  intro a1
  unfold State.readRanks
  extract_lets x1 x2
  have kx2 : Keep s0 x2.2 := State.memRead_keep h _ _
  exact Keep.snd kx2

theorem State.readTree_keep (h : Keep s0 s) : ∀ a1, Keep s0 (State.readTree s a1).2 := by
  intro a1
  unfold State.readTree
  extract_lets x1 x2 x3 x4 x5 x6
  have kx1 : Keep s0 x1.2 := State.memRead_keep h _ _
  split
  · exact Keep.snd kx1
  · split
    · exact Keep.snd kx1
    · split
      · exact Keep.snd kx1
      · exact Keep.snd kx1

theorem State.bound_keep (h : Keep s0 s) : ∀ a1 a2 a3, Keep s0 (State.bound s a1 a2 a3) := by
  intro a1 a2 a3
  unfold State.bound
  extract_lets x1 x2
  have kx2 : Keep s0 x2 := State.onPkt_keep h _
  exact State.setRegAt_keep (State.onCtx_keep kx2 _ _) _ _ _

theorem State.bindComplete_keep (h : Keep s0 s) : ∀ a1, Keep s0 (State.bindComplete s a1) := by
  intro a1
  unfold State.bindComplete
  split
  · exact h
  · extract_lets x1 x2 x3 x4 x5
    have kx1 : Keep s0 x1 := State.onPkt_keep h _
    have kx2 : Keep s0 x2.2 := State.readRanks_keep kx1 _
    have kx4 : Keep s0 x4.2 := State.readTree_keep kx2 _
    have kx5 : Keep s0 x5.2 := State.readTree_keep kx4 _
    split
    · exact State.bindRefused_keep kx1 _ _
    · split
      · exact State.bindRefused_keep kx2 _ _
      · split
        · exact State.bindRefused_keep kx5 _ _
        · exact State.bindRefused_keep kx5 _ _
        · exact State.bound_keep kx5 _ _ _

theorem State.dropUntrusted_keep (h : Keep s0 s) : ∀ a1 a2, Keep s0 (State.dropUntrusted s a1 a2) := by
  intro a1 a2
  unfold State.dropUntrusted
  exact State.onLink_keep (State.dropPacket_keep h _ _) _ _

theorem State.endDrain_keep (h : Keep s0 s) : ∀ a1, Keep s0 (State.endDrain s a1) := by
  intro a1
  unfold State.endDrain
  exact State.setReg_keep (State.onPkt_keep h _) _ _

theorem State.enqueue_keep (h : Keep s0 s) : ∀ a1 a2, Keep s0 (State.enqueue s a1 a2) := by
  intro a1 a2
  unfold State.enqueue
  exact State.onLink_keep h _ _

theorem State.tornByHead_keep (h : Keep s0 s) : ∀ a1, Keep s0 (State.tornByHead s a1) := by
  intro a1
  unfold State.tornByHead
  extract_lets x1
  split
  · exact h
  · split
    · exact State.onLink_keep (State.tear_keep h _) _ _
    · exact h

theorem State.takeFlits_keep (h : Keep s0 s) : ∀ a1 a2, Keep s0 (State.takeFlits s a1 a2) := by
  intro a1 a2
  unfold State.takeFlits
  exact State.onLink_keep h _ _

theorem State.sampleHead_keep (h : Keep s0 s) : ∀ a1 a2 a3, Keep s0 (State.sampleHead s a1 a2 a3) := by
  intro a1 a2 a3
  unfold State.sampleHead
  extract_lets x1 x2
  exact State.setReg_keep (State.memWrite_keep h _ _) _ _

theorem State.sampleHeads_keep (h : Keep s0 s) : ∀ a1 a2 a3 a4, Keep s0 (State.sampleHeads s a1 a2 a3 a4) := by
  intro a1 a2 a3 a4
  unfold State.sampleHeads
  extract_lets x1
  split
  · exact h
  · refine Keep.foldl (fun _ _ h4 => ?_) _ h
    split
    · exact State.sampleHead_keep h4 _ _ _
    · exact h4

theorem State.headerArrive_keep (h : Keep s0 s) : ∀ a1, Keep s0 (State.headerArrive s a1) := by
  intro a1
  unfold State.headerArrive
  extract_lets x1 x2
  have kx1 : Keep s0 x1 := State.onLink_keep (State.tornByHead_keep h _) _ _
  split
  · exact kx1
  · split
    · exact kx1
    · split
      · exact State.dropUntrusted_keep kx1 _ _
      · split
        · exact State.dropUntrusted_keep kx1 _ _
        · extract_lets x3 x4 x5 x6 x7 x8
          have kx7 : Keep s0 x7 := State.onLink_keep (State.takeFlits_keep kx1 _ _) _ _
          have kx8 : ∀ p1 p2, Keep s0 p1 → Keep s0 (x8 p1 p2) := fun _ _ h11 => State.onLink_keep h11 _ _
          split
          · exact State.dropUntrusted_keep kx1 _ _
          · split
            · exact kx1
            · split
              · exact kx8 _ _ (State.dropPacket_keep kx7 _ _)
              · extract_lets x12
                have kx12 : Keep s0 x12 := State.sampleHeads_keep kx7 _ _ _ _
                split
                · exact kx8 _ _ (State.dropPacket_keep kx12 _ _)
                · exact kx8 _ _ kx12

theorem State.notePort_keep (h : Keep s0 s) : ∀ a1 a2, Keep s0 (State.notePort s a1 a2) := by
  intro a1 a2
  unfold State.notePort
  split
  · exact State.onTxn_keep h _ _
  · exact h

theorem State.launch_keep (h : Keep s0 s) : ∀ a1 a2 a3 a4, Keep s0 (State.launch s a1 a2 a3 a4) := by
  intro a1 a2 a3 a4
  unfold State.launch
  extract_lets x1 x2
  exact State.notePort_keep (State.enqueue_keep (State.onPkt_keep h _) _ _) _ _

theorem State.inject_keep (h : Keep s0 s) : ∀ a1, Keep s0 (State.inject s a1).2 := by
  intro a1
  unfold State.inject
  split
  · exact Keep.snd h
  · extract_lets x1
    have kx1 : ∀ p1, Keep s0 p1 → Keep s0 (x1 p1) := fun _ h3 => State.onPkt_keep h3 _
    split
    · exact Keep.snd h
    · split
      · split
        · exact Keep.snd h
        · exact Keep.snd (kx1 _ h)
      · split
        · exact Keep.snd h
        · exact Keep.snd (State.onPkt_keep (kx1 _ h) _)
        · split
          · exact Keep.snd h
          · split
            · split
              · exact Keep.snd (State.launch_keep h _ _ _ _)
              · exact Keep.snd h
            · split
              · exact Keep.snd h
              · split
                · exact Keep.snd (State.launch_keep h _ _ _ _)
                · exact Keep.snd h

theorem State.lportAct_keep (h : Keep s0 s) : ∀ a1 a2, Keep s0 (State.lportAct s a1 a2).2 := by
  intro a1 a2
  unfold State.lportAct
  extract_lets x1 x2
  split
  · exact Keep.snd h
  · refine Keep.snd ?_
    refine Keep.foldl (fun _ _ h5 => ?_) _ (State.setRegAt_keep h _ _ _)
    split
    · exact h5
    · exact State.takeMembers_keep h5 _

theorem State.packetComplete_keep (h : Keep s0 s) : ∀ a1, Keep s0 (State.packetComplete s a1).2 := by
  intro a1
  unfold State.packetComplete
  extract_lets x1
  split
  · exact Keep.snd h
  · extract_lets x2 x3 x4
    have kx3 : Keep s0 x3 := State.onLink_keep (State.takeFlits_keep h _ _) _ _
    have kx4 : Keep s0 x4 := State.dropPacket_keep kx3 _ _
    split
    · exact Keep.snd h
    · split
      · exact Keep.snd (State.tornByHead_keep h _)
      · split
        · exact Keep.snd kx3
        · split
          · exact Keep.snd kx3
          · split
            · refine Keep.snd ?_
              split
              · exact kx4
              · exact State.sendNeg_keep kx4 _ _ _
            · exact Keep.snd kx3

theorem State.routeDrainAct_keep (h : Keep s0 s) : ∀ a1 a2, Keep s0 (State.routeDrainAct s a1 a2).2 := by
  intro a1 a2
  unfold State.routeDrainAct
  extract_lets x1 x2
  split
  · exact Keep.snd h
  · exact Keep.snd (State.setReg_keep (State.onPkt_keep h _) _ _)

theorem State.routeDrainComplete_keep (h : Keep s0 s) : Keep s0 (State.routeDrainComplete s) := by
  unfold State.routeDrainComplete
  split
  · exact h
  · split
    · exact State.endDrain_keep (State.setReg_keep h _ _) _
    · exact h

theorem State.routeDrainTimeout_keep (h : Keep s0 s) : Keep s0 (State.routeDrainTimeout s) := by
  unfold State.routeDrainTimeout
  split
  · exact State.endDrain_keep h _
  · exact h

theorem State.routeLoadAct_keep (h : Keep s0 s) : Keep s0 (State.routeLoadAct s).2 := by
  unfold State.routeLoadAct
  split
  · exact Keep.snd h
  · exact Keep.snd (State.setReg_keep (State.onPkt_keep h _) _ _)

theorem State.routeLoadComplete_keep (h : Keep s0 s) : Keep s0 (State.routeLoadComplete s) := by
  unfold State.routeLoadComplete
  split
  · exact h
  · extract_lets x1 x2 x3 x4 x5
    have kx2 : Keep s0 x2 := State.onPkt_keep h _
    have kx3 : Keep s0 x3.2 := State.memRead_keep kx2 _ _
    split
    · exact State.setReg_keep kx2 _ _
    · split
      · exact State.setReg_keep kx3 _ _
      · split
        · exact State.setReg_keep kx3 _ _
        · exact State.setReg_keep (Keep.foldl (fun _ _ h8 => State.setReg_keep h8 _ _) _ kx3) _ _

theorem State.stallTimeout_keep (h : Keep s0 s) : ∀ a1, Keep s0 (State.stallTimeout s a1) := by
  intro a1
  unfold State.stallTimeout
  extract_lets x1
  split
  · exact h
  · split
    · split
      · exact h
      · exact State.onLink_keep (State.tear_keep h _) _ _
    · split
      · exact h
      · split
        · split
          · split
            · exact h
            · exact State.onLink_keep (State.dropPacket_keep h _ _) _ _
          · split
            · exact h
            · exact State.onLink_keep (State.dropPacket_keep h _ _) _ _
        · exact h

theorem State.transmitBoundary_keep (h : Keep s0 s) : ∀ a1, Keep s0 (State.transmitBoundary s a1) := by
  intro a1
  unfold State.transmitBoundary
  extract_lets x1 x2 x3 x4
  have kx2 : Keep s0 x2 := State.unitBoundary_keep h _
  exact State.sampleHeads_keep kx2 _ _ _ _

end Sys2Proof.Machine
end

