-- ==== Sys2Proof/Laws/KeepColl.lean ====
section
/-! SUPPORT. What the operations of Coll.lean keep: a lemma for each. -/
set_option Elab.async false
namespace Sys2Proof.Machine
open Sys2Proof Sys2Proof.Bits

variable {s0 s : State}

theorem State.withColl_keep (h : Keep s0 s) : ∀ a1 a2 a3, (∀ t30, Keep s0 (a3 t30)) → Keep s0 (State.withColl s a1 a2 a3) := by
  intro a1 a2 a3 g0
  unfold State.withColl
  split
  · exact h
  · exact g0 _

theorem State.collInput_keep (h : Keep s0 s) : ∀ a1 a2, Keep s0 (State.collInput s a1 a2).2 := by
  intro a1 a2
  unfold State.collInput
  exact State.readPieces_keep h _

theorem State.sendCollAbort_keep (h : Keep s0 s) : ∀ a1 a2, Keep s0 (State.sendCollAbort s a1 a2) := by
  intro a1 a2
  unfold State.sendCollAbort
  exact State.sendPkt_keep h _ _

theorem State.onColl_keep (h : Keep s0 s) : ∀ a1 a2 a3, Keep s0 (State.onColl s a1 a2 a3) := by
  intro a1 a2 a3
  unfold State.onColl
  exact State.onCtx_keep h _ _

theorem State.collRecord_keep (h : Keep s0 s) : ∀ a1 a2 a3 a4 a5, Keep s0 (State.collRecord s a1 a2 a3 a4 a5) := by
  intro a1 a2 a3 a4 a5
  unfold State.collRecord
  split
  · exact h
  · extract_lets x1
    have kx1 : Keep s0 x1 := State.ledgerRecord_keep h _ _ _ _ _ _ _
    split
    · exact kx1
    · exact State.onColl_keep kx1 _ _ _

theorem State.collProgress_keep (h : Keep s0 s) : ∀ a1, Keep s0 (State.collProgress s a1) := by
  intro a1
  unfold State.collProgress
  exact State.progressed_keep (State.progressed_keep h _) _

theorem State.collTaskError_keep (h : Keep s0 s) : ∀ a1 a2 a3 a4, Keep s0 (State.collTaskError s a1 a2 a3 a4) := by
  intro a1 a2 a3 a4
  unfold State.collTaskError
  exact State.onTask_keep h _ _ _

theorem State.collAborted_keep (h : Keep s0 s) : ∀ a1 a2 a3 a4 a5 a6, Keep s0 (State.collAborted s a1 a2 a3 a4 a5 a6) := by
  intro a1 a2 a3 a4 a5 a6
  unfold State.collAborted
  exact State.raiseCtx_keep (State.collTaskError_keep (State.bump_keep (State.setRegAt_keep (State.setRegAt_keep (State.setRegAt_keep h _ _ _) _ _ _) _ _ _) _) _ _ _ _) _ _ _

theorem State.dropColl_keep (h : Keep s0 s) : ∀ a1, Keep s0 (State.dropColl s a1) := by
  intro a1
  unfold State.dropColl
  exact State.onCtx_keep h _ _

theorem State.collAbort_keep (h : Keep s0 s) : ∀ a1 a2 a3 a4, Keep s0 (State.collAbort s a1 a2 a3 a4) := by
  intro a1 a2 a3 a4
  unfold State.collAbort
  extract_lets x1 x2
  have kx1 : Keep s0 x1 := by
    unfold x1
    split
    · exact State.sendCollAbort_keep h _ _
    · exact h
  have kx2 : Keep s0 x2 := State.collRecord_keep kx1 _ _ _ _ _
  exact State.collProgress_keep (State.collAborted_keep (State.dropColl_keep kx2 _) _ _ _ _ _ _) _

theorem State.captureMiss_keep (h : Keep s0 s) : ∀ a1 a2, Keep s0 (State.captureMiss s a1 a2) := by
  intro a1 a2
  unfold State.captureMiss
  extract_lets x1
  have kx1 : Keep s0 x1 := State.bumpAt_keep h _ _
  split
  · exact kx1
  · exact State.raiseCtx_keep (State.onCtx_keep kx1 _ _) _ _ _

theorem State.capture_keep (h : Keep s0 s) : ∀ a1 a2 a3, Keep s0 (State.capture s a1 a2 a3).2 := by
  intro a1 a2 a3
  unfold State.capture
  split
  · exact Keep.snd h
  · split
    · exact Keep.snd h
    · extract_lets x1 x2 x3 x4 x5 x6
      have kx6 : Keep s0 x6 := State.memWrite_keep h _ _
      split
      · exact Keep.snd (State.captureMiss_keep h _ _)
      · exact Keep.snd (State.bumpAt_keep (State.setRegAt_keep kx6 _ _ _) _ _)

theorem State.closedRecord_keep (h : Keep s0 s) : ∀ a1 a2 a3 a4, Keep s0 (State.closedRecord s a1 a2 a3 a4) := by
  intro a1 a2 a3 a4
  unfold State.closedRecord
  extract_lets x1 x2 x3 x4 x5 x6
  have kx1 : Keep s0 x1.2 := State.capture_keep h _ _ _
  have kx5 : Keep s0 x5 := by
    unfold x5
    split
    · exact State.bump_keep kx1 _
    · exact kx1
  have kx6 : Keep s0 x6 := by
    unfold x6
    split
    · exact State.raiseCtx_keep (State.onColl_keep kx5 _ _ _) _ _ _
    · exact kx5
  exact State.collRecord_keep kx6 _ _ _ _ _

theorem State.collCheckEnd_keep (h : Keep s0 s) : ∀ a1 a2, Keep s0 (State.collCheckEnd s a1 a2) := by
  intro a1 a2
  unfold State.collCheckEnd
  refine State.withColl_keep h _ _ _ (fun _ => ?_)
  split
  · exact State.collProgress_keep (State.dropColl_keep h _) _
  · exact h

theorem State.expMcast_keep (h : Keep s0 s) : ∀ a1 a2 a3 a4 a5, Keep s0 (State.expMcast s a1 a2 a3 a4 a5) := by
  intro a1 a2 a3 a4 a5
  unfold State.expMcast
  exact State.sendPkt_keep h _ _

theorem State.collDone_keep (h : Keep s0 s) : ∀ a1 a2, Keep s0 (State.collDone s a1 a2) := by
  intro a1 a2
  unfold State.collDone
  refine State.withColl_keep h _ _ _ (fun _ => ?_)
  extract_lets x2
  split
  · exact State.expMcast_keep (State.onColl_keep h _ _ _) _ _ _ _ _
  · exact h

theorem State.closeChunk_keep (h : Keep s0 s) : ∀ a1 a2 a3, Keep s0 (State.closeChunk s a1 a2 a3) := by
  intro a1 a2 a3
  unfold State.closeChunk
  refine State.withColl_keep h _ _ _ (fun _ => ?_)
  split
  · exact h
  · split
    · exact h
    · split
      · exact State.collAbort_keep (State.raiseCtx_keep (State.bump_keep h _) _ _ _) _ _ _ _
      · extract_lets x2 x3 x4 x5 x6
        have kx3 : Keep s0 x3 := State.writePieces_keep h _ _
        have kx4 : Keep s0 x4.2 := State.collInput_keep kx3 _ _
        have kx5 : Keep s0 x5 := State.closedRecord_keep kx4 _ _ _ _
        exact State.collCheckEnd_keep (State.collDone_keep (State.onColl_keep kx5 _ _ _) _ _) _ _

theorem State.onChunk_keep (h : Keep s0 s) : ∀ a1 a2 a3 a4, Keep s0 (State.onChunk s a1 a2 a3 a4) := by
  intro a1 a2 a3 a4
  unfold State.onChunk
  exact State.onColl_keep h _ _ _

theorem State.redBusy_keep (h : Keep s0 s) : Keep s0 (State.redBusy s) := by
  unfold State.redBusy
  extract_lets x1
  have kx1 : Keep s0 x1.2 := State.drawNat_keep h
  exact State.bumpBy_keep kx1 _ _ _

theorem State.addOwn_keep (h : Keep s0 s) : ∀ a1 a2 a3, Keep s0 (State.addOwn s a1 a2 a3) := by
  intro a1 a2 a3
  unfold State.addOwn
  refine State.withColl_keep h _ _ _ (fun _ => ?_)
  split
  · exact h
  · extract_lets x2
    have kx2 : Keep s0 x2.2 := State.collInput_keep h _ _
    split
    · exact State.collAbort_keep kx2 _ _ _ _
    · extract_lets x3 x4
      exact State.closeChunk_keep (State.onChunk_keep (State.redBusy_keep kx2) _ _ _ _) _ _ _

theorem State.agree_keep (h : Keep s0 s) : ∀ a1 a2 a3, Keep s0 (State.agree s a1 a2 a3) := by
  intro a1 a2 a3
  unfold State.agree
  refine State.withColl_keep h _ _ _ (fun _ => ?_)
  split
  · exact h
  · split
    · exact h
    · exact State.addOwn_keep (State.expMcast_keep h _ _ _ _ _) _ _ _

theorem State.collPacket_keep (h : Keep s0 s) : ∀ a1 a2, (∀ t20 t21, Keep s0 (a2 t20 t21)) → Keep s0 (State.collPacket s a1 a2) := by
  intro a1 a2 g0
  unfold State.collPacket
  split
  · exact h
  · split
    · exact State.bump_keep h _
    · split
      · exact State.bump_keep h _
      · split
        · exact State.collAbort_keep h _ _ _ _
        · exact g0 _ _

theorem State.sendExpUp_keep (h : Keep s0 s) : ∀ a1 a2 a3 a4, Keep s0 (State.sendExpUp s a1 a2 a3 a4) := by
  intro a1 a2 a3 a4
  unfold State.sendExpUp
  exact State.sendPkt_keep h _ _

theorem State.sendSlice_keep (h : Keep s0 s) : ∀ a1 a2 a3 a4 a5, Keep s0 (State.sendSlice s a1 a2 a3 a4 a5).2 := by
  intro a1 a2 a3 a4 a5
  unfold State.sendSlice
  extract_lets x1 x2 x3 x4 x5 x6
  split
  · exact Keep.snd (State.sendPkt_keep h _ _)
  · refine Keep.snd ?_
    refine State.sendPkt_keep ?_ _ _
    split
    · exact State.bump_keep h _
    · exact h

theorem State.sentRecord_keep (h : Keep s0 s) : ∀ a1 a2 a3 a4, Keep s0 (State.sentRecord s a1 a2 a3 a4) := by
  intro a1 a2 a3 a4
  unfold State.sentRecord
  extract_lets x1 x2 x3
  have kx1 : Keep s0 x1.2 := State.capture_keep h _ _ _
  exact State.collRecord_keep kx1 _ _ _ _ _

theorem State.sendSlices_keep (h : Keep s0 s) : ∀ a1 a2 a3 a4 a5, Keep s0 (State.sendSlices s a1 a2 a3 a4 a5) := by
  intro a1 a2 a3 a4 a5
  unfold State.sendSlices
  refine State.withColl_keep h _ _ _ (fun _ => ?_)
  split
  · exact h
  · extract_lets x2
    have kx2 : Keep s0 x2.2 := State.collInput_keep h _ _
    split
    · exact State.collAbort_keep kx2 _ _ _ _
    · extract_lets x3 x4 x5
      have kx4 : Keep s0 x4.2 := by
        refine Keep.foldl_snd (Keep.snd (State.redBusy_keep kx2)) (fun _ _ h8 => ?_) _
        extract_lets x9
        have kx9 : Keep s0 x9.2 := State.sendSlice_keep h8 _ _ _ _ _
        exact Keep.snd kx9
      have kx5 : Keep s0 x5 := State.onColl_keep kx4 _ _ _
      exact State.collCheckEnd_keep (State.collProgress_keep (State.sentRecord_keep kx5 _ _ _ _) _) _ _

theorem State.takeGrantOf_keep (h : Keep s0 s) : ∀ a1 a2 a3 a4, Keep s0 (State.takeGrantOf s a1 a2 a3 a4) := by
  intro a1 a2 a3 a4
  unfold State.takeGrantOf
  refine State.withColl_keep h _ _ _ (fun _ => ?_)
  split
  · exact h
  · split
    · exact State.collAbort_keep h _ _ _ _
    · extract_lets x2 x3
      have kx2 : Keep s0 x2 := State.onColl_keep h _ _ _
      have kx3 : Keep s0 x3.2 := State.collInput_keep kx2 _ _
      split
      · exact State.collProgress_keep (State.sendExpUp_keep kx3 _ _ _ _) _
      · exact State.sendSlices_keep kx2 _ _ _ _ _

theorem State.applyGrant_keep (h : Keep s0 s) : ∀ a1 a2, Keep s0 (State.applyGrant s a1 a2) := by
  intro a1 a2
  unfold State.applyGrant
  exact State.withColl_keep h _ _ _ (fun _ => Keep.foldl (fun _ _ h4 => State.takeGrantOf_keep h4 _ _ _ _) _ h)

theorem State.takeCollGrant_keep (h : Keep s0 s) : ∀ a1, Keep s0 (State.takeCollGrant s a1) := by
  intro a1
  unfold State.takeCollGrant
  split
  · exact h
  · split
    · extract_lets x1
      split
      · exact State.bump_keep h _
      · split
        · exact h
        · exact State.onDisp_keep h _
    · refine State.collPacket_keep h _ _ (fun _ _ => ?_)
      split
      · exact State.collAbort_keep h _ _ _ _
      · exact State.applyGrant_keep (State.collProgress_keep h _) _ _

theorem State.applyEarly_keep (h : Keep s0 s) : ∀ a1, Keep s0 (State.applyEarly s a1) := by
  intro a1
  unfold State.applyEarly
  extract_lets x1 x2 x3
  have kx3 : Keep s0 x3 := State.onDisp_keep h _
  exact Keep.foldl (fun _ _ h6 => State.takeCollGrant_keep h6 _) _ kx3

theorem State.chunkOpen_keep (h : Keep s0 s) : ∀ a1 a2 a3, Keep s0 (State.chunkOpen s a1 a2 a3) := by
  intro a1 a2 a3
  unfold State.chunkOpen
  refine State.withColl_keep h _ _ _ (fun _ => ?_)
  extract_lets x2 x3 x4 x5 x6 x7
  have kx3 : Keep s0 x3.2 := State.collInput_keep h _ _
  have kx6 : Keep s0 x6 := State.onColl_keep kx3 _ _ _
  have kx7 : Keep s0 x7 := State.collProgress_keep (State.expMcast_keep kx6 _ _ _ _ _) _
  split
  · exact h
  · split
    · split
      · exact h
      · exact State.bump_keep (State.onColl_keep h _ _ _) _
    · split
      · exact State.agree_keep kx7 _ _ _
      · exact State.addOwn_keep kx7 _ _ _

theorem State.collFailed_keep (h : Keep s0 s) : ∀ a1 a2 a3 a4, Keep s0 (State.collFailed s a1 a2 a3 a4) := by
  intro a1 a2 a3 a4
  unfold State.collFailed
  split
  · exact h
  · split
    · exact h
    · split
      · exact h
      · split
        · exact State.collAbort_keep h _ _ _ _
        · split
          · exact State.collAbort_keep h _ _ _ _
          · exact h

theorem State.takeAlive_keep (h : Keep s0 s) : ∀ a1, Keep s0 (State.takeAlive s a1) := by
  intro a1
  unfold State.takeAlive
  exact State.bump_keep (State.onCore_keep (State.onCtx_keep h _ _) _ _) _

theorem State.collRefused_keep (h : Keep s0 s) : ∀ a1 a2, Keep s0 (State.collRefused s a1 a2) := by
  intro a1 a2
  unfold State.collRefused
  exact State.collAbort_keep (State.takeAlive_keep h _) _ _ _ _

theorem State.collFault_keep (h : Keep s0 s) : ∀ a1, Keep s0 (State.collFault s a1) := by
  intro a1
  unfold State.collFault
  split
  · exact h
  · split
    · exact h
    · extract_lets x1
      have kx1 : Keep s0 x1.2 := State.translateParts_keep h _ _ _ _ _ _
      split
      · extract_lets x2
        have kx2 : Keep s0 x2.2 := State.readPieces_keep kx1 _
        exact State.collRefused_keep kx2 _ _
      · exact State.collAborted_keep (State.onCore_keep kx1 _ _) _ _ _ _ _ _

theorem State.collRepeat_keep (h : Keep s0 s) : ∀ a1 a2, Keep s0 (State.collRepeat s a1 a2) := by
  intro a1 a2
  unfold State.collRepeat
  refine State.withColl_keep h _ _ _ (fun _ => ?_)
  extract_lets x2
  have kx2 : Keep s0 x2 := by
    refine Keep.foldl (fun _ _ h5 => ?_) _ h
    extract_lets x6
    have kx6 : Keep s0 x6 := State.expMcast_keep h5 _ _ _ _ _
    split
    · exact State.expMcast_keep kx6 _ _ _ _ _
    · exact kx6
  split
  · exact State.expMcast_keep kx2 _ _ _ _ _
  · exact kx2

theorem State.collReset_keep (h : Keep s0 s) : ∀ a1, Keep s0 (State.collReset s a1) := by
  intro a1
  unfold State.collReset
  exact Keep.foldl (fun _ _ h3 => State.collAbort_keep h3 _ _ _ _) _ h

theorem State.gatheredRecord_keep (h : Keep s0 s) : ∀ a1 a2 a3, Keep s0 (State.gatheredRecord s a1 a2 a3) := by
  intro a1 a2 a3
  unfold State.gatheredRecord
  extract_lets x1 x2 x3 x4
  have kx1 : Keep s0 x1.2 := State.readPieces_keep h _
  have kx2 : Keep s0 x2.2 := by
    unfold x2
    split
    · exact State.capture_keep kx1 _ _ _
    · exact Keep.snd kx1
  exact State.collRecord_keep kx2 _ _ _ _ _

theorem State.sendPieces_keep (h : Keep s0 s) : ∀ a1 a2 a3, Keep s0 (State.sendPieces s a1 a2 a3) := by
  intro a1 a2 a3
  unfold State.sendPieces
  exact Keep.foldl (fun _ _ h3 => State.sendPkt_keep h3 _ _) _ h

theorem State.gatherOwn_keep (h : Keep s0 s) : ∀ a1 a2, Keep s0 (State.gatherOwn s a1 a2) := by
  intro a1 a2
  unfold State.gatherOwn
  refine State.withColl_keep h _ _ _ (fun _ => ?_)
  extract_lets x2 x3
  have kx3 : Keep s0 x3 := by
    refine Keep.foldl (fun _ _ h6 => ?_) _ h
    extract_lets x7 x8
    have kx7 : Keep s0 x7.2 := State.collInput_keep h6 _ _
    have kx8 : Keep s0 x8 := State.writePieces_keep kx7 _ _
    exact State.gatheredRecord_keep (State.sendPieces_keep kx8 _ _ _) _ _ _
  exact State.collCheckEnd_keep (State.onColl_keep kx3 _ _ _) _ _

theorem State.collRun_keep (h : Keep s0 s) : ∀ a1, Keep s0 (State.collRun s a1) := by
  intro a1
  unfold State.collRun
  extract_lets x1
  have kx1 : Keep s0 x1 := State.applyEarly_keep (State.collProgress_keep (State.onCtx_keep (State.takeAlive_keep h _) _ _) _) _
  split
  · exact State.collCheckEnd_keep (State.collDone_keep kx1 _ _) _ _
  · exact State.gatherOwn_keep kx1 _ _

theorem State.ranksOk_keep (h : Keep s0 s) : ∀ a1, Keep s0 (State.ranksOk s a1).2 := by
  intro a1
  unfold State.ranksOk
  extract_lets x1
  have kx1 : Keep s0 x1.2 := State.readRanks_keep h _
  exact Keep.snd kx1

theorem State.collStart_keep (h : Keep s0 s) : ∀ a1 a2, Keep s0 (State.collStart s a1 a2) := by
  intro a1 a2
  unfold State.collStart
  split
  · exact h
  · split
    · exact h
    · extract_lets x1 x2 x3
      have kx3 : Keep s0 x3.2 := State.translateParts_keep h _ _ _ _ _ _
      split
      · exact State.xltRaise_keep kx3 _ _ _ _ _
      · extract_lets x4 x5 x6 x7 x8 x9 x10
        have kx4 : Keep s0 x4.2 := State.readPieces_keep kx3 _
        have kx7 : Keep s0 x7 := State.countRange_keep kx4 _ _ _ _ _
        have kx8 : Keep s0 x8.2 := State.ranksOk_keep kx7 _
        have kx9 : Keep s0 x9.2 := State.translateRange_keep kx8 _ _ _ _ _ _
        have kx10 : Keep s0 x10.2 := State.translateRange_keep kx9 _ _ _ _ _ _
        split
        · exact h
        · split
          · exact State.collRefused_keep kx8 _ _
          · split
            · exact State.xltRaise_keep kx9 _ _ _ _ _
            · split
              · exact State.xltRaise_keep kx10 _ _ _ _ _
              · exact State.collRun_keep kx10 _

theorem State.collTimeout_keep (h : Keep s0 s) : ∀ a1 a2, Keep s0 (State.collTimeout s a1 a2) := by
  intro a1 a2
  unfold State.collTimeout
  exact State.withColl_keep h _ _ _ (fun _ => State.collAbort_keep h _ _ _ _)

theorem State.takeCollAbort_keep (h : Keep s0 s) : ∀ a1, Keep s0 (State.takeCollAbort s a1) := by
  intro a1
  unfold State.takeCollAbort
  exact State.collPacket_keep h _ _ (fun _ _ => State.collAbort_keep h _ _ _ _)

theorem State.takeDone_keep (h : Keep s0 s) : ∀ a1, Keep s0 (State.takeDone s a1) := by
  intro a1
  unfold State.takeDone
  refine State.collPacket_keep h _ _ (fun _ _ => ?_)
  split
  · exact State.collAbort_keep h _ _ _ _
  · exact State.collCheckEnd_keep (State.collProgress_keep (State.onColl_keep h _ _ _) _) _ _

theorem State.takeExpDown_keep (h : Keep s0 s) : ∀ a1, Keep s0 (State.takeExpDown s a1) := by
  intro a1
  unfold State.takeExpDown
  refine State.collPacket_keep h _ _ (fun _ _ => ?_)
  split
  · exact State.collAbort_keep h _ _ _ _
  · exact State.sendSlices_keep (State.collProgress_keep h _) _ _ _ _ _

theorem State.takeExpUp_keep (h : Keep s0 s) : ∀ a1, Keep s0 (State.takeExpUp s a1) := by
  intro a1
  unfold State.takeExpUp
  refine State.collPacket_keep h _ _ (fun _ _ => ?_)
  split
  · exact State.collAbort_keep h _ _ _ _
  · extract_lets x3 x4
    split
    · exact State.collAbort_keep h _ _ _ _
    · exact State.agree_keep (State.collProgress_keep (State.onChunk_keep h _ _ _ _) _) _ _ _

theorem State.takeGather_keep (h : Keep s0 s) : ∀ a1, Keep s0 (State.takeGather s a1) := by
  intro a1
  unfold State.takeGather
  refine State.collPacket_keep h _ _ (fun _ _ => ?_)
  extract_lets x3 x4 x5 x6 x7 x8 x9 x10 x11
  have kx7 : Keep s0 x7 := State.writePieces_keep h _ _
  have kx10 : Keep s0 x10 := State.collProgress_keep (State.onColl_keep kx7 _ _ _) _
  split
  · exact State.collAbort_keep h _ _ _ _
  · split
    · exact kx7
    · refine State.collCheckEnd_keep ?_ _ _
      split
      · exact State.gatheredRecord_keep kx10 _ _ _
      · exact kx10

theorem State.takeSlice_keep (h : Keep s0 s) : ∀ a1, Keep s0 (State.takeSlice s a1) := by
  intro a1
  unfold State.takeSlice
  refine State.collPacket_keep h _ _ (fun _ _ => ?_)
  extract_lets x3 x4 x5 x6
  have kx3 : Keep s0 x3 := State.collAbort_keep h _ _ _ _
  split
  · exact kx3
  · extract_lets x7
    split
    · exact kx3
    · split
      · exact kx3
      · split
        · exact kx3
        · extract_lets x8 x9
          exact State.closeChunk_keep (State.collProgress_keep (State.onChunk_keep (State.redBusy_keep h) _ _ _ _) _) _ _ _

end Sys2Proof.Machine
end

