-- ==== Sys2Proof/Laws/KeepPorts.lean ====
section
/-! SUPPORT. What the operations of Ports.lean keep: a lemma for each. -/
set_option Elab.async false
namespace Sys2Proof.Machine
open Sys2Proof Sys2Proof.Bits

variable {s0 s : State}

theorem State.disabledAccess_keep (h : Keep s0 s) : ∀ a1 a2, Keep s0 (State.disabledAccess s a1 a2) := by
  intro a1 a2
  unfold State.disabledAccess
  exact State.raise_keep (State.onPort_keep h _ _) _ _ _ _

theorem State.disablePort_keep (h : Keep s0 s) : ∀ a1, Keep s0 (State.disablePort s a1) := by
  intro a1
  unfold State.disablePort
  extract_lets x1 x2
  split
  · exact h
  · exact Keep.foldl (fun _ _ h5 => State.disabledAccess_keep h5 _ _) _ (State.onPort_keep h _ _)

theorem State.gmpDataBeat_keep (h : Keep s0 s) : ∀ a1, Keep s0 (State.gmpDataBeat s a1) := by
  intro a1
  unfold State.gmpDataBeat
  extract_lets x1
  exact State.onPort_keep h _ _

theorem State.gmpEnd_keep (h : Keep s0 s) : ∀ a1 a2 a3, Keep s0 (State.gmpEnd s a1 a2 a3) := by
  intro a1 a2 a3
  unfold State.gmpEnd
  exact State.onPort_keep h _ _

theorem State.gmpFailed_keep (h : Keep s0 s) : ∀ a1 a2, Keep s0 (s.gmpFailed a1 a2) := by
  intro a1 a2
  refine Keep.foldl (fun t i ht => ?_) _ h
  exact Keep.mem (p := (t.drawBytes 128).2.memPoison) (State.drawBytes_keep _ ht) storeBytes_wf fun e => e

theorem State.gmpIssue_keep (h : Keep s0 s) : ∀ a1 a2 a3, Keep s0 (State.gmpIssue s a1 a2 a3) := by
  intro a1 a2 a3
  unfold State.gmpIssue
  extract_lets x1 x2
  split
  · exact h
  · split
    · exact State.disabledAccess_keep h _ _
    · split
      · exact h
      · split
        · exact State.onPort_keep h _ _
        · split
          · exact State.onPort_keep h _ _
          · exact State.onPort_keep h _ _

theorem State.gmpPerform_keep (h : Keep s0 s) : ∀ a1 a2, Keep s0 (s.gmpPerform a1 a2) := by
  intro a1 a2
  unfold State.gmpPerform
  refine Keep.foldl (fun t i ht => ?_) _ h
  dsimp only
  split
  · exact ht
  · exact Keep.mem ht storeBytes_wf rising_setDel
  · split
    · exact ht
    · refine Keep.mem ht storeBytes_wf fun e => ?_
      repeat' split
      all_goals first | exact rising_setIns e | exact rising_setDel e | exact e

theorem State.gmpStatus_keep (h : Keep s0 s) : ∀ a1 a2 a3 a4, Keep s0 (State.gmpStatus s a1 a2 a3 a4) := by
  intro a1 a2 a3 a4
  unfold State.gmpStatus
  split
  · exact h
  · split
    · extract_lets x1
      have kx1 : Keep s0 x1 := State.bumpAt_keep h _ _
      split
      · exact kx1
      · exact State.raise_keep kx1 _ _ _ _
    · exact State.bumpAt_keep h _ _

theorem State.gmpResponse_keep (h : Keep s0 s) : ∀ a1 a2 a3 a4 a5, Keep s0 (State.gmpResponse s a1 a2 a3 a4 a5) := by
  intro a1 a2 a3 a4 a5
  unfold State.gmpResponse
  extract_lets x1 x2
  split
  · exact h
  · split
    · exact State.bumpAt_keep h _ _
    · split
      · exact h
      · split
        · split
          · exact h
          · extract_lets x3 x4 x5
            have kx3 : Keep s0 x3 := State.gmpStatus_keep h _ _ _ _
            split
            · exact State.onPort_keep kx3 _ _
            · exact State.gmpEnd_keep kx3 _ _ _
        · split
          · exact h
          · extract_lets x6 x7
            have kx6 : Keep s0 x6 := State.gmpStatus_keep h _ _ _ _
            split
            · exact State.gmpEnd_keep (State.gmpPerform_keep kx6 _ _) _ _ _
            · exact State.gmpEnd_keep (State.gmpFailed_keep kx6 _ _) _ _ _

theorem State.gmpStall_keep (h : Keep s0 s) : ∀ a1 a2, Keep s0 (State.gmpStall s a1 a2) := by
  intro a1 a2
  unfold State.gmpStall
  split
  · exact h
  · extract_lets x1 x2 x3
    have kx1 : Keep s0 x1 := by
      unfold x1
      split
      · exact h
      · exact State.gmpFailed_keep h _ _
    have kx2 : Keep s0 x2 := State.onPort_keep kx1 _ _
    have kx3 : Keep s0 x3 := State.raise_keep (State.bumpBy_keep kx2 _ _ _) _ _ _ _
    split
    · exact State.raise_keep (State.disablePort_keep kx3 _) _ _ _ _
    · exact kx3

theorem State.i3cAssign_keep (h : Keep s0 s) : ∀ a1 a2 a3, Keep s0 (State.i3cAssign s a1 a2 a3) := by
  intro a1 a2 a3
  unfold State.i3cAssign
  split
  · exact State.onI3c_keep h _
  · exact h

theorem State.i3cFast_keep (h : Keep s0 s) : Keep s0 (State.i3cFast s) := by
  unfold State.i3cFast
  split
  · exact State.onI3c_keep h _
  · exact h

theorem State.i3cHdr_keep (h : Keep s0 s) : ∀ a1, Keep s0 (State.i3cHdr s a1) := by
  intro a1
  unfold State.i3cHdr
  split
  · exact State.onI3c_keep h _
  · exact h

theorem State.portOff_keep (h : Keep s0 s) : ∀ a1, Keep s0 (State.portOff s a1) := by
  intro a1
  unfold State.portOff
  split
  · exact h
  · exact State.disablePort_keep (State.setReg_keep h _ _) _

theorem State.portOn_keep (h : Keep s0 s) : ∀ a1, Keep s0 (State.portOn s a1) := by
  intro a1
  unfold State.portOn
  split
  · exact h
  · extract_lets x1 x2
    have kx1 : Keep s0 x1 := State.setReg_keep h _ _
    split
    · exact State.onPort_keep kx1 _ _
    · exact kx1

theorem State.scan_keep (h : Keep s0 s) : ∀ a1 a2, Keep s0 (State.scan s a1 a2) := by
  intro a1 a2
  unfold State.scan
  split
  · exact State.onTap_keep h _
  · exact State.onTap_keep h _
  · split
    · extract_lets x1
      have kx1 : Keep s0 x1.2 := State.drawNat_keep h
      exact State.onTap_keep kx1 _
    · exact State.onTap_keep h _

theorem State.tapScan_keep (h : Keep s0 s) : ∀ a1, Keep s0 (State.tapScan s a1) := by
  intro a1
  unfold State.tapScan
  split
  · exact h
  · split
    · exact State.onTap_keep h _
    · exact State.scan_keep h _ _

end Sys2Proof.Machine
end

