-- ==== Sys2Proof/Laws/KeepReset.lean ====
section
/-! SUPPORT. What the operations of Reset.lean keep: a lemma for each. -/
set_option Elab.async false
namespace Sys2Proof.Machine
open Sys2Proof Sys2Proof.Bits

variable {s0 s : State}

/-- A reset input keeps everything but the latches. -/
theorem State.wiped_kept (s : State) : s.Kept s.wiped := by
  refine ⟨rfl, rfl, rfl, Nat.le_refl _, fun _ e => e, fun e => ?_⟩
  rw [State.sound_iff] at e ⊢
  exact ⟨e.mem, rfl, e.memPoison, rfl, rfl, rfl, rfl, rfl, rfl, rfl, rfl, rfl, rfl, rfl, Nat.zero_le _, Nat.zero_le _,
    Nat.zero_le _, Nat.zero_le _⟩

theorem State.blkWiped_keep (h : Keep s0 s) : Keep s0 s.blkWiped :=
  h.step rfl rfl rfl (Nat.le_refl _) (fun _ e => e) (fun e => e) (fun e => e) s.wiped_kept.sound

theorem State.blkReset_keep (h : Keep s0 s) : Keep s0 (State.blkReset s) := by
  unfold State.blkReset
  exact State.onRst_keep (State.blkWiped_keep h) _

theorem State.blockReset_keep (h : Keep s0 s) : Keep s0 (State.blockReset s) := by
  unfold State.blockReset
  exact State.onRst_keep (State.blkWiped_keep h) _

theorem State.cadenceLost_keep (h : Keep s0 s) : ∀ a1, Keep s0 (State.cadenceLost s a1) := by
  intro a1
  unfold State.cadenceLost
  extract_lets x1
  have kx1 : Keep s0 x1 := State.onCad_keep h _
  split
  · exact State.raise_keep kx1 _ _ _ _
  · exact kx1

theorem State.clockFault_keep (h : Keep s0 s) : ∀ a1 a2, Keep s0 (State.clockFault s a1 a2) := by
  intro a1 a2
  unfold State.clockFault
  extract_lets x1
  have kx1 : ∀ p1 p2, Keep s0 (x1 p1 p2) := fun _ _ => State.setReg_keep h _ _
  split
  · exact kx1 _ _
  · exact kx1 _ _
  · exact kx1 _ _
  · exact kx1 _ _
  · exact kx1 _ _
  · exact kx1 _ _

theorem State.clockSeen_keep (h : Keep s0 s) : ∀ a1, Keep s0 (State.clockSeen s a1) := by
  intro a1
  unfold State.clockSeen
  split
  · exact h
  · split
    · exact State.onRst_keep h _
    · exact State.onRst_keep (State.clockFault_keep h _ _) _

theorem State.stopAll_keep (h : Keep s0 s) : Keep s0 s.stopAll := by
  unfold State.stopAll
  extract_lets z mgmt r d s1 s2 s3 s4
  have h1 : Keep s0 s1 := h.stores fun e => { e with sems := rfl, counters := rfl, cores := rfl, coreParts := rfl, ctxs := rfl }
  have h2 : Keep s0 s2 := Keep.hcp (State.onPkt_keep h1 _) fun _ => Nat.zero_le _
  have h4 : Keep s0 s4 := State.onPwr_keep (State.onFlt_keep h2) _
  exact Keep.foldl (fun t c ht => State.setRegAt_keep (State.setRegAt_keep (State.setRegAt_keep ht _ _ _) _ _ _) _ _ _) _ h4

theorem State.trainSingle_keep (h : Keep s0 s) : ∀ a1, Keep s0 (State.trainSingle s a1) := by
  intro a1
  unfold State.trainSingle
  extract_lets x1
  have kx1 : Keep s0 x1 := by
    unfold x1
    split
    · exact State.goDown_keep h _ _
    · exact h
  exact State.onLink_keep kx1 _ _

theorem State.keepLink_keep (h : Keep s0 s) : ∀ a1, Keep s0 (State.keepLink s a1) := by
  intro a1
  unfold State.keepLink
  refine Keep.foldl (fun _ _ h3 => ?_) _ h
  split
  · exact State.trainSingle_keep h3 _
  · exact State.disableLink_keep h3 _

theorem State.enterKickstand_keep (h : Keep s0 s) : Keep s0 (State.enterKickstand s) := by
  unfold State.enterKickstand
  split
  · exact h
  · extract_lets x1 x2 x3
    have kx2 : Keep s0 x2.2 := State.drawNat_keep (State.stopAll_keep (State.keepLink_keep h _))
    have kx3 : Keep s0 x3 := kx2
    exact State.raise_keep (State.onFlt_keep (Keep.upd kx3)) _ _ _ _

theorem State.loseClock_keep (h : Keep s0 s) : ∀ a1, Keep s0 (s.loseClock a1) := by
  intro a1
  unfold State.loseClock
  split
  · exact State.onFlt_keep (State.enterKickstand_keep (State.onRst_keep h _))
  · exact State.onFlt_keep (State.enterKickstand_keep (State.onRst_keep h _))
  · exact State.holdForClock_keep h _
  · exact State.disablePort_keep (State.onRst_keep h _) _
  · exact Keep.hcp (State.onRst_keep h _) (fun e => e) fun _ => rfl
  · exact State.cadenceLost_keep h _

theorem State.clockWindow_keep (h : Keep s0 s) : ∀ a1 a2, Keep s0 (State.clockWindow s a1 a2) := by
  intro a1 a2
  unfold State.clockWindow
  split
  · exact h
  · split
    · exact State.onRst_keep (State.clockFault_keep h _ _) _
    · exact State.loseClock_keep (State.raise_keep (State.clockFault_keep h _ _) _ _ _ _) _

theorem State.firstEvent_keep (h : Keep s0 s) : Keep s0 (State.firstEvent s) := by
  unfold State.firstEvent
  split
  · exact State.raise_keep (State.onRst_keep h _) _ _ _ _
  · exact h

theorem State.missingClocks_keep (h : Keep s0 s) : Keep s0 (State.missingClocks s) := by
  unfold State.missingClocks
  extract_lets x1 x2 x3 x4
  have kx3 : Keep s0 x3 := Keep.foldl (fun _ _ h7 => State.clockFault_keep h7 _ _) _ h
  have kx4 : Keep s0 x4 := Keep.foldl (fun _ _ h10 => State.disablePort_keep (State.clockFault_keep h10 _ _) _) _ kx3
  split
  · exact kx4
  · exact State.clockFault_keep kx4 _ _

theorem range_map_wfFrom (f : Nat → LinkState) (hf : ∀ n, f n ≠ LinkState.reset) :
    ∀ n a (lo : Option Nat), (∀ b, lo = some b → b < a) →
      Table.wfFrom LinkState.reset lo ((List.range' a n).map fun k => (k, f k)) = true := by
  intro n
  induction n with
  | zero => intros; rfl
  | succ n ih =>
    intro a lo hlo
    rw [List.range'_succ, List.map_cons]
    unfold Table.wfFrom
    rw [ih (a + 1) (some a) (by rintro b ⟨⟩; exact Nat.lt_succ_self _), Bool.and_true, Bool.and_eq_true]
    refine ⟨?_, by simpa using hf a⟩
    cases lo with
    | none => rfl
    | some b => simpa using hlo b rfl

theorem startLinks_wf (n : Nat) :
    Table.wf LinkState.reset ((List.range n).map fun k => (k, { LinkState.reset with trainDue := true })) = true := by
  rw [List.range_eq_range']
  exact range_map_wfFrom (fun _ => { LinkState.reset with trainDue := true }) (fun _ => by decide) n 0 none (by rintro b ⟨⟩)

theorem State.startLinks_keep (h : Keep s0 s) : Keep s0 s.startLinks :=
  h.stores fun e => { e with links := startLinks_wf s.build.links }

theorem State.clocksAbsent_keep (h : Keep s0 s) : Keep s0 (State.clocksAbsent s) := by
  unfold State.clocksAbsent
  split
  · exact h
  · extract_lets x1 x2 x3
    have kx2 : Keep s0 x2 := State.firstEvent_keep (State.missingClocks_keep (State.startLinks_keep (State.onRst_keep (Keep.upd h) _)))
    have kx3 : Keep s0 x3 := Keep.foldl (fun _ _ h6 => State.raise_keep (State.clockFault_keep h6 _ _) _ _ _ _) _ kx2
    exact State.onFlt_keep (State.enterKickstand_keep kx3)

theorem State.leaveReset_keep (h : Keep s0 s) : Keep s0 (State.leaveReset s) := by
  unfold State.leaveReset
  extract_lets x1
  have kx1 : Keep s0 x1 := State.firstEvent_keep (State.missingClocks_keep (State.startLinks_keep (State.onRst_keep (Keep.upd h) _)))
  split
  · exact State.onFlt_keep (State.enterKickstand_keep kx1)
  · exact kx1

theorem State.nextKept_keep (h : Keep s0 s) : Keep s0 (State.nextKept s) := by
  unfold State.nextKept
  split
  · split
    · extract_lets x1
      exact State.trainSingle_keep (State.onFlt_keep h) _
    · exact h
  · exact h

theorem State.porReset_kept (s : State) : s.Kept s.porReset :=
  ⟨rfl, rfl, rfl, Nat.le_refl _, fun _ e => e, s.wiped_kept.sound⟩

theorem State.powerOff_kept (s : State) : s.Kept s.powerOff :=
  ⟨rfl, rfl, rfl, Nat.le_refl _, fun _ e => e, s.wiped_kept.sound⟩

theorem State.releaseReset_keep (h : Keep s0 s) : ∀ a1, Keep s0 (State.releaseReset s a1) := by
  intro a1
  unfold State.releaseReset
  split
  · exact h
  · extract_lets x1
    have kx1 : Keep s0 x1 := by
      unfold x1
      split
      · split
        · exact State.onRst_keep h _
        · exact h
      · exact State.onRst_keep h _
    split
    · exact State.onRst_keep kx1 _
    · exact kx1

theorem State.stretcherEnd_keep (h : Keep s0 s) : Keep s0 (State.stretcherEnd s) := by
  unfold State.stretcherEnd
  split
  · exact State.onRst_keep h _
  · exact h

theorem State.tablesClear_keep (h : Keep s0 s) : Keep s0 (State.tablesClear s) := by
  unfold State.tablesClear
  split
  · exact State.leaveReset_keep h
  · exact h

end Sys2Proof.Machine
end

