-- ==== Sys2Proof/Laws/KeepRecovery.lean ====
section
/-! SUPPORT. What the operations of Recovery.lean keep: a lemma for each. -/
set_option Elab.async false
namespace Sys2Proof.Machine
open Sys2Proof Sys2Proof.Bits

variable {s0 s : State}

theorem State.abandonTxns_keep (h : Keep s0 s) : ∀ a1 a2, Keep s0 (State.abandonTxns s a1 a2) := by
  intro a1 a2
  unfold State.abandonTxns
  exact State.onRmt_keep h _

theorem State.advanceEpoch_keep (h : Keep s0 s) : ∀ a1, Keep s0 (State.advanceEpoch s a1) := by
  intro a1
  unfold State.advanceEpoch
  extract_lets x1
  exact State.onFlt_keep (State.setRegAt_keep h _ _ _)

theorem State.ladderStop_keep (h : Keep s0 s) : ∀ a1 a2 a3, Keep s0 (State.ladderStop s a1 a2 a3) := by
  intro a1 a2 a3
  unfold State.ladderStop
  extract_lets x1
  have kx1 : Keep s0 x1 := State.raise_keep h _ _ _ _
  split
  · exact Keep.upd kx1
  · exact kx1

theorem State.powerCycle_keep (h : Keep s0 s) : ∀ a1, Keep s0 (State.powerCycle s a1) := by
  intro a1
  unfold State.powerCycle
  exact State.raise_keep h _ _ _ _

theorem State.resetParked_keep (h : Keep s0 s) : ∀ a1, Keep s0 (State.resetParked s a1) := by
  intro a1
  unfold State.resetParked
  extract_lets x1
  have kx1 : Keep s0 x1 := State.sendNeg_keep (State.unpark_keep h _) _ _ _
  split
  · exact State.dropCache_keep kx1 _ _
  · exact kx1

theorem State.startCtxReset_keep (h : Keep s0 s) : ∀ a1 a2 a3, Keep s0 (State.startCtxReset s a1 a2 a3) := by
  intro a1 a2 a3
  unfold State.startCtxReset
  split
  · exact h
  · extract_lets x1 x2 x3 x4 x5
    have kx1 : Keep s0 x1 := State.setRegAt_keep (State.setRegAt_keep (State.attReset_keep (State.collReset_keep h _) _) _ _ _) _ _ _
    have kx2 : Keep s0 x2 := State.abandonTxns_keep (State.nextGeneration_keep kx1 _) _ _
    have kx3 : Keep s0 x3 := State.withdrawFaults_keep (Keep.foldl (fun _ _ h8 => State.resetParked_keep h8 _) _ kx2) _
    have kx4 : Keep s0 x4 := Keep.foldl (fun _ _ h11 => State.onCore_keep (State.taskError_keep h11 _ _) _ _) _ kx3
    have kx5 : Keep s0 x5 := State.onCtx_keep (State.onFar_keep kx4 _) _ _
    exact State.onFlt_keep (State.setRegAt_keep kx5 _ _ _)

theorem State.noteUnitReset_keep (h : Keep s0 s) : ∀ a1, Keep s0 (State.noteUnitReset s a1) := by
  intro a1
  unfold State.noteUnitReset
  exact State.onFlt_keep h

theorem State.clearNamed_keep (h : Keep s0 s) : ∀ a1, Keep s0 (State.clearNamed s a1) := by
  intro a1
  unfold State.clearNamed
  exact State.onFlt_keep h

theorem State.loseFarLines_keep (h : Keep s0 s) : ∀ a1, Keep s0 (State.loseFarLines s a1) := by
  intro a1
  unfold State.loseFarLines
  extract_lets x1 x2
  exact State.onFar_keep (Keep.foldl (fun _ _ h5 => State.evict_keep h5 _) _ h) _

theorem State.clearEngine_keep (h : Keep s0 s) : ∀ a1 a2, Keep s0 (State.clearEngine s a1 a2) := by
  intro a1 a2
  unfold State.clearEngine
  split
  · exact State.onCore_keep h _ _ fun _ hx => by
      obtain ⟨a, b, c, _⟩ := CoreState.canonical_parts hx
      exact CoreState.canonical_of a b c ⟨rfl, rfl⟩
  · exact State.onCore_keep h _ _ fun _ hx => by
      obtain ⟨a, b, _, d⟩ := CoreState.canonical_parts hx
      exact CoreState.canonical_of a b rfl d
  · exact State.advanceEpoch_keep (State.onCore_keep (State.loseFarLines_keep h _) _ _ fun _ hx => by
      exact CoreState.canonical_of rfl rfl (CoreState.canonical_parts hx).2.2.1 (CoreState.canonical_parts hx).2.2.2) _
  · exact State.onRmt_keep (State.abandonTxns_keep (State.onCore_keep h _ _) _ _) _
  · exact h

theorem State.reductionSample_keep (h : Keep s0 s) : ∀ a1 a2 a3, Keep s0 (State.reductionSample s a1 a2 a3).2 := by
  intro a1 a2 a3
  unfold State.reductionSample
  extract_lets x1
  have kx1 : Keep s0 x1.2 := State.drawBytes_keep _ h
  exact Keep.snd kx1

theorem State.clearReduction_keep (h : Keep s0 s) : ∀ a1, Keep s0 (State.clearReduction s a1) := by
  intro a1
  unfold State.clearReduction
  extract_lets x1
  exact State.onDisp_keep (Keep.foldl (fun _ _ h4 => State.collAbort_keep h4 _ _ _ _) _ h) _

theorem State.engineReset_keep (h : Keep s0 s) : ∀ a1 a2, Keep s0 (State.engineReset s a1 a2) := by
  intro a1 a2
  unfold State.engineReset
  split
  · exact h
  · extract_lets x1 x2
    split
    · extract_lets x3 x4
      have kx4 : Keep s0 x4 := Keep.foldl (fun _ _ h7 => State.startCtxReset_keep h7 _ _ _) _ (State.noteUnitReset_keep (State.clearNamed_keep h _) _)
      exact State.clearEngine_keep kx4 _ _
    · extract_lets x8 x9
      have kx8 : Keep s0 x8.2 := State.reductionSample_keep h _ _ _
      have kx9 : Keep s0 x9 := Keep.foldl (fun _ _ h12 => State.startCtxReset_keep h12 _ _ _) _ (State.noteUnitReset_keep kx8 _)
      exact State.clearReduction_keep kx9 _
    · exact h

theorem State.partitionReset_keep (h : Keep s0 s) : ∀ a1 a2, Keep s0 (State.partitionReset s a1 a2) := by
  intro a1 a2
  unfold State.partitionReset
  extract_lets x1 x2 x3 x4 x5 x6 x7 x8 x9
  have kx5 : Keep s0 x5 := State.noteUnitReset_keep (Keep.foldl (fun _ _ h12 => State.clearNamed_keep h12 _) _ h) _
  have kx6 : Keep s0 x6 := Keep.foldl (fun _ _ h15 => State.startCtxReset_keep h15 _ _ _) _ kx5
  have kx7 : ∀ p1 p2, Keep s0 p1 → Keep s0 (x7 p1 p2) := fun _ _ h18 => State.clearEngine_keep (State.clearEngine_keep (State.clearEngine_keep (State.clearEngine_keep h18 _ _) _ _) _ _) _ _
  have kx8 : Keep s0 x8 := State.clearReduction_keep (Keep.foldl (fun _ _ h21 => kx7 _ _ h21) _ kx6) _
  have kx9 : Keep s0 x9 := State.onFar_keep (State.abandonTxns_keep kx8 _ _) _
  split
  · exact h
  · exact State.dropLeaves_keep kx9 _

theorem State.sampleLost_keep (h : Keep s0 s) : ∀ a1, Keep s0 (State.sampleLost s a1) := by
  intro a1
  unfold State.sampleLost
  exact State.raise_keep h _ _ _ _

theorem State.writeSample_keep (h : Keep s0 s) : ∀ a1, Keep s0 (State.writeSample s a1) := by
  intro a1
  unfold State.writeSample
  extract_lets x1 x2 x3
  have kx3 : Keep s0 x3.2 := State.memWrite_keep h _ _
  split
  · exact State.sampleLost_keep h _
  · split
    · exact State.bump_keep kx3 _
    · exact State.sampleLost_keep kx3 _

theorem State.blockResetBy_keep (h : Keep s0 s) : ∀ a1, Keep s0 (State.blockResetBy s a1) := by
  intro a1
  unfold State.blockResetBy
  extract_lets x1
  exact State.blockReset_keep (Keep.foldl (fun _ _ h4 => State.writeSample_keep h4 _) _ h)

theorem State.takeRung_keep (h : Keep s0 s) : ∀ a1 a2 a3 a4 a5 a6, Keep s0 (State.takeRung s a1 a2 a3 a4 a5 a6) := by
  intro a1 a2 a3 a4 a5 a6
  unfold State.takeRung
  split
  · exact State.ladderStop_keep h _ _ _
  · split
    · exact State.powerCycle_keep h _
    · split
      · exact h
      · split
        · exact State.startCtxReset_keep h _ _ _
        · exact State.engineReset_keep h _ _
        · split
          · exact State.partitionReset_keep h _ _
          · exact h
        · exact State.blockResetBy_keep h _

theorem State.blockLimit_keep (h : Keep s0 s) : Keep s0 (State.blockLimit s) := by
  unfold State.blockLimit
  split
  · exact State.takeRung_keep h _ _ _ _ _ _
  · exact h

theorem State.blockResetAct_keep (h : Keep s0 s) : Keep s0 (State.blockResetAct s).2 := by
  unfold State.blockResetAct
  extract_lets x1
  have kx1 : Keep s0 x1.2 := State.drawNat_keep h
  exact Keep.snd (State.blockResetBy_keep kx1 _)

theorem State.clearSource_keep (h : Keep s0 s) : ∀ a1, Keep s0 (s.clearSource a1) :=
  fun _ => Keep.fltLe (State.setRegAt_keep (State.setRegAt_keep h _ _ _) _ _ _) (Nat.le_refl _) (List.length_filter_le _ _)

theorem State.clearAllAct_keep (h : Keep s0 s) : Keep s0 (State.clearAllAct s).2 := by
  unfold State.clearAllAct
  refine Keep.snd ?_
  refine Keep.foldl (fun _ _ h3 => ?_) _ h
  split
  · exact h3
  · exact State.clearSource_keep h3 _

theorem State.clearCore_keep (h : Keep s0 s) : ∀ a1, Keep s0 (State.clearCore s a1) := by
  intro a1
  unfold State.clearCore
  exact State.freeCore_keep (State.onCore_keep h _ _) _

theorem State.takeOnEngines_keep (h : Keep s0 s) : ∀ a1 a2 a3 a4, Keep s0 (State.takeOnEngines s a1 a2 a3 a4) := by
  intro a1 a2 a3 a4
  unfold State.takeOnEngines
  exact Keep.foldl (fun _ _ h3 => State.takeRung_keep h3 _ _ _ _ _ _) _ h

theorem State.ctxLimit_keep (h : Keep s0 s) : ∀ a1, Keep s0 (State.ctxLimit s a1) := by
  intro a1
  unfold State.ctxLimit
  split
  · exact State.takeOnEngines_keep h _ _ _ _
  · exact h

theorem State.endSubs_keep (h : Keep s0 s) : ∀ a1, Keep s0 (State.endSubs s a1) := by
  intro a1
  unfold State.endSubs
  extract_lets x1
  exact State.onRmt_keep (State.onCtx_keep h _ _) _

theorem State.rungDone_keep (h : Keep s0 s) : ∀ a1 a2, Keep s0 (State.rungDone s a1 a2) := by
  intro a1 a2
  unfold State.rungDone
  exact State.onFlt_keep h

theorem State.ctxResetComplete_keep (h : Keep s0 s) : ∀ a1, Keep s0 (State.ctxResetComplete s a1) := by
  intro a1
  unfold State.ctxResetComplete
  split
  · exact h
  · extract_lets x1 x2 x3 x4 x5 x6 x7
    have kx3 : Keep s0 x3 := State.dropFarOf_keep (Keep.foldl (fun _ _ h10 => State.clearCore_keep h10 _) _ (State.endSubs_keep h _)) _ _
    have kx4 : Keep s0 x4 := Keep.foldl (fun _ _ h13 => State.spadUnwrite_keep h13 _ _ _) _ kx3
    have kx5 : Keep s0 x5 := State.onFlt_keep (State.onCtx_keep (State.zeroWindows_keep kx4 _) _ _)
    have kx6 : Keep s0 x6 := State.writeRecords_keep (State.releaseOld_keep (State.setRegAt_keep kx5 _ _ _) _) _
    have kx7 : Keep s0 x7 := State.assertVector_keep (State.raiseCtx_keep (State.rungDone_keep (State.bumpAt_keep kx6 _ _) _ _) _ _ _) _
    split
    · exact State.raiseCtx_keep kx7 _ _ _
    · exact kx7

theorem State.nextTurn_keep (h : Keep s0 s) : ∀ a1 a2, Keep s0 (State.nextTurn s a1 a2) := by
  intro a1 a2
  unfold State.nextTurn
  split
  · exact Keep.foldl (fun _ _ h3 => State.setRegAt_keep h3 _ _ _) _ (State.onFlt_keep h)
  · exact State.onFlt_keep (State.setRegAt_keep h _ _ _)

theorem State.startProbation_keep (h : Keep s0 s) : ∀ a1 a2, Keep s0 (State.startProbation s a1 a2) := by
  intro a1 a2
  unfold State.startProbation
  split
  · exact h
  · extract_lets x1
    have kx1 : Keep s0 x1 := Keep.foldl (fun _ _ h4 => State.setRegAt_keep h4 _ _ _) _ h
    exact State.nextTurn_keep (Keep.foldl (fun _ _ h7 => State.setRegAt_keep h7 _ _ _) _ kx1) _ _

theorem State.unitOver_keep (h : Keep s0 s) : ∀ a1 a2, Keep s0 (State.unitOver s a1 a2) := by
  intro a1 a2
  unfold State.unitOver
  extract_lets x1
  have kx1 : Keep s0 x1 := Keep.foldl (fun _ _ h4 => State.writeSample_keep h4 _) _ (State.onFlt_keep h)
  exact State.startProbation_keep (State.rungDone_keep kx1 _ _) _ _

theorem State.engineIdle_keep (h : Keep s0 s) : ∀ a1, Keep s0 (State.engineIdle s a1) := by
  intro a1
  unfold State.engineIdle
  split
  · exact h
  · split
    · exact State.raise_keep (State.bumpAt_keep (State.unitOver_keep h _ _) _ _) _ _ _ _
    · exact State.raise_keep (State.unitOver_keep h _ _) _ _ _ _
    · exact h

theorem State.engineLimit_keep (h : Keep s0 s) : ∀ a1, Keep s0 (State.engineLimit s a1) := by
  intro a1
  unfold State.engineLimit
  split
  · split
    · exact h
    · exact State.takeRung_keep h _ _ _ _ _ _
  · exact h

theorem State.ladder_keep (h : Keep s0 s) : ∀ a1, Keep s0 (State.ladder s a1) := by
  intro a1
  unfold State.ladder
  extract_lets x1 x2
  split
  · split
    · exact State.takeRung_keep h _ _ _ _ _ _
    · exact State.takeOnEngines_keep h _ _ _ _
  · split
    · exact State.takeRung_keep h _ _ _ _ _ _
    · exact State.takeRung_keep h _ _ _ _ _ _

theorem State.takeAction_keep (h : Keep s0 s) : ∀ a1, Keep s0 (State.takeAction s a1) := by
  intro a1
  unfold State.takeAction
  split
  · split
    · exact State.takeRung_keep h _ _ _ _ _ _
    · exact h
  · exact State.takeRung_keep h _ _ _ _ _ _
  · split
    · exact State.takeRung_keep h _ _ _ _ _ _
    · exact h
  · exact State.takeRung_keep h _ _ _ _ _ _
  · exact State.enterKickstand_keep h
  · split
    · exact h
    · exact State.ladder_keep h _
  · exact h

theorem length_dropFirst_le {α : Type} (p : α → Bool) (l : List α) : (dropFirst p l).length ≤ l.length := by
  induction l with
  | nil => exact Nat.le_refl _
  | cons x l ih =>
    unfold dropFirst
    split
    · exact Nat.le_succ _
    · exact Nat.succ_le_succ ih

theorem State.escalate_keep (h : Keep s0 s) : ∀ a1 a2, Keep s0 (s.escalate a1 a2) := by
  intro a1 a2
  unfold State.escalate
  split
  · exact h
  · exact State.takeAction_keep (Keep.fltLe h (Nat.le_refl _) (length_dropFirst_le _ _)) _

theorem State.raiseEngineHang_keep (h : Keep s0 s) : ∀ a1, Keep s0 (State.raiseEngineHang s a1) := by
  intro a1
  unfold State.raiseEngineHang
  extract_lets x1 x2
  have kx2 : Keep s0 x2 := State.raise_keep h _ _ _ _
  split
  · exact State.onFlt_keep kx2
  · exact kx2

theorem State.hangExamine_keep (h : Keep s0 s) : Keep s0 (State.hangExamine s) := by
  unfold State.hangExamine
  split
  · exact h
  · extract_lets x1 x2 x3 x4 x5 x6
    have kx5 : Keep s0 x5 := Keep.foldl (fun _ _ h9 => State.progressed_keep h9 _) _ h
    have kx6 : Keep s0 x6 := Keep.foldl (fun _ _ h12 => State.raiseEngineHang_keep h12 _) _ kx5
    exact Keep.foldl (fun _ _ h15 => State.raiseCtx_keep h15 _ _ _) _ kx6

theorem State.kickExitAct_keep (h : Keep s0 s) : Keep s0 (State.kickExitAct s).2 := by
  unfold State.kickExitAct
  split
  · exact Keep.snd h
  · extract_lets x1
    have kx1 : Keep s0 x1.2 := State.drawNat_keep h
    exact Keep.snd (State.blockResetBy_keep kx1 _)

theorem State.partitionIdle_keep (h : Keep s0 s) : ∀ a1, Keep s0 (State.partitionIdle s a1) := by
  intro a1
  unfold State.partitionIdle
  split
  · exact h
  · extract_lets x1
    have kx1 : Keep s0 x1 := Keep.foldl (fun _ _ h4 => State.bumpBy_keep h4 _ _ _) _ (State.unitOver_keep h _ _)
    exact State.raise_keep kx1 _ _ _ _

theorem State.partitionLimit_keep (h : Keep s0 s) : ∀ a1, Keep s0 (State.partitionLimit s a1) := by
  intro a1
  unfold State.partitionLimit
  split
  · exact State.takeRung_keep h _ _ _ _ _ _
  · exact h

theorem State.pcycKick_keep (h : Keep s0 s) : Keep s0 (State.pcycKick s) := by
  unfold State.pcycKick
  split
  · exact h
  · exact State.onFlt_keep (State.enterKickstand_keep h)

theorem State.resync_keep (h : Keep s0 s) : ∀ a1, Keep s0 (State.resync s a1) := by
  intro a1
  unfold State.resync
  extract_lets x1 x2 x3
  have kx3 : Keep s0 x3 := State.onFlt_keep (State.onFar_keep h _)
  split
  · exact h
  · exact Keep.foldl (fun _ _ h6 => State.raise_keep h6 _ _ _ _) _ kx3

theorem State.rstCtxAct_keep (h : Keep s0 s) : ∀ a1, Keep s0 (State.rstCtxAct s a1).2 := by
  intro a1
  unfold State.rstCtxAct
  split
  · exact Keep.snd h
  · exact Keep.snd (State.startCtxReset_keep h _ _ _)

theorem State.sampleLimit_keep (h : Keep s0 s) : ∀ a1, Keep s0 (State.sampleLimit s a1) := by
  intro a1
  unfold State.sampleLimit
  split
  · exact h
  · exact Keep.foldl (fun _ _ h3 => State.sampleLost_keep h3 _) _ (State.onFlt_keep h)

theorem State.srcClearAct_keep (h : Keep s0 s) : ∀ a1, Keep s0 (State.srcClearAct s a1).2 := by
  intro a1
  unfold State.srcClearAct
  split
  · exact Keep.snd h
  · split
    · exact Keep.snd h
    · exact Keep.snd (State.clearSource_keep h _)

theorem State.takeDue_keep (h : Keep s0 s) : ∀ a1, Keep s0 (State.takeDue s a1) := by
  intro a1
  induction a1 generalizing s with
  | zero =>
    unfold State.takeDue
    exact h
  | succ n ih =>
    unfold State.takeDue
    split
    · exact h
    · exact ih (State.takeAction_keep (State.onFlt_keep h) _)

theorem State.turnEnd_keep (h : Keep s0 s) : ∀ a1, Keep s0 (State.turnEnd s a1) := by
  intro a1
  unfold State.turnEnd
  split
  · exact h
  · split
    · exact h
    · extract_lets x1
      have kx1 : ∀ p1, Keep s0 (x1 p1) := fun _ => State.nextTurn_keep (State.setRegAt_keep h _ _ _) _ _
      split
      · split
        · exact kx1 _
        · exact h
      · split
        · exact h
        · exact kx1 _
      · split
        · exact State.startCtxReset_keep (kx1 _) _ _ _
        · exact h

end Sys2Proof.Machine
end

