-- ==== Sys2Proof/Laws/KeepHier.lean ====
section
/-! SUPPORT. What the operations of Hier.lean keep: a lemma for each. -/
set_option Elab.async false
namespace Sys2Proof.Machine
open Sys2Proof Sys2Proof.Bits

variable {s0 s : State}

theorem State.actBcast_keep (h : Keep s0 s) : ∀ a1 a2, Keep s0 (State.actBcast s a1 a2) := by
  intro a1 a2
  unfold State.actBcast
  extract_lets x1 x2 x3
  have kx1 : Keep s0 x1 := State.onCtx_keep h _ _
  have kx2 : Keep s0 x2 := by
    unfold x2
    split
    · exact State.raiseCtx_keep (State.bump_keep kx1 _) _ _ _
    · exact kx1
  split
  · exact State.startCtxReset_keep kx2 _ _ _
  · split
    · exact State.bump_keep kx2 _
    · exact State.memWrite_keep kx2 _ _

theorem State.activate_keep (h : Keep s0 s) : ∀ a1 a2, Keep s0 (State.activate s a1 a2) := by
  intro a1 a2
  unfold State.activate
  split
  · exact h
  · split
    · exact State.actBcast_keep h _ _
    · exact h

theorem State.sendBar_keep (h : Keep s0 s) : ∀ a1 a2 a3 a4 a5 a6, Keep s0 (State.sendBar s a1 a2 a3 a4 a5 a6) := by
  intro a1 a2 a3 a4 a5 a6
  unfold State.sendBar
  exact State.sendPkt_keep h _ _

theorem State.arriveRepeat_keep (h : Keep s0 s) : ∀ a1, Keep s0 (State.arriveRepeat s a1) := by
  intro a1
  unfold State.arriveRepeat
  split
  · split
    · exact State.sendBar_keep h _ _ _ _ _ _
    · exact h
  · exact h

theorem State.sendKids_keep (h : Keep s0 s) : ∀ a1 a2 a3 a4 a5, Keep s0 (State.sendKids s a1 a2 a3 a4 a5) := by
  intro a1 a2 a3 a4 a5
  unfold State.sendKids
  exact Keep.foldl (fun _ _ h3 => State.sendBar_keep h3 _ _ _ _ _ _) _ h

theorem State.failBar_keep (h : Keep s0 s) : ∀ a1, Keep s0 (State.failBar s a1) := by
  intro a1
  unfold State.failBar
  extract_lets x1
  have kx1 : Keep s0 x1 := State.onCtx_keep (State.setRegAt_keep (State.sendKids_keep h _ _ _ _ _) _ _ _) _ _
  exact State.raiseCtx_keep kx1 _ _ _

theorem State.barMismatch_keep (h : Keep s0 s) : ∀ a1, Keep s0 (State.barMismatch s a1) := by
  intro a1
  unfold State.barMismatch
  split
  · exact State.failBar_keep h _
  · exact State.onCtx_keep (State.sendKids_keep h _ _ _ _ _) _ _

theorem State.releaseBar_keep (h : Keep s0 s) : ∀ a1 a2 a3, Keep s0 (State.releaseBar s a1 a2 a3) := by
  intro a1 a2 a3
  unfold State.releaseBar
  extract_lets x1 x2 x3
  have kx1 : Keep s0 x1 := State.sendKids_keep h _ _ _ _ _
  have kx2 : Keep s0 x2 := by
    unfold x2
    split
    · exact State.stepRecord_keep (State.setRegAt_keep kx1 _ _ _) _ _
    · exact kx1
  have kx3 : Keep s0 x3 := State.onCtx_keep (State.setRegAt_keep (State.setRegAt_keep kx2 _ _ _) _ _ _) _ _
  exact State.signal_keep kx3 _ _

theorem State.barStep_keep (h : Keep s0 s) : ∀ a1, Keep s0 (State.barStep s a1) := by
  intro a1
  unfold State.barStep
  extract_lets x1
  split
  · exact h
  · split
    · exact h
    · split
      · exact State.barMismatch_keep h _
      · split
        · exact h
        · split
          · exact State.releaseBar_keep h _ _ _
          · exact State.onCtx_keep (State.sendBar_keep h _ _ _ _ _ _) _ _

theorem State.barTimeout_keep (h : Keep s0 s) : ∀ a1, Keep s0 (State.barTimeout s a1) := by
  intro a1
  unfold State.barTimeout
  split
  · exact State.failBar_keep h _
  · exact h

theorem State.forward_keep (h : Keep s0 s) : ∀ a1 a2, Keep s0 (State.forward s a1 a2) := by
  intro a1 a2
  unfold State.forward
  exact Keep.foldl (fun _ _ h3 => State.sendPkt_keep h3 _ _) _ h

theorem State.enterBcast_keep (h : Keep s0 s) : ∀ a1 a2 a3 a4 a5, Keep s0 (State.enterBcast s a1 a2 a3 a4 a5) := by
  intro a1 a2 a3 a4 a5
  unfold State.enterBcast
  extract_lets x1 x2 x3
  have kx3 : Keep s0 x3 := State.forward_keep (State.onCtx_keep h _ _) _ _
  split
  · exact State.actBcast_keep kx3 _ _
  · exact kx3

theorem State.bcastAct_keep (h : Keep s0 s) : ∀ a1 a2 a3, Keep s0 (State.bcastAct s a1 a2 a3).2 := by
  intro a1 a2 a3
  unfold State.bcastAct
  split
  · exact Keep.snd h
  · split
    · exact Keep.snd h
    · extract_lets x1 x2
      exact Keep.snd (State.enterBcast_keep (State.onCtx_keep h _ _) _ _ _ _ _)

theorem State.steer_keep (h : Keep s0 s) : ∀ a1, Keep s0 (State.steer s a1) := by
  intro a1
  unfold State.steer
  extract_lets x1 x2 x3 x4
  have kx1 : Keep s0 x1.2 := State.drawNat_keep h
  exact State.onCad_keep kx1 _

theorem State.cadenceEdge_keep (h : Keep s0 s) : Keep s0 (State.cadenceEdge s) := by
  unfold State.cadenceEdge
  split
  · exact h
  · extract_lets x1 x2 x3
    split
    · exact State.bump_keep h _
    · exact State.onCad_keep (State.steer_keep (State.setReg_keep h _ _) _) _

theorem State.cadenceOut_keep (h : Keep s0 s) : Keep s0 (State.cadenceOut s) := by
  unfold State.cadenceOut
  split
  · exact State.onCad_keep h _
  · exact h

theorem State.missedOut_keep (h : Keep s0 s) : Keep s0 (State.missedOut s) := by
  unfold State.missedOut
  extract_lets x1
  have kx1 : Keep s0 x1 := State.onCad_keep h _
  split
  · exact State.cadenceLost_keep (State.onCad_keep kx1 _) _
  · exact State.onCad_keep kx1 _

theorem State.cadencePeriod_keep (h : Keep s0 s) : Keep s0 (State.cadencePeriod s) := by
  unfold State.cadencePeriod
  split
  · exact h
  · extract_lets x1 x2 x3
    have kx1 : Keep s0 x1 := by
      unfold x1
      split
      · exact State.onCad_keep h _
      · exact h
    have kx2 : Keep s0 x2 := by
      unfold x2
      split
      · exact State.missedOut_keep kx1
      · exact kx1
    split
    · exact kx2
    · exact State.sendPkt_keep (State.onCad_keep kx2 _) _ _

theorem State.cadenceSetAct_keep (h : Keep s0 s) : ∀ a1, Keep s0 (State.cadenceSetAct s a1).2 := by
  intro a1
  unfold State.cadenceSetAct
  extract_lets x1
  split
  · exact Keep.snd h
  · exact Keep.snd (State.onCad_keep h _)

theorem State.epochGate_keep (h : Keep s0 s) : ∀ a1 a2, Keep s0 (State.epochGate s a1 a2).2 := by
  intro a1 a2
  unfold State.epochGate
  split
  · exact Keep.snd h
  · extract_lets x1 x2
    split
    · exact Keep.snd h
    · split
      · exact Keep.snd (State.raiseCtx_keep (State.setRegAt_keep h _ _ _) _ _ _)
      · exact Keep.snd h

theorem State.keepalive_keep (h : Keep s0 s) : ∀ a1, Keep s0 (State.keepalive s a1) := by
  intro a1
  unfold State.keepalive
  split
  · exact State.sendBar_keep h _ _ _ _ _ _
  · exact h

theorem State.secondCopy_keep (h : Keep s0 s) : ∀ a1, Keep s0 (State.secondCopy s a1) := by
  intro a1
  unfold State.secondCopy
  extract_lets x1
  exact Keep.foldl (fun _ _ h4 => State.forward_keep h4 _ _) _ (State.onCtx_keep h _ _)

theorem State.takeArrive_keep (h : Keep s0 s) : ∀ a1, Keep s0 (State.takeArrive s a1) := by
  intro a1
  unfold State.takeArrive
  extract_lets x1 x2 x3 x4 x5
  have kx1 : Keep s0 x1.2 := State.epochGate_keep h _ _
  have kx2 : Keep s0 x2 := kx1
  split
  · exact kx2
  · split
    · exact kx2
    · split
      · exact State.barStep_keep (State.onCtx_keep kx2 _ _) _
      · split
        · exact State.sendBar_keep kx2 _ _ _ _ _ _
        · exact State.barMismatch_keep kx2 _

theorem State.takeBarAbort_keep (h : Keep s0 s) : ∀ a1, Keep s0 (State.takeBarAbort s a1) := by
  intro a1
  unfold State.takeBarAbort
  extract_lets x1
  have kx1 : Keep s0 x1.2 := State.epochGate_keep h _ _
  split
  · exact kx1
  · split
    · exact State.failBar_keep kx1 _
    · exact kx1

theorem State.takeBarRelease_keep (h : Keep s0 s) : ∀ a1, Keep s0 (State.takeBarRelease s a1) := by
  intro a1
  unfold State.takeBarRelease
  extract_lets x1
  have kx1 : Keep s0 x1.2 := State.epochGate_keep h _ _
  split
  · exact kx1
  · split
    · exact State.releaseBar_keep kx1 _ _ _
    · exact kx1

theorem State.takeBcast_keep (h : Keep s0 s) : ∀ a1, Keep s0 (State.takeBcast s a1) := by
  intro a1
  unfold State.takeBcast
  extract_lets x1 x2 x3
  have kx2 : Keep s0 x2.2 := State.epochGate_keep h _ _
  split
  · exact kx2
  · split
    · exact State.bump_keep kx2 _
    · split
      · exact kx2
      · exact State.enterBcast_keep kx2 _ _ _ _ _

theorem State.takeCadenceReq_keep (h : Keep s0 s) : ∀ a1, Keep s0 (State.takeCadenceReq s a1) := by
  intro a1
  unfold State.takeCadenceReq
  extract_lets x1
  exact State.sendPkt_keep h _ _

theorem State.takeOffset_keep (h : Keep s0 s) : ∀ a1, Keep s0 (State.takeOffset s a1) := by
  intro a1
  unfold State.takeOffset
  extract_lets x1 x2
  have kx1 : Keep s0 x1 := State.setReg_keep h _ _
  have kx2 : Keep s0 x2 := State.bump_keep (State.onCad_keep (State.cadenceLost_keep kx1 _) _) _
  split
  · exact State.onCad_keep kx2 _
  · exact State.steer_keep kx1 _

theorem State.takeCadenceRsp_keep (h : Keep s0 s) : ∀ a1, Keep s0 (State.takeCadenceRsp s a1) := by
  intro a1
  unfold State.takeCadenceRsp
  split
  · exact h
  · split
    · exact h
    · extract_lets x1 x2
      have kx1 : Keep s0 x1 := State.onCad_keep h _
      split
      · exact State.cadenceLost_keep kx1 _
      · exact State.takeOffset_keep kx1 _

theorem State.takeKeepalive_keep (h : Keep s0 s) : ∀ a1, Keep s0 (State.takeKeepalive s a1) := by
  intro a1
  unfold State.takeKeepalive
  extract_lets x1
  have kx1 : Keep s0 x1.2 := State.epochGate_keep h _ _
  split
  · exact kx1
  · split
    · exact State.onCtx_keep kx1 _ _
    · exact kx1

theorem State.toAlternate_keep (h : Keep s0 s) : ∀ a1 a2 a3, Keep s0 (State.toAlternate s a1 a2 a3) := by
  intro a1 a2 a3
  unfold State.toAlternate
  exact State.setRegAt_keep (State.setRegAt_keep (State.onCtx_keep h _ _) _ _ _) _ _ _

theorem State.takeTakeover_keep (h : Keep s0 s) : ∀ a1, Keep s0 (State.takeTakeover s a1) := by
  intro a1
  unfold State.takeTakeover
  split
  · exact h
  · extract_lets x1 x2 x3 x4
    have kx3 : Keep s0 x3 := by
      unfold x3
      split
      · exact State.raiseCtx_keep (State.setRegAt_keep h _ _ _) _ _ _
      · exact h
    have kx4 : Keep s0 x4 := State.toAlternate_keep kx3 _ _ _
    split
    · exact h
    · exact State.barStep_keep (Keep.foldl (fun _ _ h7 => State.sendPkt_keep h7 _ _) _ kx4) _

theorem State.takeover_keep (h : Keep s0 s) : ∀ a1, Keep s0 (State.takeover s a1) := by
  intro a1
  unfold State.takeover
  split
  · exact h
  · extract_lets x1 x2
    have kx2 : Keep s0 x2 := State.toAlternate_keep (State.setRegAt_keep h _ _ _) _ _ _
    exact State.barStep_keep (State.raiseCtx_keep (State.sendKids_keep kx2 _ _ _ _ _) _ _ _) _

end Sys2Proof.Machine
end

