-- ==== Sys2Proof/Laws/KeepImage.lean ====
section
/-! SUPPORT. What the operations of Image.lean keep: a lemma for each. -/
set_option Elab.async false
namespace Sys2Proof.Machine
open Sys2Proof Sys2Proof.Bits

variable {s0 s : State}

theorem State.exchange_keep (h : Keep s0 s) : ∀ a1 a2, Keep s0 (State.exchange s a1 a2) := by
  intro a1 a2
  unfold State.exchange
  extract_lets x1 x2 x3
  have kx2 : Keep s0 x2 := State.onCtx_keep h _ _
  have kx3 : Keep s0 x3 := State.setRegAt_keep (State.setRegAt_keep (State.setRegAt_keep kx2 _ _ _) _ _ _) _ _ _
  exact State.releaseOld_keep (State.setRegAt_keep kx3 _ _ _) _

theorem State.imageLoadAct_keep (h : Keep s0 s) : ∀ a1, Keep s0 (State.imageLoadAct s a1).2 := by
  intro a1
  unfold State.imageLoadAct
  extract_lets x1 x2 x3 x4 x5 x6 x7 x8 x9 x10 x11 x12
  have kx4 : Keep s0 x4.2 := State.memRead_keep h _ _
  have kx8 : ∀ p1 p2, Keep s0 p1 → Keep s0 (x8 p1 p2) := fun _ _ h15 => State.setRegAt_keep (State.onCtx_keep h15 _ _) _ _ _
  have kx9 : Keep s0 x9.2 := State.memRead_keep kx4 _ _
  have kx11 : Keep s0 x11.2 := State.memWrite_keep kx9 _ _
  split
  · exact Keep.snd h
  · split
    · exact Keep.snd (kx8 _ _ kx4)
    · exact Keep.snd (kx8 _ _ kx11)

theorem State.imageVerified_keep (h : Keep s0 s) : ∀ a1, Keep s0 (State.imageVerified s a1) := by
  intro a1
  unfold State.imageVerified
  split
  · exact h
  · split
    · exact State.exchange_keep h _ _
    · extract_lets x1
      have kx1 : Keep s0 x1 := State.setRegAt_keep (State.onCtx_keep h _ _) _ _ _
      exact State.raiseCtx_keep (State.setRegAt_keep kx1 _ _ _) _ _ _

theorem State.pushAct_keep (h : Keep s0 s) : Keep s0 (State.pushAct s).2 := by
  unfold State.pushAct
  split
  · exact Keep.snd h
  · extract_lets x1 x2 x3 x4
    have kx4 : Keep s0 x4 := State.setReg_keep (State.setReg_keep h _ _) _ _
    exact Keep.snd (State.onRmt_keep (State.onDisp_keep kx4 _) _)

theorem State.takeImage_keep (h : Keep s0 s) : ∀ a1, Keep s0 (State.takeImage s a1) := by
  intro a1
  unfold State.takeImage
  extract_lets x1 x2 x3
  have kx2 : Keep s0 x2.2 := State.memWrite_keep h _ _
  split
  · exact State.sendNeg_keep h _ _ _
  · split
    · exact State.sendNeg_keep h _ _ _
    · split
      · exact State.sendPkt_keep kx2 _ _
      · exact State.sendNeg_keep kx2 _ _ _
      · exact State.sendNeg_keep kx2 _ _ _

end Sys2Proof.Machine
end

