-- ==== Sys2Proof/Laws/KeepObserve.lean ====
section
/-! SUPPORT. What the operations of Observe.lean keep: a lemma for each. -/
set_option Elab.async false
namespace Sys2Proof.Machine
open Sys2Proof Sys2Proof.Bits

variable {s0 s : State}

theorem State.armAct_keep (h : Keep s0 s) : ∀ a1 a2, Keep s0 (State.armAct s a1 a2).2 := by
  intro a1 a2
  unfold State.armAct
  extract_lets x1 x2 x3 x4
  have kx4 : Keep s0 x4 := State.setRegAt_keep (State.setRegAt_keep (State.setRegAt_keep h _ _ _) _ _ _) _ _ _
  split
  · exact Keep.snd h
  · exact Keep.snd (State.onCtx_keep (State.setRegAt_keep kx4 _ _ _) _ _)

theorem State.breakpoint_keep (h : Keep s0 s) : ∀ a1, Keep s0 (State.breakpoint s a1) := by
  intro a1
  unfold State.breakpoint
  split
  · exact h
  · split
    · exact State.breakHit_keep h _ _
    · exact h

theorem State.consumerAct_keep (h : Keep s0 s) : ∀ a1 a2, Keep s0 (State.consumerAct s a1 a2).2 := by
  intro a1 a2
  unfold State.consumerAct
  extract_lets x1
  split
  · exact Keep.snd h
  · split
    · exact Keep.snd h
    · exact Keep.snd (State.setRegAt_keep h _ _ _)

theorem State.drained_keep (h : Keep s0 s) : ∀ a1, Keep s0 (State.drained s a1) := by
  intro a1
  unfold State.drained
  split
  · exact State.onCore_keep h _ _
  · exact h

theorem State.goOn_keep (h : Keep s0 s) : ∀ a1 a2, Keep s0 (State.goOn s a1 a2).2 := by
  intro a1 a2
  unfold State.goOn
  split
  · exact Keep.snd h
  · extract_lets x1
    have kx1 : Keep s0 x1 := State.onCore_keep h _ _
    exact Keep.snd (State.progressed_keep (State.engineProgress_keep kx1 _ _) _)

theorem State.haltAct_keep (h : Keep s0 s) : ∀ a1, Keep s0 (State.haltAct s a1).2 := by
  intro a1
  unfold State.haltAct
  split
  · exact Keep.snd h
  · split
    · exact Keep.snd h
    · split
      · exact Keep.snd (State.onCore_keep h _ _)
      · exact Keep.snd (State.haltCore_keep h _)

theorem State.histOne_keep (h : Keep s0 s) : ∀ a1 a2 a3, Keep s0 (State.histOne s a1 a2 a3) := by
  intro a1 a2 a3
  unfold State.histOne
  extract_lets x1
  exact State.setReg_keep h _ _

theorem State.histKind_keep (h : Keep s0 s) : ∀ a1 a2 a3, Keep s0 (State.histKind s a1 a2 a3) := by
  intro a1 a2 a3
  unfold State.histKind
  exact Keep.foldl (fun _ _ h3 => State.histOne_keep h3 _ _ _) _ h

theorem State.histogramSample_keep (h : Keep s0 s) : Keep s0 (State.histogramSample s) := by
  unfold State.histogramSample
  split
  · exact h
  · extract_lets x1 x2 x3 x4 x5 x6 x7 x8
    have kx3 : Keep s0 x3 := State.histKind_keep h _ _ _
    have kx4 : Keep s0 x4 := State.histKind_keep kx3 _ _ _
    have kx5 : Keep s0 x5 := State.histKind_keep kx4 _ _ _
    have kx6 : Keep s0 x6 := State.histKind_keep kx5 _ _ _
    have kx7 : Keep s0 x7 := State.histKind_keep kx6 _ _ _
    have kx8 : Keep s0 x8 := State.histKind_keep kx7 _ _ _
    exact State.histKind_keep kx8 _ _ _

theorem State.ledgerDrained_keep (h : Keep s0 s) : ∀ a1, Keep s0 (State.ledgerDrained s a1) := by
  intro a1
  unfold State.ledgerDrained
  split
  · exact State.setRegAt_keep h _ _ _
  · exact h

theorem State.ledgerOffAct_keep (h : Keep s0 s) : ∀ a1, Keep s0 (State.ledgerOffAct s a1).2 := by
  intro a1
  unfold State.ledgerOffAct
  extract_lets x1
  have kx1 : Keep s0 x1 := State.setRegAt_keep h _ _ _
  refine Keep.snd ?_
  split
  · exact State.setRegAt_keep kx1 _ _ _
  · exact kx1

theorem State.ledgerOnAct_keep (h : Keep s0 s) : ∀ a1, Keep s0 (State.ledgerOnAct s a1).2 := by
  intro a1
  unfold State.ledgerOnAct
  split
  · exact Keep.snd h
  · extract_lets x1
    have kx1 : Keep s0 x1 := State.setRegAt_keep (State.setRegAt_keep (State.setRegAt_keep h _ _ _) _ _ _) _ _ _
    exact Keep.snd (State.onCtx_keep (State.setRegAt_keep (State.setRegAt_keep kx1 _ _ _) _ _ _) _ _)

theorem State.obsClearAct_keep (h : Keep s0 s) : Keep s0 s.obsClearAct.2 := by
  unfold State.obsClearAct
  exact Keep.snd (Keep.dict h rising_filter_fst)

theorem State.stallCode_keep (h : Keep s0 s) : ∀ a1, Keep s0 (State.stallCode s a1).2 := by
  intro a1
  unfold State.stallCode
  extract_lets x1 x2
  have kx2 : Keep s0 x2.2 := State.pick_keep h _
  split
  · exact Keep.snd h
  · split
    · exact Keep.snd h
    · split
      · exact Keep.snd h
      · exact Keep.snd kx2

theorem State.pcSample_keep (h : Keep s0 s) : ∀ a1, Keep s0 (State.pcSample s a1) := by
  intro a1
  unfold State.pcSample
  split
  · exact h
  · extract_lets x1
    have kx1 : Keep s0 x1.2 := State.stallCode_keep h _
    exact State.traceRecord_keep kx1 _ _ _ _

theorem State.resumeAct_keep (h : Keep s0 s) : ∀ a1, Keep s0 (State.resumeAct s a1).2 := by
  intro a1
  unfold State.resumeAct
  exact State.goOn_keep h _ _

theorem State.stepAct_keep (h : Keep s0 s) : ∀ a1, Keep s0 (State.stepAct s a1).2 := by
  intro a1
  unfold State.stepAct
  exact State.goOn_keep h _ _

theorem State.traceOffAct_keep (h : Keep s0 s) : Keep s0 (State.traceOffAct s).2 := by
  unfold State.traceOffAct
  exact Keep.snd (State.setReg_keep h _ _)

theorem State.traceOnAct_keep (h : Keep s0 s) : Keep s0 (State.traceOnAct s).2 := by
  unfold State.traceOnAct
  split
  · exact Keep.snd h
  · exact Keep.snd (State.setReg_keep (State.setReg_keep (State.setReg_keep h _ _) _ _) _ _)

end Sys2Proof.Machine
end

