-- ==== Sys2Proof/Laws/KeepMatrix.lean ====
section
/-! SUPPORT. What the operations of Matrix.lean keep: a lemma for each. -/
set_option Elab.async false
namespace Sys2Proof.Machine
open Sys2Proof Sys2Proof.Bits

variable {s0 s : State}

theorem State.readOperand_keep (h : Keep s0 s) : ∀ a1 a2 a3 a4 a5 a6, Keep s0 (State.readOperand s a1 a2 a3 a4 a5 a6).2 := by
  intro a1 a2 a3 a4 a5 a6
  unfold State.readOperand
  extract_lets x1 x2 x3 x4
  have kx2 : Keep s0 x2.2 := State.spadRead_keep h _ _ _
  have kx4 : Keep s0 x4.2 := State.spadRead_keep kx2 _ _ _
  split
  · exact Keep.snd kx4
  · exact Keep.snd kx2

theorem CoreState.withBank_canonical {x : CoreState} (h : x.canonical = true) (n : Nat) (b : Bank) (hb : Table.wf 0 b.cells = true) :
    (x.withBank n b).canonical = true := by
  obtain ⟨h1, h2, h3, h4, h5⟩ := CoreState.canonical_parts h
  unfold CoreState.withBank
  split
  · exact CoreState.canonical_of h1 h2 h3 ⟨hb, h5⟩
  · exact CoreState.canonical_of h1 h2 h3 ⟨h4, hb⟩

theorem mmBank_wf (d : MmDesc) (b : Bank) (x y : List (List Nat) × List (List Nat)) (p : Bool) (h : Table.wf 0 b.cells = true) :
    Table.wf 0 (mmBank d b x y p).cells = true := by
  unfold mmBank
  have : ∀ (l : List (Nat × Nat)) (t : Table Word32), Table.wf 0 t = true →
      Table.wf 0 (l.foldl (fun t p => Table.put t 0 p.1 (BitVec.ofNat 32 p.2)) t) = true := by
    intro l
    induction l with
    | nil => exact fun _ ht => ht
    | cons _ _ ih => exact fun _ ht => ih _ (Table.wf_put ht)
  apply this
  split
  · rfl
  · exact h

theorem CoreState.bank_wf {x : CoreState} (h : x.canonical = true) (n : Nat) : Table.wf 0 (x.bank n).cells = true := by
  obtain ⟨_, _, _, h4, h5⟩ := CoreState.canonical_parts h
  unfold CoreState.bank
  split
  · exact h4
  · exact h5

theorem State.matmul_keep (h : Keep s0 s) : ∀ a1, Keep s0 (State.matmul s a1) := by
  intro a1
  unfold State.matmul
  split
  · exact h
  · extract_lets x1 x2 x3 x4 x5 x6
    have kx2 : Keep s0 x2.2 := State.readOperand_keep h _ _ _ _ _ _
    have kx3 : Keep s0 x3.2 := State.readOperand_keep kx2 _ _ _ _ _ _
    split
    · exact h
    · split
      · exact State.taskError_keep h _ _
      · exact State.engineProgress_keep (State.busy_keep (State.onCore_keep kx3 _ _ fun x hx => by
          unfold x6
          exact CoreState.withBank_canonical hx _ _ (mmBank_wf _ _ _ _ _ (CoreState.bank_wf hx _))) _ _ _ _) _ _

theorem State.matmulEnd_keep (h : Keep s0 s) : ∀ a1, Keep s0 (State.matmulEnd s a1) := by
  intro a1
  unfold State.matmulEnd
  split
  · exact h
  · extract_lets x1
    exact State.release_keep (State.descProgress_keep (State.onCore_keep h _ _) _ _) _

end Sys2Proof.Machine
end

