-- ==== Sys2Proof/Laws/KeepPower.lean ====
section
/-! SUPPORT. What the operations of Power.lean keep: a lemma for each. -/
set_option Elab.async false
namespace Sys2Proof.Machine
open Sys2Proof Sys2Proof.Bits

variable {s0 s : State}

theorem State.drawMany_keep (h : Keep s0 s) : ∀ a1, Keep s0 (State.drawMany s a1).2 := by
  intro a1
  induction a1 generalizing s with
  | zero =>
    unfold State.drawMany
    exact Keep.snd h
  | succ n ih =>
    unfold State.drawMany
    extract_lets x1 x2
    have kx1 : Keep s0 x1.2 := State.drawNat_keep h
    have kx2 : Keep s0 x2.2 := ih kx1
    exact Keep.snd kx2

theorem State.coreLoads_keep (h : Keep s0 s) : Keep s0 (State.coreLoads s).2 := by
  unfold State.coreLoads
  extract_lets x1
  have kx1 : Keep s0 x1.2 := State.drawMany_keep h _
  exact Keep.snd kx1

theorem State.forecastWith_keep (h : Keep s0 s) : Keep s0 (State.forecastWith s).2 := by
  unfold State.forecastWith
  extract_lets x1
  have kx1 : Keep s0 x1.2 := State.drawMany_keep h _
  exact Keep.snd kx1

theorem State.queuePmi_keep (h : Keep s0 s) : ∀ a1 a2, Keep s0 (State.queuePmi s a1 a2) := by
  intro a1 a2
  unfold State.queuePmi
  exact State.onPmi_keep h _

theorem State.mayRelease_keep (h : Keep s0 s) : ∀ a1, Keep s0 (State.mayRelease s a1).2 := by
  intro a1
  unfold State.mayRelease
  split
  · exact Keep.snd (State.onPwr_keep h _)
  · split
    · exact Keep.snd h
    · extract_lets x1
      have kx1 : Keep s0 x1.2 := State.forecastWith_keep h
      split
      · exact Keep.snd kx1
      · split
        · exact Keep.snd kx1
        · exact Keep.snd (State.onPwr_keep (State.queuePmi_keep kx1 _ _) _)

theorem State.wakeRelease_keep (h : Keep s0 s) : ∀ a1, Keep s0 (State.wakeRelease s a1) := by
  intro a1
  unfold State.wakeRelease
  split
  · exact h
  · extract_lets x1
    have kx1 : Keep s0 x1.2 := State.mayRelease_keep h _
    split
    · exact State.bump_keep (State.onPwr_keep kx1 _) _
    · exact kx1

theorem State.rampStart_keep (h : Keep s0 s) : ∀ a1, Keep s0 (State.rampStart s a1) := by
  intro a1
  unfold State.rampStart
  extract_lets x1 x2
  have kx1 : Keep s0 x1 := State.onPwr_keep h _
  have kx2 : Keep s0 x2.2 := State.mayRelease_keep kx1 _
  split
  · exact kx1
  · split
    · exact State.onPwr_keep kx2 _
    · exact kx2

theorem State.endPmi_keep (h : Keep s0 s) : ∀ a1, Keep s0 (State.endPmi s a1) := by
  intro a1
  unfold State.endPmi
  extract_lets x1 x2
  have kx1 : Keep s0 x1 := State.onPmi_keep h _
  have kx2 : Keep s0 x2 := State.onPwr_keep kx1 _
  split
  · exact kx1
  · split
    · exact kx2
    · exact State.wakeRelease_keep kx2 _
    · exact State.rampStart_keep kx2 _

theorem State.floorTimer_keep (h : Keep s0 s) : Keep s0 (State.floorTimer s) := by
  unfold State.floorTimer
  extract_lets x1
  split
  · exact State.queuePmi_keep h _ _
  · exact h

theorem State.staticPower_keep (h : Keep s0 s) : Keep s0 (State.staticPower s).2 := by
  unfold State.staticPower
  split
  · exact Keep.snd h
  · exact State.drawNat_keep h

theorem State.setLevel_keep (h : Keep s0 s) : ∀ a1 a2, Keep s0 (State.setLevel s a1 a2) := by
  intro a1 a2
  unfold State.setLevel
  exact State.setRegAt_keep h _ _ _

theorem State.throttleAll_keep (h : Keep s0 s) : Keep s0 (State.throttleAll s) := by
  unfold State.throttleAll
  exact Keep.foldl (fun _ _ h3 => State.setLevel_keep h3 _ _) _ h

theorem State.lowerLevels_keep (h : Keep s0 s) : ∀ a1 a2, Keep s0 (State.lowerLevels s a1 a2) := by
  intro a1 a2
  unfold State.lowerLevels
  extract_lets x1 x2
  refine Keep.foldl (fun _ _ h5 => ?_) _ h
  split
  · exact h5
  · exact State.setLevel_keep h5 _ _

theorem State.raiseLevels_keep (h : Keep s0 s) : Keep s0 (State.raiseLevels s) := by
  unfold State.raiseLevels
  refine Keep.foldl (fun _ _ h3 => ?_) _ h
  split
  · exact State.setLevel_keep h3 _ _
  · exact h3

theorem State.latchBudget_keep (h : Keep s0 s) : Keep s0 (State.latchBudget s) := by
  unfold State.latchBudget
  extract_lets x1
  exact State.onPwr_keep h _

theorem State.governorInterval_keep (h : Keep s0 s) : Keep s0 (State.governorInterval s) := by
  unfold State.governorInterval
  split
  · exact h
  · extract_lets x1 x2 x3 x4 x5 x6 x7 x8 x9 x10 x11 x12 x13
    have kx1 : Keep s0 x1.2 := State.coreLoads_keep h
    have kx2 : Keep s0 x2.2 := State.staticPower_keep kx1
    have kx3 : Keep s0 x3.2 := State.drawNat_keep kx2
    have kx5 : Keep s0 x5 := kx3
    have kx8 : Keep s0 x8 := State.setReg_keep (State.onPwr_keep kx5 _) _ _
    have kx10 : Keep s0 x10 := by
      unfold x10
      split
      · exact State.bump_keep kx8 _
      · exact kx8
    have kx11 : Keep s0 x11 := State.onPwr_keep kx10 _
    have kx12 : Keep s0 x12 := by
      unfold x12
      split
      · exact State.throttleAll_keep kx11
      · split
        · exact State.lowerLevels_keep kx11 _ _
        · split
          · exact State.onPwr_keep (State.raiseLevels_keep kx11) _
          · exact kx11
    have kx13 : Keep s0 x13 := by
      unfold x13
      split
      · exact State.raise_keep (State.onPwr_keep kx12 _) _ _ _ _
      · exact kx12
    exact State.latchBudget_keep kx13

theorem State.mmGate_keep (h : Keep s0 s) : ∀ a1, Keep s0 (State.mmGate s a1) := by
  intro a1
  unfold State.mmGate
  split
  · exact State.onCore_keep h _ _
  · exact h

theorem State.pgoodFall_keep (h : Keep s0 s) : Keep s0 (State.pgoodFall s) := by
  unfold State.pgoodFall
  split
  · exact h
  · extract_lets x1
    have kx1 : Keep s0 x1 := State.onPmi_keep h _
    split
    · exact kx1
    · exact State.throttleAll_keep (State.raise_keep kx1 _ _ _ _)

theorem State.pmiAck_keep (h : Keep s0 s) : Keep s0 (State.pmiAck s) := by
  unfold State.pmiAck
  split
  · exact h
  · exact State.endPmi_keep h _

theorem State.pmiNoack_keep (h : Keep s0 s) : Keep s0 (State.pmiNoack s) := by
  unfold State.pmiNoack
  split
  · exact h
  · exact State.endPmi_keep (State.raise_keep h _ _ _ _) _

theorem State.pmiRequest_keep (h : Keep s0 s) : Keep s0 (State.pmiRequest s) := by
  unfold State.pmiRequest
  split
  · exact h
  · split
    · exact h
    · extract_lets x1
      have kx1 : Keep s0 x1 := State.onPmi_keep h _
      split
      · exact State.onPwr_keep kx1 _
      · exact kx1

theorem State.rampComplete_keep (h : Keep s0 s) : ∀ a1, Keep s0 (State.rampComplete s a1) := by
  intro a1
  unfold State.rampComplete
  split
  · exact h
  · exact State.matmul_keep (State.onCore_keep (State.onPwr_keep h _) _ _) _

theorem State.sleepExpire_keep (h : Keep s0 s) : ∀ a1, Keep s0 (State.sleepExpire s a1) := by
  intro a1
  unfold State.sleepExpire
  split
  · exact h
  · extract_lets x1
    have kx1 : Keep s0 x1 := State.onFar_keep (State.flushFar_keep h _) _
    exact State.setRegAt_keep (State.onCore_keep kx1 _ _ fun _ hx => by
      obtain ⟨a, b, _, _⟩ := CoreState.canonical_parts hx
      exact CoreState.canonical_of a b rfl ⟨rfl, rfl⟩) _ _ _

theorem State.vidAct_keep (h : Keep s0 s) : ∀ a1, Keep s0 (State.vidAct s a1).2 := by
  intro a1
  unfold State.vidAct
  exact Keep.snd (State.queuePmi_keep h _ _)

theorem State.vrAlertEnd_keep (h : Keep s0 s) : Keep s0 (State.vrAlertEnd s) := by
  unfold State.vrAlertEnd
  exact State.onPmi_keep h _

theorem State.vrAlertFall_keep (h : Keep s0 s) : Keep s0 (State.vrAlertFall s) := by
  unfold State.vrAlertFall
  split
  · exact State.onPmi_keep h _
  · exact State.raise_keep (State.onPmi_keep h _) _ _ _ _

theorem State.wakeComplete_keep (h : Keep s0 s) : ∀ a1, Keep s0 (State.wakeComplete s a1) := by
  intro a1
  unfold State.wakeComplete
  split
  · exact h
  · extract_lets x1 x2
    have kx2 : Keep s0 x2 := State.onPwr_keep (State.setLevel_keep h _ _) _
    exact State.advanceEpoch_keep (State.setRegAt_keep kx2 _ _ _) _

theorem State.wakeLate_keep (h : Keep s0 s) : ∀ a1 a2, Keep s0 (State.wakeLate s a1 a2) := by
  intro a1 a2
  unfold State.wakeLate
  split
  · exact State.raise_keep h _ _ _ _
  · exact h

theorem State.wakeRefill_keep (h : Keep s0 s) : Keep s0 (State.wakeRefill s) := by
  unfold State.wakeRefill
  split
  · exact h
  · exact State.onPwr_keep h _

end Sys2Proof.Machine
end

