-- ==== Sys2Proof/Laws/KeepDictionary.lean ====
section
/-! SUPPORT. What the operations of Dictionary.lean keep: a lemma for each. -/
set_option Elab.async false
namespace Sys2Proof.Machine
open Sys2Proof Sys2Proof.Bits

variable {s0 s : State}

theorem State.answered_keep (h : Keep s0 s) : ∀ a1, Keep s0 (State.answered s a1) := by
  intro a1
  unfold State.answered
  exact State.onOnt_keep h _

theorem State.blkMove_keep (h : Keep s0 s) : ∀ a1 a2 a3, Keep s0 (State.blkMove s a1 a2 a3).2 := by
  intro a1 a2 a3
  unfold State.blkMove
  split
  · exact Keep.snd h
  · exact Keep.snd (State.onFlt_keep (Keep.upd h))

theorem State.portsAct_keep (h : Keep s0 s) : ∀ a1, Keep s0 (State.portsAct s a1).2 := by
  intro a1
  unfold State.portsAct
  refine Keep.snd ?_
  refine Keep.foldl (fun _ _ h3 => ?_) _ h
  split
  · exact State.portOn_keep h3 _
  · exact State.portOff_keep h3 _

theorem State.capAct_keep (h : Keep s0 s) : ∀ a1 a2, Keep s0 (State.capAct s a1 a2).2 := by
  intro a1 a2
  unfold State.capAct
  extract_lets x1
  have kx1 : Keep s0 x1 := State.setRegAt_keep h _ _ _
  refine Keep.snd ?_
  split
  · exact State.setLevel_keep kx1 _ _
  · exact kx1

theorem State.revokeAct_keep (h : Keep s0 s) : ∀ a1, Keep s0 (s.revokeAct a1).2 := by
  intro a1
  unfold State.revokeAct
  extract_lets live
  split
  · exact h
  · refine Keep.snd (h.step (t := { s with revoked := setBit s.revoked a1 }) rfl rfl rfl (Nat.le_refl _) (fun k e => ?_)
      (fun e => e) (fun e => e) fun e => ?_)
    · show (setBit s.revoked a1).testBit k = true
      unfold setBit
      rw [Nat.testBit_or, e, Bool.true_or]
    · rw [State.sound_iff] at e ⊢
      exact { e with }

theorem State.unlockAct_keep (h : Keep s0 s) : ∀ a1 a2, Keep s0 (State.unlockAct s a1 a2).2 := by
  intro a1 a2
  unfold State.unlockAct
  extract_lets x1
  split
  · exact Keep.snd h
  · split
    · exact Keep.snd (State.onOnt_keep h _)
    · exact Keep.snd (State.onOnt_keep (State.bump_keep h _) _)

theorem State.lockAct_keep (h : Keep s0 s) : ∀ a1, Keep s0 (State.lockAct s a1).2 := by
  intro a1
  unfold State.lockAct
  exact Keep.snd (State.onOnt_keep h _)

theorem State.blockWrite_keep (h : Keep s0 s) : ∀ a1 a2 a3 a4 a5, OptKeep s0 (s.blockWrite a1 a2 a3 a4 a5) := by
  intro a1 a2 a3 a4 a5
  unfold State.blockWrite
  refine OptKeep.ite (OptKeep.some ?_) ?_
  · exact State.portsAct_keep h _
  refine OptKeep.ite (OptKeep.some ?_) ?_
  · exact State.cadenceSetAct_keep h _
  refine OptKeep.ite (OptKeep.some ?_) ?_
  · exact State.capAct_keep h _ _
  refine OptKeep.ite (OptKeep.some ?_) ?_
  · exact State.vidAct_keep h _
  refine OptKeep.ite (OptKeep.some ?_) ?_
  · exact State.revokeAct_keep h _
  refine OptKeep.ite (OptKeep.some ?_) ?_
  · exact State.unlockAct_keep h _ _
  refine OptKeep.ite (OptKeep.some ?_) ?_
  · exact State.lockAct_keep h _
  refine OptKeep.ite (OptKeep.some ?_) ?_
  · exact State.obsClearAct_keep h
  refine OptKeep.ite (OptKeep.some ?_) ?_
  · split
    · exact State.traceOnAct_keep h
    · exact State.traceOffAct_keep h
  refine OptKeep.ite (OptKeep.some ?_) ?_
  · exact State.haltAct_keep h _
  refine OptKeep.ite (OptKeep.some ?_) ?_
  · exact State.resumeAct_keep h _
  refine OptKeep.ite (OptKeep.some ?_) ?_
  · exact State.stepAct_keep h _
  exact OptKeep.none

theorem State.performWrite_keep (h : Keep s0 s) : ∀ a1 a2 a3 a4, (∀ t40, Keep s0 t40 → Keep s0 (a4 t40).2) → Keep s0 (State.performWrite s a1 a2 a3 a4).2 := by
  intro a1 a2 a3 a4 g0
  unfold State.performWrite
  split
  · exact Keep.snd h
  · split
    · exact Keep.snd h
    · split
      · exact Keep.snd h
      · exact g0 _ h

theorem State.command_keep (h : Keep s0 s) : ∀ a1 a2 a3 a4 a5, (∀ t50, Keep s0 t50 → Keep s0 (a5 t50).2) → Keep s0 (State.command s a1 a2 a3 a4 a5) := by
  intro a1 a2 a3 a4 a5 g0
  unfold State.command
  split
  · exact h
  · split
    · exact State.answered_keep h _
    · split
      · extract_lets x1
        have kx1 : Keep s0 x1.2 := State.performWrite_keep h _ _ _ _ (fun _ h3 => g0 _ h3)
        exact State.answered_keep kx1 _
      · exact State.answered_keep h _

theorem State.configureAct_keep (h : Keep s0 s) : Keep s0 (State.configureAct s).2 := by
  unfold State.configureAct
  exact State.blkMove_keep h _ _ _

theorem State.enableAct_keep (h : Keep s0 s) : ∀ a1, Keep s0 (State.enableAct s a1).2 := by
  intro a1
  unfold State.enableAct
  split
  · exact Keep.snd h
  · exact Keep.snd (State.retrain_keep (State.setRegAt_keep h _ _ _) _)

theorem State.disableAct_keep (h : Keep s0 s) : ∀ a1, Keep s0 (State.disableAct s a1).2 := by
  intro a1
  unfold State.disableAct
  exact Keep.snd (State.disableLink_keep (State.setRegAt_keep h _ _ _) _)

theorem State.ptRootAct_keep (h : Keep s0 s) : ∀ a1 a2, Keep s0 (State.ptRootAct s a1 a2).2 := by
  intro a1 a2
  unfold State.ptRootAct
  exact Keep.snd (State.invalidate_keep (State.setRegAt_keep h _ _ _) _ _ _)

theorem State.ctxWrite_keep (h : Keep s0 s) : ∀ a1 a2 a3 a4, OptKeep s0 (s.ctxWrite a1 a2 a3 a4) := by
  intro a1 a2 a3 a4
  unfold State.ctxWrite
  refine OptKeep.ite (OptKeep.some ?_) ?_
  · split
    · exact State.enableAct_keep h _
    · exact State.disableAct_keep h _
  refine OptKeep.ite (OptKeep.some ?_) ?_
  · exact Keep.snd (State.retrain_keep h _)
  refine OptKeep.ite (OptKeep.some ?_) ?_
  · exact State.routeLoadAct_keep h
  refine OptKeep.ite (OptKeep.some ?_) ?_
  · exact State.routeDrainAct_keep h _ _
  refine OptKeep.ite (OptKeep.some ?_) ?_
  · exact State.bindAct_keep h _
  refine OptKeep.ite (OptKeep.some ?_) ?_
  · exact State.lportAct_keep h _ _
  refine OptKeep.ite (OptKeep.some ?_) ?_
  · exact State.ptRootAct_keep h _ _
  refine OptKeep.ite (OptKeep.some ?_) ?_
  · exact State.memZeroGoAct_keep h _
  refine OptKeep.ite (OptKeep.some ?_) ?_
  · exact State.ctxOpenAct_keep h _
  refine OptKeep.ite (OptKeep.some ?_) ?_
  · exact State.ctxCloseAct_keep h _
  refine OptKeep.ite (OptKeep.some ?_) ?_
  · exact State.ctxResumeAct_keep h _
  refine OptKeep.ite (OptKeep.some ?_) ?_
  · exact State.ctxCoresAct_keep h _ _
  refine OptKeep.ite (OptKeep.some ?_) ?_
  · exact State.imageLoadAct_keep h _
  refine OptKeep.ite (OptKeep.some ?_) ?_
  · exact State.pushAct_keep h
  refine OptKeep.ite (OptKeep.some ?_) ?_
  · split
    · exact State.attEnableAct_keep h _
    · exact State.attDisableAct_keep h _
  refine OptKeep.ite (OptKeep.some ?_) ?_
  · split
    · exact State.ledgerOnAct_keep h _
    · exact State.ledgerOffAct_keep h _
  refine OptKeep.ite (OptKeep.some ?_) ?_
  · exact State.consumerAct_keep h _ _
  refine OptKeep.ite (OptKeep.some ?_) ?_
  · exact State.armAct_keep h _ _
  refine OptKeep.ite (OptKeep.some ?_) ?_
  · exact State.bcastAct_keep h _ _ _
  refine OptKeep.ite (OptKeep.some ?_) ?_
  · exact State.bcastAct_keep h _ _ _
  exact OptKeep.none

theorem State.drainAct_keep (h : Keep s0 s) : Keep s0 (State.drainAct s).2 := by
  unfold State.drainAct
  exact State.blkMove_keep h _ _ _

theorem State.drainComplete_keep (h : Keep s0 s) : Keep s0 (State.drainComplete s) := by
  unfold State.drainComplete
  split
  · exact h
  · exact State.onFlt_keep (Keep.upd h)

theorem State.drainTimeout_keep (h : Keep s0 s) : Keep s0 (State.drainTimeout s) := by
  unfold State.drainTimeout
  split
  · exact h
  · extract_lets x1
    exact State.drainComplete_keep (State.onFlt_keep (Keep.foldl (fun _ _ h4 => State.startCtxReset_keep h4 _ _ _) _ h))

theorem State.readyAct_keep (h : Keep s0 s) : Keep s0 (State.readyAct s).2 := by
  unfold State.readyAct
  exact State.blkMove_keep h _ _ _

theorem State.runAct_keep (h : Keep s0 s) : Keep s0 (State.runAct s).2 := by
  unfold State.runAct
  exact State.blkMove_keep h _ _ _

theorem State.quarantineAct_keep (h : Keep s0 s) : Keep s0 (State.quarantineAct s).2 := by
  unfold State.quarantineAct
  exact State.blkMove_keep h _ _ _

theorem State.faultWrite_keep (h : Keep s0 s) : ∀ a1 a2, OptKeep s0 (s.faultWrite a1 a2) := by
  intro a1 a2
  unfold State.faultWrite
  refine OptKeep.ite (OptKeep.some ?_) ?_
  · exact Keep.snd (State.onFlt_keep h)
  refine OptKeep.ite (OptKeep.some ?_) ?_
  · exact State.clearAllAct_keep h
  refine OptKeep.ite (OptKeep.some ?_) ?_
  · exact State.blockResetAct_keep h
  refine OptKeep.ite (OptKeep.some ?_) ?_
  · exact Keep.snd (State.enterKickstand_keep h)
  refine OptKeep.ite (OptKeep.some ?_) ?_
  · exact State.kickExitAct_keep h
  refine OptKeep.ite (OptKeep.some ?_) ?_
  · exact Keep.snd (State.powerCycle_keep h _)
  refine OptKeep.ite (OptKeep.some ?_) ?_
  · exact Keep.snd (Keep.fltLe h (by simp) (Nat.le_refl _))
  refine OptKeep.ite (OptKeep.some ?_) ?_
  · exact State.srcClearAct_keep h _
  refine OptKeep.ite (OptKeep.some ?_) ?_
  · exact State.rstCtxAct_keep h _
  refine OptKeep.ite (OptKeep.some ?_) ?_
  · exact State.readyAct_keep h
  refine OptKeep.ite (OptKeep.some ?_) ?_
  · exact State.runAct_keep h
  refine OptKeep.ite (OptKeep.some ?_) ?_
  · exact State.drainAct_keep h
  refine OptKeep.ite (OptKeep.some ?_) ?_
  · exact State.configureAct_keep h
  refine OptKeep.ite (OptKeep.some ?_) ?_
  · exact State.quarantineAct_keep h
  exact OptKeep.none

theorem State.lockoutOver_keep (h : Keep s0 s) : ∀ a1, Keep s0 (State.lockoutOver s a1) := by
  intro a1
  unfold State.lockoutOver
  exact State.onOnt_keep h _

theorem State.newChallenge_keep (h : Keep s0 s) : ∀ a1, Keep s0 (State.newChallenge s a1).2 := by
  intro a1
  unfold State.newChallenge
  extract_lets x1
  have kx1 : Keep s0 x1.2 := State.drawBytes_keep _ h
  exact Keep.snd (State.onOnt_keep kx1 _)

theorem State.readEntry_keep (h : Keep s0 s) : ∀ a1 a2 a3, Keep s0 (State.readEntry s a1 a2 a3).2 := by
  intro a1 a2 a3
  unfold State.readEntry
  extract_lets x1 x2 x3
  have kx2 : Keep s0 x2.2 := State.newChallenge_keep h _
  split
  · exact Keep.snd h
  · split
    · exact Keep.snd kx2
    · split
      · exact Keep.snd h
      · exact Keep.snd h

theorem State.serveRead_keep (h : Keep s0 s) : ∀ a1 a2 a3 a4 a5 a6, Keep s0 (State.serveRead s a1 a2 a3 a4 a5 a6).2 := by
  intro a1 a2 a3 a4 a5 a6
  unfold State.serveRead
  split
  · exact Keep.snd h
  · split
    · exact Keep.snd h
    · extract_lets x1
      have kx1 : Keep s0 x1.2 := State.readEntry_keep h _ _ _
      exact Keep.snd kx1

theorem State.writeAct_keep (h : Keep s0 s) : ∀ a1 a2 a3 a4 a5, Keep s0 (s.writeAct a1 a2 a3 a4 a5).2 := by
  intro a1 a2 a3 a4 a5
  exact OptKeep.getD (OptKeep.orElse (State.faultWrite_keep h _ _)
    (OptKeep.orElse (State.ctxWrite_keep h _ _ _ _) (State.blockWrite_keep h _ _ _ _ _))) (State.setRegAt_keep h _ _ _)

theorem State.serveWrite_keep (h : Keep s0 s) : ∀ a1 a2 a3 a4 a5 a6, Keep s0 (State.serveWrite s a1 a2 a3 a4 a5 a6).2 := by
  intro a1 a2 a3 a4 a5 a6
  unfold State.serveWrite
  split
  · exact Keep.snd h
  · split
    · exact Keep.snd h
    · extract_lets x1
      exact State.performWrite_keep h _ _ _ _ (fun _ h3 => State.writeAct_keep h3 _ _ _ _ _)

end Sys2Proof.Machine
end

