-- ==== Sys2Proof/Laws/KeepDma.lean ====
section
/-! SUPPORT. What the operations of Dma.lean keep: a lemma for each. -/
set_option Elab.async false
namespace Sys2Proof.Machine
open Sys2Proof Sys2Proof.Bits

variable {s0 s : State}

theorem State.countOpen_keep (h : Keep s0 s) : ∀ a1 a2 a3 a4 a5 a6, Keep s0 (State.countOpen s a1 a2 a3 a4 a5 a6) := by
  intro a1 a2 a3 a4 a5 a6
  unfold State.countOpen
  split
  · exact h
  · exact State.countRange_keep h _ _ _ _ _

theorem State.openRange_keep (h : Keep s0 s) : ∀ a1 a2 a3 a4 a5 a6, Keep s0 (State.openRange s a1 a2 a3 a4 a5 a6).2 := by
  intro a1 a2 a3 a4 a5 a6
  unfold State.openRange
  split
  · exact Keep.snd h
  · exact State.translateParts_keep h _ _ _ _ _ _

theorem State.runCopy_keep (h : Keep s0 s) : ∀ a1 a2 a3, Keep s0 (State.runCopy s a1 a2 a3) := by
  intro a1 a2 a3
  unfold State.runCopy
  extract_lets x1 x2 x3 x4
  have kx2 : Keep s0 x2.2 := State.openRange_keep h _ _ _ _ _ _
  have kx3 : Keep s0 x3.2 := State.openRange_keep kx2 _ _ _ _ _ _
  have kx4 : Keep s0 x4 := State.countOpen_keep (State.countOpen_keep kx3 _ _ _ _ _ _) _ _ _ _ _ _
  split
  · exact State.xltRaise_keep kx2 _ _ _ _ _
  · split
    · exact State.xltRaise_keep kx3 _ _ _ _ _
    · extract_lets x5 x6 x7
      have kx5 : Keep s0 x5.2 := by
        unfold x5
        split
        · exact State.spadRead_keep kx4 _ _ _
        · exact State.readPieces_keep kx4 _
      have kx6 : Keep s0 x6.2 := by
        unfold x6
        split
        · exact Keep.snd (State.spadWrite_keep kx5 _ _ _)
        · exact State.writePieces_keep kx5 _ _
      exact State.busy_keep (State.onCore_keep (State.popQueue_keep kx6 _ _) _ _) _ _ _ _

theorem State.localDesc_keep (h : Keep s0 s) : ∀ a1 a2, Keep s0 (State.localDesc s a1 a2) := by
  intro a1 a2
  unfold State.localDesc
  split
  · exact h
  · extract_lets x1 x2
    split
    · exact h
    · split
      · exact State.taskError_keep h _ _
      · split
        · exact State.onCore_keep (State.popQueue_keep (State.spadUnwrite_keep h _ _ _) _ _) _ _
        · exact State.runCopy_keep h _ _ _

theorem State.localEnd_keep (h : Keep s0 s) : ∀ a1 a2, Keep s0 (State.localEnd s a1 a2) := by
  intro a1 a2
  unfold State.localEnd
  split
  · exact h
  · extract_lets x1 x2
    have kx1 : Keep s0 x1 := State.descProgress_keep (State.onCore_keep h _ _) _ _
    have kx2 : Keep s0 x2 := by
      unfold x2
      split
      · exact State.advance_keep kx1 _ _
      · exact kx1
    split
    · exact State.taskError_keep kx1 _ _
    · exact State.release_keep kx2 _

end Sys2Proof.Machine
end

