-- ==== Sys2Proof/Laws/KeepOntan.lean ====
section
/-! SUPPORT. What the operations of Ontan.lean keep: a lemma for each. -/
set_option Elab.async false
namespace Sys2Proof.Machine
open Sys2Proof Sys2Proof.Bits

variable {s0 s : State}

theorem State.plainAnswer_keep (h : Keep s0 s) : ∀ a1 a2, Keep s0 (State.plainAnswer s a1 a2).2 := by
  intro a1 a2
  unfold State.plainAnswer
  extract_lets x1
  have kx1 : Keep s0 x1.2 := State.drawBytes_keep _ h
  exact Keep.snd kx1

theorem State.executeMsg_keep (h : Keep s0 s) : ∀ a1 a2, Keep s0 (State.executeMsg s a1 a2).2 := by
  intro a1 a2
  unfold State.executeMsg
  extract_lets x1 x2 x3 x4 x5 x6
  have kx4 : Keep s0 x4.2 := State.serveRead_keep h _ _ _ _ _ _
  have kx5 : Keep s0 x5 := State.answered_keep kx4 _
  have kx6 : Keep s0 x6.2 := State.serveWrite_keep h _ _ _ _ _ _
  split
  · split
    · exact Keep.snd kx5
    · exact State.plainAnswer_keep kx5 _ _
  · exact State.plainAnswer_keep (State.answered_keep kx6 _) _ _

theorem State.answerMsg.fresh_keep (h : Keep s0 s) : ∀ a1 a2 a3, Keep s0 (State.answerMsg.fresh s a1 a2 a3).2 := by
  intro a1 a2 a3
  unfold State.answerMsg.fresh
  extract_lets x1
  have kx1 : Keep s0 x1.2 := by
    unfold x1
    split
    · exact State.executeMsg_keep h _ _
    · exact State.plainAnswer_keep (State.answered_keep h _) _ _
  split
  · exact kx1
  · exact Keep.snd (State.onOnt_keep kx1 _)

theorem State.answerMsg_keep (h : Keep s0 s) : ∀ a1 a2 a3, Keep s0 (State.answerMsg s a1 a2 a3).2 := by
  intro a1 a2 a3
  unfold State.answerMsg
  split
  · split
    · exact Keep.snd h
    · exact State.answerMsg.fresh_keep h _ _ _
  · exact State.answerMsg.fresh_keep h _ _ _

theorem State.badFrame_keep (h : Keep s0 s) : Keep s0 (State.badFrame s) := by
  unfold State.badFrame
  exact State.bump_keep h _

theorem State.ontanRead_keep (h : Keep s0 s) : ∀ a1 a2 a3 a4 a5, Keep s0 (State.ontanRead s a1 a2 a3 a4 a5) := by
  intro a1 a2 a3 a4 a5
  unfold State.ontanRead
  split
  · exact h
  · extract_lets x1
    have kx1 : Keep s0 x1.2 := State.serveRead_keep h _ _ _ _ _ _
    exact State.onOnt_keep (State.answered_keep kx1 _) _

theorem State.challengeRead_keep (h : Keep s0 s) : ∀ a1, Keep s0 (State.challengeRead s a1) := by
  intro a1
  unfold State.challengeRead
  exact State.ontanRead_keep h _ _ _ _ _

theorem State.eventRepeat_keep (h : Keep s0 s) : Keep s0 (State.eventRepeat s) := by
  unfold State.eventRepeat
  split
  · exact h
  · exact State.sendEvent_keep h

theorem State.i3cRead_keep (h : Keep s0 s) : Keep s0 (State.i3cRead s) := by
  unfold State.i3cRead
  split
  · exact h
  · split
    · exact h
    · exact State.onOnt_keep h _

theorem State.sendAnswer_keep (h : Keep s0 s) : ∀ a1 a2 a3, Keep s0 (State.sendAnswer s a1 a2 a3) := by
  intro a1 a2 a3
  unfold State.sendAnswer
  extract_lets x1
  have kx1 : Keep s0 x1 := State.onOnt_keep h _
  split
  · exact kx1
  · exact State.onOnt_keep kx1 _
  · exact State.sendPkt_keep kx1 _ _

theorem State.relay_keep (h : Keep s0 s) : ∀ a1 a2 a3 a4, Keep s0 (State.relay s a1 a2 a3 a4) := by
  intro a1 a2 a3 a4
  unfold State.relay
  extract_lets x1 x2
  have kx1 : ∀ p1, Keep s0 (x1 p1) := by
    intro t3
    unfold x1
    extract_lets x4
    have kx4 : Keep s0 x4.2 := State.plainAnswer_keep (State.answered_keep h _) _ _
    exact State.sendAnswer_keep kx4 _ _ _
  split
  · exact kx1 _
  · split
    · exact kx1 _
    · exact State.sendPkt_keep (State.bump_keep (State.onOnt_keep h _) _) _ _

theorem State.sideMsg_keep (h : Keep s0 s) : ∀ a1 a2 a3, Keep s0 (State.sideMsg s a1 a2 a3) := by
  intro a1 a2 a3
  unfold State.sideMsg
  split
  · exact State.badFrame_keep h
  · split
    · exact h
    · split
      · extract_lets x1
        have kx1 : Keep s0 x1.2 := State.answerMsg_keep h _ _ _
        exact State.sendAnswer_keep kx1 _ _ _
      · exact State.relay_keep h _ _ _ _

theorem State.i3cWrite_keep (h : Keep s0 s) : ∀ a1, Keep s0 (State.i3cWrite s a1) := by
  intro a1
  unfold State.i3cWrite
  split
  · exact h
  · exact State.sideMsg_keep (State.onOnt_keep h _) _ _ _

theorem State.ontanWrite_keep (h : Keep s0 s) : ∀ a1 a2 a3 a4 a5 a6 a7, Keep s0 (State.ontanWrite s a1 a2 a3 a4 a5 a6 a7) := by
  intro a1 a2 a3 a4 a5 a6 a7
  unfold State.ontanWrite
  split
  · exact h
  · extract_lets x1
    have kx1 : Keep s0 x1.2 := State.serveWrite_keep h _ _ _ _ _ _
    exact State.answered_keep kx1 _

theorem State.lockWrite_keep (h : Keep s0 s) : ∀ a1, Keep s0 (State.lockWrite s a1) := by
  intro a1
  unfold State.lockWrite
  exact State.ontanWrite_keep h _ _ _ _ _ _ _

theorem State.miiFrame_keep (h : Keep s0 s) : ∀ a1, Keep s0 (State.miiFrame s a1) := by
  intro a1
  unfold State.miiFrame
  extract_lets x1 x2 x3 x4 x5 x6
  split
  · exact h
  · split
    · exact h
    · split
      · exact State.bump_keep h _
      · split
        · exact State.badFrame_keep h
        · split
          · exact State.badFrame_keep h
          · exact State.sideMsg_keep h _ _ _

theorem State.relayTimeout_keep (h : Keep s0 s) : ∀ a1, Keep s0 (State.relayTimeout s a1) := by
  intro a1
  unfold State.relayTimeout
  split
  · exact h
  · extract_lets x1
    have kx1 : Keep s0 x1 := State.onOnt_keep h _
    split
    · exact kx1
    · extract_lets x2
      have kx2 : Keep s0 x2.2 := State.plainAnswer_keep kx1 _ _
      exact State.sendAnswer_keep kx2 _ _ _

theorem State.takeOntan_keep (h : Keep s0 s) : ∀ a1, Keep s0 (State.takeOntan s a1) := by
  intro a1
  unfold State.takeOntan
  split
  · exact State.badFrame_keep h
  · split
    · split
      · extract_lets x1
        have kx1 : Keep s0 x1.2 := State.answerMsg_keep h _ _ _
        exact State.sendAnswer_keep kx1 _ _ _
      · extract_lets x2
        have kx2 : Keep s0 x2.2 := State.plainAnswer_keep (State.answered_keep h _) _ _
        exact State.sendAnswer_keep kx2 _ _ _
    · split
      · split
        · exact h
        · exact State.sendAnswer_keep (State.onOnt_keep h _) _ _ _
      · exact h

theorem State.unlockWrite_keep (h : Keep s0 s) : ∀ a1 a2, Keep s0 (State.unlockWrite s a1 a2) := by
  intro a1 a2
  unfold State.unlockWrite
  exact State.ontanWrite_keep h _ _ _ _ _ _ _

end Sys2Proof.Machine
end

