-- ==== Sys2Proof/Laws/KeepSettle.lean ====
section
/-! SUPPORT. What the operations of Settle.lean keep: a lemma for each. -/
set_option Elab.async false
namespace Sys2Proof.Machine
open Sys2Proof Sys2Proof.Bits

variable {s0 s : State}

theorem State.barriers_keep (h : Keep s0 s) : Keep s0 (State.barriers s) := by
  unfold State.barriers
  exact Keep.foldl (fun _ _ h3 => State.barStep_keep h3 _) _ h

theorem State.takeNegative_keep (h : Keep s0 s) : ∀ a1, Keep s0 (State.takeNegative s a1) := by
  intro a1
  unfold State.takeNegative
  split
  · exact State.collFailed_keep h _ _ _ _
  · exact State.takeNeg_keep h _

theorem State.takeExp_keep (h : Keep s0 s) : ∀ a1, Keep s0 (State.takeExp s a1) := by
  intro a1
  unfold State.takeExp
  split
  · exact State.takeCollGrant_keep h _
  · exact State.takeExpDown_keep h _
  · exact State.takeDone_keep h _
  · exact State.takeExpUp_keep h _

theorem State.takeBarrier_keep (h : Keep s0 s) : ∀ a1, Keep s0 (State.takeBarrier s a1) := by
  intro a1
  unfold State.takeBarrier
  split
  · exact State.takeArrive_keep h _
  · exact State.takeBarRelease_keep h _
  · exact State.takeBarAbort_keep h _
  · exact State.takeKeepalive_keep h _
  · exact State.takeTakeover_keep h _
  · exact State.bump_keep h _

theorem State.handle_keep (h : Keep s0 s) : ∀ a1 a2, Keep s0 (State.handle s a1 a2) := by
  intro a1 a2
  unfold State.handle
  split
  · exact h
  · split
    · exact State.takeRequest_keep h _ _
    · exact State.takeRequest_keep h _ _
    · exact State.takeRequest_keep h _ _
    · exact State.takeRequest_keep h _ _
    · exact State.takeRequest_keep h _ _
    · exact State.takeRequest_keep h _ _
    · exact State.takeLoadRsp_keep h _
    · exact State.takeAtomicRsp_keep h _
    · exact State.takeCompletion_keep h _
    · exact State.takeNegative_keep h _
    · exact State.takeWindowReq_keep h _
    · exact State.takeGrant_keep h _
    · exact State.takeExp_keep h _
    · exact State.takeSlice_keep h _
    · exact State.takeGather_keep h _
    · exact State.takeCollAbort_keep h _
    · exact State.takeAttendReq_keep h _
    · exact State.takeAttendPart_keep h _
    · exact State.takeOntan_keep h _
    · exact State.takeImage_keep h _
    · exact State.takeBarrier_keep h _
    · split
      · exact State.takeCadenceReq_keep h _
      · split
        · exact State.takeCadenceRsp_keep h _
        · exact h
    · exact State.takeBcast_keep h _
    · exact State.takeBcast_keep h _

theorem State.completeAndHandle_keep (h : Keep s0 s) : ∀ a1, Keep s0 (State.completeAndHandle s a1) := by
  intro a1
  unfold State.completeAndHandle
  extract_lets x1
  have kx1 : Keep s0 x1.2 := State.packetComplete_keep h _
  split
  · exact kx1
  · exact State.handle_keep kx1 _ _

theorem State.injectAndHandle_keep (h : Keep s0 s) : ∀ a1, Keep s0 (State.injectAndHandle s a1) := by
  intro a1
  unfold State.injectAndHandle
  extract_lets x1
  have kx1 : Keep s0 x1.2 := State.inject_keep h _
  split
  · exact kx1
  · exact State.handle_keep kx1 _ _

theorem State.receive_keep (h : Keep s0 s) : ∀ a1 a2 a3, Keep s0 (State.receive s a1 a2 a3) := by
  intro a1 a2 a3
  unfold State.receive
  split
  · exact State.handle_keep h _ _
  · exact h

theorem State.receivePhase_keep (h : Keep s0 s) : ∀ a1 a2 a3, (∀ t30, Keep s0 t30 → Keep s0 (a3 t30)) → Keep s0 (State.receivePhase s a1 a2 a3) := by
  intro a1 a2 a3 g0
  unfold State.receivePhase
  split
  · exact g0 _ h
  · exact h

theorem State.takeLost_keep (h : Keep s0 s) : ∀ a1, Keep s0 (State.takeLost s a1) := by
  intro a1
  unfold State.takeLost
  extract_lets x1 x2
  split
  · split
    · exact h
    · exact State.collFailed_keep h _ _ _ _
  · split
    · exact State.takeNeg_keep h _
    · exact h

theorem State.takeAllLost_keep (h : Keep s0 s) : Keep s0 (State.takeAllLost s) := by
  unfold State.takeAllLost
  exact Keep.foldl (fun _ _ h3 => State.takeLost_keep h3 _) _ (State.onPkt_keep h _)

theorem State.settle_keep (h : Keep s0 s) : Keep s0 (State.settle s) := by
  unfold State.settle
  split
  · exact h
  · extract_lets x1
    have kx1 : Keep s0 x1 := State.takeAllLost_keep (State.takeDue_keep h _)
    exact State.nextKept_keep (State.barriers_keep (State.runOrdered_keep kx1 _))

end Sys2Proof.Machine
end

