-- ==== Sys2Proof/Laws/KeepEachColl.lean ====
section
/-! SUPPORT. What the commands of CmdColl.lean keep: each answers a next state, and what that state keeps. -/
set_option Elab.async false
namespace Sys2Proof.Machine
open Sys2Proof Sys2Proof.Bits

variable {s0 s : State}

theorem execCollectiveStart_keep (h : Keep s0 s) : ∀ a1 a2, ∃ t, execCollectiveStart a1 a2 s = .next t ∧ Keep s0 t :=
  fun _ _ => ⟨_, rfl, State.settle_keep (State.collStart_keep h _ _)⟩

theorem execChunkOpen_keep (h : Keep s0 s) : ∀ a1 a2 a3, ∃ t, execChunkOpen a1 a2 a3 s = .next t ∧ Keep s0 t :=
  fun _ _ _ => ⟨_, rfl, State.settle_keep (State.chunkOpen_keep h _ _ _)⟩

theorem execGrantReceive_keep (h : Keep s0 s) : ∀ a1, ∃ t, execGrantReceive a1 s = .next t ∧ Keep s0 t :=
  fun _ => ⟨_, rfl, State.settle_keep (State.receivePhase_keep h _ _ _ (fun _ h2 => State.takeCollGrant_keep h2 _))⟩

theorem execExpUpReceive_keep (h : Keep s0 s) : ∀ a1, ∃ t, execExpUpReceive a1 s = .next t ∧ Keep s0 t :=
  fun _ => ⟨_, rfl, State.settle_keep (State.receivePhase_keep h _ _ _ (fun _ h2 => State.takeExpUp_keep h2 _))⟩

theorem execExpDownReceive_keep (h : Keep s0 s) : ∀ a1, ∃ t, execExpDownReceive a1 s = .next t ∧ Keep s0 t :=
  fun _ => ⟨_, rfl, State.settle_keep (State.receivePhase_keep h _ _ _ (fun _ h2 => State.takeExpDown_keep h2 _))⟩

theorem execDoneReceive_keep (h : Keep s0 s) : ∀ a1, ∃ t, execDoneReceive a1 s = .next t ∧ Keep s0 t :=
  fun _ => ⟨_, rfl, State.settle_keep (State.receivePhase_keep h _ _ _ (fun _ h2 => State.takeDone_keep h2 _))⟩

theorem execTallyChunkReceive_keep (h : Keep s0 s) : ∀ a1, ∃ t, execTallyChunkReceive a1 s = .next t ∧ Keep s0 t :=
  fun _ => ⟨_, rfl, State.settle_keep (State.receive_keep h _ _ _)⟩

theorem execGatherChunkReceive_keep (h : Keep s0 s) : ∀ a1, ∃ t, execGatherChunkReceive a1 s = .next t ∧ Keep s0 t :=
  fun _ => ⟨_, rfl, State.settle_keep (State.receive_keep h _ _ _)⟩

theorem execCollAbortReceive_keep (h : Keep s0 s) : ∀ a1, ∃ t, execCollAbortReceive a1 s = .next t ∧ Keep s0 t :=
  fun _ => ⟨_, rfl, State.settle_keep (State.receive_keep h _ _ _)⟩

theorem execCollNoticeRepeat_keep (h : Keep s0 s) : ∀ a1 a2, ∃ t, execCollNoticeRepeat a1 a2 s = .next t ∧ Keep s0 t :=
  fun _ _ => ⟨_, rfl, State.settle_keep (State.collRepeat_keep h _ _)⟩

theorem execCollTimeout_keep (h : Keep s0 s) : ∀ a1 a2, ∃ t, execCollTimeout a1 a2 s = .next t ∧ Keep s0 t :=
  fun _ _ => ⟨_, rfl, State.settle_keep (State.collTimeout_keep h _ _)⟩

theorem execAttEnableTrue_keep (h : Keep s0 s) : ∀ a1 a2, ∃ t, execAttEnableTrue a1 a2 s = .next t ∧ Keep s0 t :=
  fun _ _ => ⟨_, rfl, State.settle_keep (State.command_keep h _ _ _ _ _ (fun _ h2 => State.attEnableAct_keep h2 _))⟩

theorem execAttEnableFalse_keep (h : Keep s0 s) : ∀ a1 a2, ∃ t, execAttEnableFalse a1 a2 s = .next t ∧ Keep s0 t :=
  fun _ _ => ⟨_, rfl, State.settle_keep (State.command_keep h _ _ _ _ _ (fun _ h2 => State.attDisableAct_keep h2 _))⟩

theorem execAttend_keep (h : Keep s0 s) : ∀ a1, ∃ t, execAttend a1 s = .next t ∧ Keep s0 t :=
  fun _ => ⟨_, rfl, State.settle_keep (State.attend_keep (State.fetchArg_keep h _) _)⟩

theorem execAttendReqReceive_keep (h : Keep s0 s) : ∀ a1 a2, ∃ t, execAttendReqReceive a1 a2 s = .next t ∧ Keep s0 t :=
  fun _ _ => ⟨_, rfl, State.settle_keep (State.receive_keep h _ _ _)⟩

theorem execAttAssemblyTimeout_keep (h : Keep s0 s) : ∀ a1 a2, ∃ t, execAttAssemblyTimeout a1 a2 s = .next t ∧ Keep s0 t :=
  fun _ _ => ⟨_, rfl, State.settle_keep (State.attAssemblyTimeout_keep h _ _)⟩

theorem execAttendServiceStart_keep (h : Keep s0 s) : ∀ a1 a2, ∃ t, execAttendServiceStart a1 a2 s = .next t ∧ Keep s0 t :=
  fun _ _ => ⟨_, rfl, State.settle_keep (State.serviceStart_keep h _ _)⟩

theorem execAttendServiceEnd_keep (h : Keep s0 s) : ∀ a1 a2, ∃ t, execAttendServiceEnd a1 a2 s = .next t ∧ Keep s0 t :=
  fun _ _ => ⟨_, rfl, State.settle_keep (State.serviceEnd_keep h _ _)⟩

theorem execAttHoldExpire_keep (h : Keep s0 s) : ∀ a1 a2, ∃ t, execAttHoldExpire a1 a2 s = .next t ∧ Keep s0 t :=
  fun _ _ => ⟨_, rfl, State.settle_keep (State.attHoldExpire_keep h _ _)⟩

theorem execAttendPartReceive_keep (h : Keep s0 s) : ∀ a1, ∃ t, execAttendPartReceive a1 s = .next t ∧ Keep s0 t :=
  fun _ => ⟨_, rfl, State.settle_keep (State.receive_keep h _ _ _)⟩

theorem execAttResultTimeout_keep (h : Keep s0 s) : ∀ a1 a2, ∃ t, execAttResultTimeout a1 a2 s = .next t ∧ Keep s0 t :=
  fun _ _ => ⟨_, rfl, State.settle_keep (State.attResultTimeout_keep h _ _)⟩

theorem execLdgEnableTrue_keep (h : Keep s0 s) : ∀ a1 a2, ∃ t, execLdgEnableTrue a1 a2 s = .next t ∧ Keep s0 t :=
  fun _ _ => ⟨_, rfl, State.settle_keep (State.command_keep h _ _ _ _ _ (fun _ h2 => State.ledgerOnAct_keep h2 _))⟩

theorem execLdgEnableFalse_keep (h : Keep s0 s) : ∀ a1 a2, ∃ t, execLdgEnableFalse a1 a2 s = .next t ∧ Keep s0 t :=
  fun _ _ => ⟨_, rfl, State.settle_keep (State.command_keep h _ _ _ _ _ (fun _ h2 => State.ledgerOffAct_keep h2 _))⟩

theorem execLdgDrainComplete_keep (h : Keep s0 s) : ∀ a1, ∃ t, execLdgDrainComplete a1 s = .next t ∧ Keep s0 t :=
  fun _ => ⟨_, rfl, State.settle_keep (State.ledgerDrained_keep h _)⟩

theorem execLdgConsumerWrite_keep (h : Keep s0 s) : ∀ a1 a2 a3, ∃ t, execLdgConsumerWrite a1 a2 a3 s = .next t ∧ Keep s0 t :=
  fun _ _ _ => ⟨_, rfl, State.settle_keep (State.command_keep h _ _ _ _ _ (fun _ h2 => State.consumerAct_keep h2 _ _))⟩

theorem execCapArmTrue_keep (h : Keep s0 s) : ∀ a1 a2 a3, ∃ t, execCapArmTrue a1 a2 a3 s = .next t ∧ Keep s0 t :=
  fun _ _ _ => ⟨_, rfl, State.settle_keep (State.command_keep h _ _ _ _ _ (fun _ h2 => State.armAct_keep h2 _ _))⟩

theorem execCadencePeriod_keep (h : Keep s0 s) : ∃ t, execCadencePeriod s = .next t ∧ Keep s0 t :=
  ⟨_, rfl, State.settle_keep (State.cadencePeriod_keep h)⟩

theorem execCadenceReqReceive_keep (h : Keep s0 s) : ∀ a1, ∃ t, execCadenceReqReceive a1 s = .next t ∧ Keep s0 t :=
  fun _ => ⟨_, rfl, State.settle_keep (State.receivePhase_keep h _ _ _ (fun _ h2 => State.takeCadenceReq_keep h2 _))⟩

theorem execCadenceRspReceive_keep (h : Keep s0 s) : ∀ a1, ∃ t, execCadenceRspReceive a1 s = .next t ∧ Keep s0 t :=
  fun _ => ⟨_, rfl, State.settle_keep (State.receivePhase_keep h _ _ _ (fun _ h2 => State.takeCadenceRsp_keep h2 _))⟩

theorem execHierCadenceSet_keep (h : Keep s0 s) : ∀ a1 a2, ∃ t, execHierCadenceSet a1 a2 s = .next t ∧ Keep s0 t :=
  fun _ _ => ⟨_, rfl, State.settle_keep (State.command_keep h _ _ _ _ _ (fun _ h2 => State.cadenceSetAct_keep h2 _))⟩

theorem execTrfCadenceInEdge_keep (h : Keep s0 s) : ∃ t, execTrfCadenceInEdge s = .next t ∧ Keep s0 t :=
  ⟨_, rfl, State.settle_keep (State.cadenceEdge_keep h)⟩

theorem execCadenceOutPulse_keep (h : Keep s0 s) : ∃ t, execCadenceOutPulse s = .next t ∧ Keep s0 t :=
  ⟨_, rfl, State.settle_keep (State.cadenceOut_keep h)⟩

theorem execArriveReceive_keep (h : Keep s0 s) : ∀ a1, ∃ t, execArriveReceive a1 s = .next t ∧ Keep s0 t :=
  fun _ => ⟨_, rfl, State.settle_keep (State.receivePhase_keep h _ _ _ (fun _ h2 => State.takeArrive_keep h2 _))⟩

theorem execReleaseReceive_keep (h : Keep s0 s) : ∀ a1, ∃ t, execReleaseReceive a1 s = .next t ∧ Keep s0 t :=
  fun _ => ⟨_, rfl, State.settle_keep (State.receivePhase_keep h _ _ _ (fun _ h2 => State.takeBarRelease_keep h2 _))⟩

theorem execBarrierAbortReceive_keep (h : Keep s0 s) : ∀ a1, ∃ t, execBarrierAbortReceive a1 s = .next t ∧ Keep s0 t :=
  fun _ => ⟨_, rfl, State.settle_keep (State.receivePhase_keep h _ _ _ (fun _ h2 => State.takeBarAbort_keep h2 _))⟩

theorem execKeepaliveReceive_keep (h : Keep s0 s) : ∀ a1, ∃ t, execKeepaliveReceive a1 s = .next t ∧ Keep s0 t :=
  fun _ => ⟨_, rfl, State.settle_keep (State.receivePhase_keep h _ _ _ (fun _ h2 => State.takeKeepalive_keep h2 _))⟩

theorem execTakeoverReceive_keep (h : Keep s0 s) : ∀ a1, ∃ t, execTakeoverReceive a1 s = .next t ∧ Keep s0 t :=
  fun _ => ⟨_, rfl, State.settle_keep (State.receivePhase_keep h _ _ _ (fun _ h2 => State.takeTakeover_keep h2 _))⟩

theorem execArriveRepeat_keep (h : Keep s0 s) : ∀ a1, ∃ t, execArriveRepeat a1 s = .next t ∧ Keep s0 t :=
  fun _ => ⟨_, rfl, State.settle_keep (State.arriveRepeat_keep h _)⟩

theorem execBarTimeout_keep (h : Keep s0 s) : ∀ a1, ∃ t, execBarTimeout a1 s = .next t ∧ Keep s0 t :=
  fun _ => ⟨_, rfl, State.settle_keep (State.barTimeout_keep h _)⟩

theorem execKeepalivePeriod_keep (h : Keep s0 s) : ∀ a1, ∃ t, execKeepalivePeriod a1 s = .next t ∧ Keep s0 t :=
  fun _ => ⟨_, rfl, State.settle_keep (State.keepalive_keep h _)⟩

theorem execTakeoverTimeout_keep (h : Keep s0 s) : ∀ a1, ∃ t, execTakeoverTimeout a1 s = .next t ∧ Keep s0 t :=
  fun _ => ⟨_, rfl, State.settle_keep (State.takeover_keep h _)⟩

theorem execJobSnapshot_keep (h : Keep s0 s) : ∀ a1 a2 a3, ∃ t, execJobSnapshot a1 a2 a3 s = .next t ∧ Keep s0 t :=
  fun _ _ _ => ⟨_, rfl, State.settle_keep (State.command_keep h _ _ _ _ _ (fun _ h2 => State.bcastAct_keep h2 _ _ _))⟩

theorem execJobReset_keep (h : Keep s0 s) : ∀ a1 a2 a3, ∃ t, execJobReset a1 a2 a3 s = .next t ∧ Keep s0 t :=
  fun _ _ _ => ⟨_, rfl, State.settle_keep (State.command_keep h _ _ _ _ _ (fun _ h2 => State.bcastAct_keep h2 _ _ _))⟩

theorem execSnapshotReceive_keep (h : Keep s0 s) : ∀ a1, ∃ t, execSnapshotReceive a1 s = .next t ∧ Keep s0 t :=
  fun _ => ⟨_, rfl, State.settle_keep (State.receive_keep h _ _ _)⟩

theorem execResetBcastReceive_keep (h : Keep s0 s) : ∀ a1, ∃ t, execResetBcastReceive a1 s = .next t ∧ Keep s0 t :=
  fun _ => ⟨_, rfl, State.settle_keep (State.receive_keep h _ _ _)⟩

theorem execBcastSecondCopy_keep (h : Keep s0 s) : ∀ a1, ∃ t, execBcastSecondCopy a1 s = .next t ∧ Keep s0 t :=
  fun _ => ⟨_, rfl, State.settle_keep (State.secondCopy_keep h _)⟩

theorem execBcastActivate_keep (h : Keep s0 s) : ∀ a1 a2, ∃ t, execBcastActivate a1 a2 s = .next t ∧ Keep s0 t :=
  fun _ _ => ⟨_, rfl, State.settle_keep (State.activate_keep h _ _)⟩

end Sys2Proof.Machine
end

