-- ==== Sys2Proof/Laws/KeepEachControl.lean ====
section
/-! SUPPORT. What the commands of CmdControl.lean keep: each answers a next state, and what that state keeps. -/
set_option Elab.async false
namespace Sys2Proof.Machine
open Sys2Proof Sys2Proof.Bits

variable {s0 s : State}

theorem execCcAdd_keep (h : Keep s0 s) : ∀ a1 a2 a3 a4, ∃ t, execCcAdd a1 a2 a3 a4 s = .next t ∧ Keep s0 t :=
  fun _ _ _ _ => ⟨_, rfl, State.settle_keep (State.ccAlu_keep h _ _ _ _ _ _)⟩

theorem execCcSub_keep (h : Keep s0 s) : ∀ a1 a2 a3 a4, ∃ t, execCcSub a1 a2 a3 a4 s = .next t ∧ Keep s0 t :=
  fun _ _ _ _ => ⟨_, rfl, State.settle_keep (State.ccAlu_keep h _ _ _ _ _ _)⟩

theorem execCcAnd_keep (h : Keep s0 s) : ∀ a1 a2 a3 a4, ∃ t, execCcAnd a1 a2 a3 a4 s = .next t ∧ Keep s0 t :=
  fun _ _ _ _ => ⟨_, rfl, State.settle_keep (State.ccAlu_keep h _ _ _ _ _ _)⟩

theorem execCcOr_keep (h : Keep s0 s) : ∀ a1 a2 a3 a4, ∃ t, execCcOr a1 a2 a3 a4 s = .next t ∧ Keep s0 t :=
  fun _ _ _ _ => ⟨_, rfl, State.settle_keep (State.ccAlu_keep h _ _ _ _ _ _)⟩

theorem execCcXor_keep (h : Keep s0 s) : ∀ a1 a2 a3 a4, ∃ t, execCcXor a1 a2 a3 a4 s = .next t ∧ Keep s0 t :=
  fun _ _ _ _ => ⟨_, rfl, State.settle_keep (State.ccAlu_keep h _ _ _ _ _ _)⟩

theorem execCcShl_keep (h : Keep s0 s) : ∀ a1 a2 a3 a4, ∃ t, execCcShl a1 a2 a3 a4 s = .next t ∧ Keep s0 t :=
  fun _ _ _ _ => ⟨_, rfl, State.settle_keep (State.ccShift_keep h _ _ _ _ _ _)⟩

theorem execCcShr_keep (h : Keep s0 s) : ∀ a1 a2 a3 a4, ∃ t, execCcShr a1 a2 a3 a4 s = .next t ∧ Keep s0 t :=
  fun _ _ _ _ => ⟨_, rfl, State.settle_keep (State.ccShift_keep h _ _ _ _ _ _)⟩

theorem execCcSar_keep (h : Keep s0 s) : ∀ a1 a2 a3 a4, ∃ t, execCcSar a1 a2 a3 a4 s = .next t ∧ Keep s0 t :=
  fun _ _ _ _ => ⟨_, rfl, State.settle_keep (State.ccShift_keep h _ _ _ _ _ _)⟩

theorem execCcMul_keep (h : Keep s0 s) : ∀ a1 a2 a3 a4, ∃ t, execCcMul a1 a2 a3 a4 s = .next t ∧ Keep s0 t :=
  fun _ _ _ _ => ⟨_, rfl, State.settle_keep (State.ccAlu_keep h _ _ _ _ _ _)⟩

theorem execCcMulhu_keep (h : Keep s0 s) : ∀ a1 a2 a3 a4, ∃ t, execCcMulhu a1 a2 a3 a4 s = .next t ∧ Keep s0 t :=
  fun _ _ _ _ => ⟨_, rfl, State.settle_keep (State.ccAlu_keep h _ _ _ _ _ _)⟩

theorem execCcSlt_keep (h : Keep s0 s) : ∀ a1 a2 a3 a4, ∃ t, execCcSlt a1 a2 a3 a4 s = .next t ∧ Keep s0 t :=
  fun _ _ _ _ => ⟨_, rfl, State.settle_keep (State.ccAlu_keep h _ _ _ _ _ _)⟩

theorem execCcSltu_keep (h : Keep s0 s) : ∀ a1 a2 a3 a4, ∃ t, execCcSltu a1 a2 a3 a4 s = .next t ∧ Keep s0 t :=
  fun _ _ _ _ => ⟨_, rfl, State.settle_keep (State.ccAlu_keep h _ _ _ _ _ _)⟩

theorem execCcAddi_keep (h : Keep s0 s) : ∀ a1 a2 a3 a4, ∃ t, execCcAddi a1 a2 a3 a4 s = .next t ∧ Keep s0 t :=
  fun _ _ _ _ => ⟨_, rfl, State.settle_keep (State.ccRun_keep h _ _ _ (fun _ h2 => State.ccWrite_keep h2 _ _ _))⟩

theorem execCcAndi_keep (h : Keep s0 s) : ∀ a1 a2 a3 a4, ∃ t, execCcAndi a1 a2 a3 a4 s = .next t ∧ Keep s0 t :=
  fun _ _ _ _ => ⟨_, rfl, State.settle_keep (State.ccRun_keep h _ _ _ (fun _ h2 => State.ccWrite_keep h2 _ _ _))⟩

theorem execCcOri_keep (h : Keep s0 s) : ∀ a1 a2 a3 a4, ∃ t, execCcOri a1 a2 a3 a4 s = .next t ∧ Keep s0 t :=
  fun _ _ _ _ => ⟨_, rfl, State.settle_keep (State.ccRun_keep h _ _ _ (fun _ h2 => State.ccWrite_keep h2 _ _ _))⟩

theorem execCcHins_keep (h : Keep s0 s) : ∀ a1 a2 a3 a4, ∃ t, execCcHins a1 a2 a3 a4 s = .next t ∧ Keep s0 t :=
  fun _ _ _ _ => ⟨_, rfl, State.settle_keep (State.ccRun_keep h _ _ _ (fun _ h2 => State.ccWrite_keep h2 _ _ _))⟩

theorem execCcHnew_keep (h : Keep s0 s) : ∀ a1 a2 a3 a4, ∃ t, execCcHnew a1 a2 a3 a4 s = .next t ∧ Keep s0 t :=
  fun _ _ _ _ => ⟨_, rfl, State.settle_keep (State.ccRun_keep h _ _ _ (fun _ h2 => State.ccWrite_keep h2 _ _ _))⟩

theorem execCcLd_keep (h : Keep s0 s) : ∀ a1 a2 a3 a4 a5, ∃ t, execCcLd a1 a2 a3 a4 a5 s = .next t ∧ Keep s0 t :=
  fun _ _ _ _ _ => ⟨_, rfl, State.settle_keep (State.ccRun_keep h _ _ _ (fun _ h2 => State.ccLd_keep h2 _ _ _ _))⟩

theorem execCcSt_keep (h : Keep s0 s) : ∀ a1 a2 a3 a4 a5, ∃ t, execCcSt a1 a2 a3 a4 a5 s = .next t ∧ Keep s0 t :=
  fun _ _ _ _ _ => ⟨_, rfl, State.settle_keep (State.ccRun_keep h _ _ _ (fun _ h2 => State.ccSt_keep h2 _ _ _ _))⟩

theorem execCcAmo_keep (h : Keep s0 s) : ∀ a1 a2 a3 a4 a5 a6, ∃ t, execCcAmo a1 a2 a3 a4 a5 a6 s = .next t ∧ Keep s0 t :=
  fun _ _ _ _ _ _ => ⟨_, rfl, State.settle_keep (State.ccRun_keep h _ _ _ (fun _ h2 => State.ccAmo_keep h2 _ _ _ _ _ _))⟩

theorem execCcSignal_keep (h : Keep s0 s) : ∀ a1 a2 a3, ∃ t, execCcSignal a1 a2 a3 s = .next t ∧ Keep s0 t :=
  fun _ _ _ => ⟨_, rfl, State.settle_keep (State.ccRun_keep h _ _ _ (fun _ h2 => State.ccSignal_keep h2 _ _ _))⟩

theorem execCcSet_keep (h : Keep s0 s) : ∀ a1 a2 a3, ∃ t, execCcSet a1 a2 a3 s = .next t ∧ Keep s0 t :=
  fun _ _ _ => ⟨_, rfl, State.settle_keep (State.ccRun_keep h _ _ _ (fun _ h2 => State.ccSet_keep h2 _ _ _))⟩

theorem execCcWait_keep (h : Keep s0 s) : ∀ a1 a2 a3, ∃ t, execCcWait a1 a2 a3 s = .next t ∧ Keep s0 t :=
  fun _ _ _ => ⟨_, rfl, State.settle_keep (State.ccRun_keep h _ _ _ (fun _ h2 => State.ccWait_keep h2 _ _ _))⟩

theorem execCcRead_keep (h : Keep s0 s) : ∀ a1 a2 a3, ∃ t, execCcRead a1 a2 a3 s = .next t ∧ Keep s0 t :=
  fun _ _ _ => ⟨_, rfl, State.settle_keep (State.ccRun_keep h _ _ _ (fun _ h2 => State.ccReadSem_keep h2 _ _ _))⟩

theorem execCcCset_keep (h : Keep s0 s) : ∀ a1 a2 a3, ∃ t, execCcCset a1 a2 a3 s = .next t ∧ Keep s0 t :=
  fun _ _ _ => ⟨_, rfl, State.settle_keep (State.ccRun_keep h _ _ _ (fun _ h2 => State.ccCset_keep h2 _ _ _))⟩

theorem execCcCread_keep (h : Keep s0 s) : ∀ a1 a2 a3, ∃ t, execCcCread a1 a2 a3 s = .next t ∧ Keep s0 t :=
  fun _ _ _ => ⟨_, rfl, State.settle_keep (State.ccRun_keep h _ _ _ (fun _ h2 => State.ccCread_keep h2 _ _ _))⟩

theorem execCcWaitc_keep (h : Keep s0 s) : ∀ a1 a2 a3, ∃ t, execCcWaitc a1 a2 a3 s = .next t ∧ Keep s0 t :=
  fun _ _ _ => ⟨_, rfl, State.settle_keep (State.ccRun_keep h _ _ _ (fun _ h2 => State.ccWaitc_keep h2 _ _ _))⟩

theorem execCcFarFlush_keep (h : Keep s0 s) : ∀ a1 a2 a3, ∃ t, execCcFarFlush a1 a2 a3 s = .next t ∧ Keep s0 t :=
  fun _ _ _ => ⟨_, rfl, State.settle_keep (State.ccRun_keep h _ _ _ (fun _ h2 => State.ccFar_keep h2 _ _ _ _))⟩

theorem execCcFarDrop_keep (h : Keep s0 s) : ∀ a1 a2 a3, ∃ t, execCcFarDrop a1 a2 a3 s = .next t ∧ Keep s0 t :=
  fun _ _ _ => ⟨_, rfl, State.settle_keep (State.ccRun_keep h _ _ _ (fun _ h2 => State.ccFar_keep h2 _ _ _ _))⟩

theorem execCcFence_keep (h : Keep s0 s) : ∀ a1, ∃ t, execCcFence a1 s = .next t ∧ Keep s0 t :=
  fun _ => ⟨_, rfl, State.settle_keep (State.ccRun_keep h _ _ _ (fun _ h2 => State.ccFence_keep h2 _))⟩

theorem execCcEnqMatrix_keep (h : Keep s0 s) : ∀ a1 a2, ∃ t, execCcEnqMatrix a1 a2 s = .next t ∧ Keep s0 t :=
  fun _ _ => ⟨_, rfl, State.settle_keep (State.ccRun_keep h _ _ _ (fun _ h2 => State.ccEnq_keep h2 _ _ _))⟩

theorem execCcEnqVector_keep (h : Keep s0 s) : ∀ a1 a2, ∃ t, execCcEnqVector a1 a2 s = .next t ∧ Keep s0 t :=
  fun _ _ => ⟨_, rfl, State.settle_keep (State.ccRun_keep h _ _ _ (fun _ h2 => State.ccEnq_keep h2 _ _ _))⟩

theorem execCcEnqDma_keep (h : Keep s0 s) : ∀ a1 a2, ∃ t, execCcEnqDma a1 a2 s = .next t ∧ Keep s0 t :=
  fun _ _ => ⟨_, rfl, State.settle_keep (State.ccRun_keep h _ _ _ (fun _ h2 => State.ccEnq_keep h2 _ _ _))⟩

theorem execCcFarWindowSet_keep (h : Keep s0 s) : ∀ a1 a2 a3, ∃ t, execCcFarWindowSet a1 a2 a3 s = .next t ∧ Keep s0 t :=
  fun _ _ _ => ⟨_, rfl, State.settle_keep (State.ccRun_keep h _ _ _ (fun _ h2 => State.ccWindow_keep h2 _ _ _))⟩

theorem execCcMaskSetCount_keep (h : Keep s0 s) : ∀ a1 a2 a3, ∃ t, execCcMaskSetCount a1 a2 a3 s = .next t ∧ Keep s0 t :=
  fun _ _ _ => ⟨_, rfl, State.settle_keep (State.ccRun_keep h _ _ _ (fun _ h2 => State.ccMaskCount_keep h2 _ _ _))⟩

theorem execCcMaskSetSpad_keep (h : Keep s0 s) : ∀ a1 a2 a3, ∃ t, execCcMaskSetSpad a1 a2 a3 s = .next t ∧ Keep s0 t :=
  fun _ _ _ => ⟨_, rfl, State.settle_keep (State.ccRun_keep h _ _ _ (fun _ h2 => State.ccMaskSpad_keep h2 _ _ _))⟩

theorem execCcTrigArm_keep (h : Keep s0 s) : ∀ a1 a2 a3, ∃ t, execCcTrigArm a1 a2 a3 s = .next t ∧ Keep s0 t :=
  fun _ _ _ => ⟨_, rfl, State.settle_keep (State.ccRun_keep h _ _ _ (fun _ h2 => State.ccTrigArm_keep h2 _ _ _))⟩

theorem execCcTrigDisarm_keep (h : Keep s0 s) : ∀ a1 a2, ∃ t, execCcTrigDisarm a1 a2 s = .next t ∧ Keep s0 t :=
  fun _ _ => ⟨_, rfl, State.settle_keep (State.ccRun_keep h _ _ _ (fun _ h2 => State.ccTrigDisarm_keep h2 _ _))⟩

theorem execCcCvInit_keep (h : Keep s0 s) : ∀ a1 a2 a3, ∃ t, execCcCvInit a1 a2 a3 s = .next t ∧ Keep s0 t :=
  fun _ _ _ => ⟨_, rfl, State.settle_keep (State.ccRun_keep h _ _ _ (fun _ h2 => State.ccCvInit_keep h2 _ _ _))⟩

theorem execCcCvFeed1_keep (h : Keep s0 s) : ∀ a1 a2 a3, ∃ t, execCcCvFeed1 a1 a2 a3 s = .next t ∧ Keep s0 t :=
  fun _ _ _ => ⟨_, rfl, State.settle_keep (State.ccRun_keep h _ _ _ (fun _ h2 => State.ccCvFeed_keep h2 _ _ _ _))⟩

theorem execCcCvFeed2_keep (h : Keep s0 s) : ∀ a1 a2 a3, ∃ t, execCcCvFeed2 a1 a2 a3 s = .next t ∧ Keep s0 t :=
  fun _ _ _ => ⟨_, rfl, State.settle_keep (State.ccRun_keep h _ _ _ (fun _ h2 => State.ccCvFeed_keep h2 _ _ _ _))⟩

theorem execCcCvFeed4_keep (h : Keep s0 s) : ∀ a1 a2 a3, ∃ t, execCcCvFeed4 a1 a2 a3 s = .next t ∧ Keep s0 t :=
  fun _ _ _ => ⟨_, rfl, State.settle_keep (State.ccRun_keep h _ _ _ (fun _ h2 => State.ccCvFeed_keep h2 _ _ _ _))⟩

theorem execCcCvFeed8_keep (h : Keep s0 s) : ∀ a1 a2 a3, ∃ t, execCcCvFeed8 a1 a2 a3 s = .next t ∧ Keep s0 t :=
  fun _ _ _ => ⟨_, rfl, State.settle_keep (State.ccRun_keep h _ _ _ (fun _ h2 => State.ccCvFeed_keep h2 _ _ _ _))⟩

theorem execCcCvFinal_keep (h : Keep s0 s) : ∀ a1 a2 a3, ∃ t, execCcCvFinal a1 a2 a3 s = .next t ∧ Keep s0 t :=
  fun _ _ _ => ⟨_, rfl, State.settle_keep (State.ccRun_keep h _ _ _ (fun _ h2 => State.ccWrite_keep h2 _ _ _))⟩

theorem execCcCvGet_keep (h : Keep s0 s) : ∀ a1 a2 a3, ∃ t, execCcCvGet a1 a2 a3 s = .next t ∧ Keep s0 t :=
  fun _ _ _ => ⟨_, rfl, State.settle_keep (State.ccRun_keep h _ _ _ (fun _ h2 => State.ccWrite_keep h2 _ _ _))⟩

theorem execCcCvPut_keep (h : Keep s0 s) : ∀ a1 a2 a3, ∃ t, execCcCvPut a1 a2 a3 s = .next t ∧ Keep s0 t :=
  fun _ _ _ => ⟨_, rfl, State.settle_keep (State.ccRun_keep h _ _ _ (fun _ h2 => State.ccCvPut_keep h2 _ _ _))⟩

theorem execCcCvGeta_keep (h : Keep s0 s) : ∀ a1 a2 a3, ∃ t, execCcCvGeta a1 a2 a3 s = .next t ∧ Keep s0 t :=
  fun _ _ _ => ⟨_, rfl, State.settle_keep (State.ccRun_keep h _ _ _ (fun _ h2 => State.ccWrite_keep h2 _ _ _))⟩

theorem execCcCvPuta_keep (h : Keep s0 s) : ∀ a1 a2 a3, ∃ t, execCcCvPuta a1 a2 a3 s = .next t ∧ Keep s0 t :=
  fun _ _ _ => ⟨_, rfl, State.settle_keep (State.ccRun_keep h _ _ _ (fun _ h2 => State.ccCvPuta_keep h2 _ _ _))⟩

theorem execCcCvAppend_keep (h : Keep s0 s) : ∀ a1 a2 a3, ∃ t, execCcCvAppend a1 a2 a3 s = .next t ∧ Keep s0 t :=
  fun _ _ _ => ⟨_, rfl, State.settle_keep (State.ccRun_keep h _ _ _ (fun _ h2 => State.ccCvAppend_keep h2 _ _ _))⟩

theorem execCcCvCheck_keep (h : Keep s0 s) : ∀ a1 a2 a3 a4, ∃ t, execCcCvCheck a1 a2 a3 a4 s = .next t ∧ Keep s0 t :=
  fun _ _ _ _ => ⟨_, rfl, State.settle_keep (State.ccRun_keep h _ _ _ (fun _ h2 => State.ccCvCheck_keep h2 _ _ _ _))⟩

theorem execCcCvLedger_keep (h : Keep s0 s) : ∀ a1 a2 a3 a4, ∃ t, execCcCvLedger a1 a2 a3 a4 s = .next t ∧ Keep s0 t :=
  fun _ _ _ _ => ⟨_, rfl, State.settle_keep (State.ccRun_keep h _ _ _ (fun _ h2 => State.ccCvLedger_keep h2 _ _ _ _))⟩

theorem execCcMarkBegin_keep (h : Keep s0 s) : ∀ a1 a2, ∃ t, execCcMarkBegin a1 a2 s = .next t ∧ Keep s0 t :=
  fun _ _ => ⟨_, rfl, State.settle_keep (State.ccRun_keep h _ _ _ (fun _ h2 => State.ccMark_keep h2 _ _ _))⟩

theorem execCcMarkEnd_keep (h : Keep s0 s) : ∀ a1 a2, ∃ t, execCcMarkEnd a1 a2 s = .next t ∧ Keep s0 t :=
  fun _ _ => ⟨_, rfl, State.settle_keep (State.ccRun_keep h _ _ _ (fun _ h2 => State.ccMark_keep h2 _ _ _))⟩

theorem execCcMarkPoint_keep (h : Keep s0 s) : ∀ a1 a2, ∃ t, execCcMarkPoint a1 a2 s = .next t ∧ Keep s0 t :=
  fun _ _ => ⟨_, rfl, State.settle_keep (State.ccRun_keep h _ _ _ (fun _ h2 => State.ccMark_keep h2 _ _ _))⟩

theorem execCcBeq_keep (h : Keep s0 s) : ∀ a1 a2 a3 a4, ∃ t, execCcBeq a1 a2 a3 a4 s = .next t ∧ Keep s0 t :=
  fun _ _ _ _ => ⟨_, rfl, State.settle_keep (State.ccRun_keep h _ _ _ (fun _ h2 => State.ccBranch_keep h2 _ _ _))⟩

theorem execCcBne_keep (h : Keep s0 s) : ∀ a1 a2 a3 a4, ∃ t, execCcBne a1 a2 a3 a4 s = .next t ∧ Keep s0 t :=
  fun _ _ _ _ => ⟨_, rfl, State.settle_keep (State.ccRun_keep h _ _ _ (fun _ h2 => State.ccBranch_keep h2 _ _ _))⟩

theorem execCcBlt_keep (h : Keep s0 s) : ∀ a1 a2 a3 a4, ∃ t, execCcBlt a1 a2 a3 a4 s = .next t ∧ Keep s0 t :=
  fun _ _ _ _ => ⟨_, rfl, State.settle_keep (State.ccRun_keep h _ _ _ (fun _ h2 => State.ccBranch_keep h2 _ _ _))⟩

theorem execCcBge_keep (h : Keep s0 s) : ∀ a1 a2 a3 a4, ∃ t, execCcBge a1 a2 a3 a4 s = .next t ∧ Keep s0 t :=
  fun _ _ _ _ => ⟨_, rfl, State.settle_keep (State.ccRun_keep h _ _ _ (fun _ h2 => State.ccBranch_keep h2 _ _ _))⟩

theorem execCcBltu_keep (h : Keep s0 s) : ∀ a1 a2 a3 a4, ∃ t, execCcBltu a1 a2 a3 a4 s = .next t ∧ Keep s0 t :=
  fun _ _ _ _ => ⟨_, rfl, State.settle_keep (State.ccRun_keep h _ _ _ (fun _ h2 => State.ccBranch_keep h2 _ _ _))⟩

theorem execCcBgeu_keep (h : Keep s0 s) : ∀ a1 a2 a3 a4, ∃ t, execCcBgeu a1 a2 a3 a4 s = .next t ∧ Keep s0 t :=
  fun _ _ _ _ => ⟨_, rfl, State.settle_keep (State.ccRun_keep h _ _ _ (fun _ h2 => State.ccBranch_keep h2 _ _ _))⟩

theorem execCcJal_keep (h : Keep s0 s) : ∀ a1 a2 a3, ∃ t, execCcJal a1 a2 a3 s = .next t ∧ Keep s0 t :=
  fun _ _ _ => ⟨_, rfl, State.settle_keep (State.ccRun_keep h _ _ _ (fun _ h2 => State.ccJump_keep h2 _ _ _))⟩

theorem execCcJr_keep (h : Keep s0 s) : ∀ a1 a2 a3, ∃ t, execCcJr a1 a2 a3 s = .next t ∧ Keep s0 t :=
  fun _ _ _ => ⟨_, rfl, State.settle_keep (State.ccRun_keep h _ _ _ (fun _ h2 => State.ccJump_keep h2 _ _ _))⟩

theorem execCcEnd_keep (h : Keep s0 s) : ∀ a1 a2, ∃ t, execCcEnd a1 a2 s = .next t ∧ Keep s0 t :=
  fun _ _ => ⟨_, rfl, State.settle_keep (State.ccRun_keep h _ _ _ (fun _ h2 => State.ccEndInstance_keep h2 _ _))⟩

end Sys2Proof.Machine
end

