-- ==== Sys2Proof/Laws/KeepVector.lean ====
section
/-! SUPPORT. What the operations of Vector.lean keep: a lemma for each. -/
set_option Elab.async false
namespace Sys2Proof.Machine
open Sys2Proof Sys2Proof.Bits

variable {s0 s : State}

theorem State.readRow_keep (h : Keep s0 s) : ∀ a1 a2 a3, Keep s0 (State.readRow s a1 a2 a3).2 := by
  intro a1 a2 a3
  unfold State.readRow
  split
  · exact Keep.snd h
  · extract_lets x1
    have kx1 : Keep s0 x1.2 := State.spadRead_keep h _ _ _
    exact Keep.snd kx1

theorem State.writeRow_keep (h : Keep s0 s) : ∀ a1 a2 a3 a4 a5 a6 a7 a8, Keep s0 (State.writeRow s a1 a2 a3 a4 a5 a6 a7 a8).2 := by
  intro a1 a2 a3 a4 a5 a6 a7 a8
  unfold State.writeRow
  split
  · exact Keep.snd h
  · extract_lets x1 x2 x3 x4 x5 x6 x7 x8
    have kx6 : Keep s0 x6 := State.spadWrite_keep h _ _ _
    split
    · exact Keep.snd (State.spadWrite_keep kx6 _ _ _)
    · exact Keep.snd (Keep.foldl (fun _ _ h11 => State.spadWrite_keep h11 _ _ _) _ h)

theorem vpRow_keep {a : VpAcc} (h : Keep s0 a.st) : ∀ a1 a2 a3 a4 a5 a6 a7 a8, Keep s0 (vpRow a1 a2 a3 a4 a5 a6 a7 a a8).st := by
  intro a1 a2 a3 a4 a5 a6 a7 a8
  unfold vpRow
  extract_lets r0 r1 r2
  have h0 : Keep s0 r0.2 := by
    unfold r0
    split
    · exact Keep.snd h
    · exact State.readRow_keep h _ _ _
  exact State.writeRow_keep (State.readRow_keep (State.readRow_keep h0 _ _ _) _ _ _) _ _ _ _ _ _ _ _

theorem State.vectorPass_keep (h : Keep s0 s) : ∀ a1, Keep s0 (s.vectorPass a1) := by
  intro a1
  unfold State.vectorPass
  extract_lets x
  split
  · extract_lets d c ws tile bank dr a0 a vp
    have ha : Keep s0 a.st := Keep.foldl_on VpAcc.st (r := a0) (State.spadRead_keep h _ _ _) (fun r p hr => vpRow_keep hr _ _ _ _ _ _ _ _) _
    split
    · exact h
    · split
      · exact State.taskError_keep h _ _
      · split
        · exact State.taskError_keep (State.spadRead_keep h _ _ _) _ _
        · exact State.engineProgress_keep (State.busy_keep (State.onCore_keep ha _ _) _ _ _ _) _ _
  · exact h

theorem State.vectorPassEnd_keep (h : Keep s0 s) : ∀ a1, Keep s0 (State.vectorPassEnd s a1) := by
  intro a1
  unfold State.vectorPassEnd
  split
  · exact h
  · extract_lets x1 x2 x3
    have kx1 : Keep s0 x1 := by
      unfold x1
      split
      · exact State.spadWrite_keep h _ _ _
      · exact h
    have kx2 : Keep s0 x2 := by
      unfold x2
      split
      · exact State.spadWrite_keep kx1 _ _ _
      · exact kx1
    exact State.release_keep (State.descProgress_keep (State.onCore_keep kx2 _ _) _ _) _

end Sys2Proof.Machine
end

