-- ==== Sys2Proof/Laws/KeepEachEngine.lean ====
section
/-! SUPPORT. What the commands of CmdEngine.lean keep: each answers a next state, and what that state keeps. -/
set_option Elab.async false
namespace Sys2Proof.Machine
open Sys2Proof Sys2Proof.Bits

variable {s0 s : State}

theorem execMatmul_keep (h : Keep s0 s) : ∀ a1, ∃ t, execMatmul a1 s = .next t ∧ Keep s0 t :=
  fun _ => ⟨_, rfl, State.settle_keep (State.matmul_keep h _)⟩

theorem execMatmulEnd_keep (h : Keep s0 s) : ∀ a1, ∃ t, execMatmulEnd a1 s = .next t ∧ Keep s0 t :=
  fun _ => ⟨_, rfl, State.settle_keep (State.matmulEnd_keep h _)⟩

theorem execVectorPass_keep (h : Keep s0 s) : ∀ a1, ∃ t, execVectorPass a1 s = .next t ∧ Keep s0 t :=
  fun _ => ⟨_, rfl, State.settle_keep (State.vectorPass_keep h _)⟩

theorem execVectorPassEnd_keep (h : Keep s0 s) : ∀ a1, ∃ t, execVectorPassEnd a1 s = .next t ∧ Keep s0 t :=
  fun _ => ⟨_, rfl, State.settle_keep (State.vectorPassEnd_keep h _)⟩

theorem execCopyLocal_keep (h : Keep s0 s) : ∀ a1, ∃ t, execCopyLocal a1 s = .next t ∧ Keep s0 t :=
  fun _ => ⟨_, rfl, State.settle_keep (State.localDesc_keep (State.fetchArg_keep h _) _ _)⟩

theorem execUnwrite_keep (h : Keep s0 s) : ∀ a1, ∃ t, execUnwrite a1 s = .next t ∧ Keep s0 t :=
  fun _ => ⟨_, rfl, State.settle_keep (State.localDesc_keep (State.fetchArg_keep h _) _ _)⟩

theorem execLocalCopyEnd_keep (h : Keep s0 s) : ∀ a1 a2, ∃ t, execLocalCopyEnd a1 a2 s = .next t ∧ Keep s0 t :=
  fun _ _ => ⟨_, rfl, State.settle_keep (State.localEnd_keep h _ _)⟩

theorem execFarFillComplete_keep (h : Keep s0 s) : ∀ a1, ∃ t, execFarFillComplete a1 s = .next t ∧ Keep s0 t :=
  fun _ => ⟨_, rfl, State.settle_keep (State.fillComplete_keep h _)⟩

theorem execDirectoryGrant_keep (h : Keep s0 s) : ∀ a1, ∃ t, execDirectoryGrant a1 s = .next t ∧ Keep s0 t :=
  fun _ => ⟨_, rfl, State.settle_keep (State.dirGrant_keep h _)⟩

theorem execFarWritebackComplete_keep (h : Keep s0 s) : ∀ a1, ∃ t, execFarWritebackComplete a1 s = .next t ∧ Keep s0 t :=
  fun _ => ⟨_, rfl, State.settle_keep (State.wbComplete_keep h _)⟩

theorem execFarMaintenanceComplete_keep (h : Keep s0 s) : ∀ a1, ∃ t, execFarMaintenanceComplete a1 s = .next t ∧ Keep s0 t :=
  fun _ => ⟨_, rfl, State.settle_keep (State.maintComplete_keep h _)⟩

theorem execWaitSatisfied_keep (h : Keep s0 s) : ∀ a1, ∃ t, execWaitSatisfied a1 s = .next t ∧ Keep s0 t :=
  fun _ => ⟨_, rfl, State.settle_keep (State.waitSatisfied_keep h _)⟩

theorem execMemZeroGo_keep (h : Keep s0 s) : ∀ a1 a2, ∃ t, execMemZeroGo a1 a2 s = .next t ∧ Keep s0 t :=
  fun _ _ => ⟨_, rfl, State.settle_keep (State.command_keep h _ _ _ _ _ (fun _ h2 => State.memZeroGoAct_keep h2 _))⟩

theorem execMemZeroComplete_keep (h : Keep s0 s) : ∀ a1, ∃ t, execMemZeroComplete a1 s = .next t ∧ Keep s0 t :=
  fun _ => ⟨_, rfl, State.settle_keep (State.memZeroComplete_keep h _)⟩

end Sys2Proof.Machine
end

