-- ==== Sys2Proof/Laws/KeepEachFault.lean ====
section
/-! SUPPORT. What the commands of CmdFault.lean keep: each answers a next state, and what that state keeps. -/
set_option Elab.async false
namespace Sys2Proof.Machine
open Sys2Proof Sys2Proof.Bits

variable {s0 s : State}

theorem execPromoteWindowExpire_keep (h : Keep s0 s) : ∀ a1, ∃ t, execPromoteWindowExpire a1 s = .next t ∧ Keep s0 t :=
  fun _ => ⟨_, rfl, State.settle_keep (State.onFlt_keep h)⟩

theorem execEscalationTimeout_keep (h : Keep s0 s) : ∀ a1 a2, ∃ t, execEscalationTimeout a1 a2 s = .next t ∧ Keep s0 t :=
  fun _ _ => ⟨_, rfl, State.settle_keep (State.escalate_keep h _ _)⟩

theorem execSrcClear_keep (h : Keep s0 s) : ∀ a1 a2, ∃ t, execSrcClear a1 a2 s = .next t ∧ Keep s0 t :=
  fun _ _ => ⟨_, rfl, State.settle_keep (State.command_keep h _ _ _ _ _ (fun _ h2 => State.srcClearAct_keep h2 _))⟩

theorem execFltClearAll_keep (h : Keep s0 s) : ∀ a1, ∃ t, execFltClearAll a1 s = .next t ∧ Keep s0 t :=
  fun _ => ⟨_, rfl, State.settle_keep (State.command_keep h _ _ _ _ _ (fun _ h2 => State.clearAllAct_keep h2))⟩

theorem execFltStickyClear_keep (h : Keep s0 s) : ∀ a1, ∃ t, execFltStickyClear a1 s = .next t ∧ Keep s0 t :=
  fun _ => ⟨_, rfl, State.settle_keep (State.command_keep h _ _ _ _ _ (fun _ h2 => Keep.snd (State.onFlt_keep h2)))⟩

theorem execFltEvtPop_keep (h : Keep s0 s) : ∀ a1, ∃ t, execFltEvtPop a1 s = .next t ∧ Keep s0 t :=
  fun _ => ⟨_, rfl, State.settle_keep (State.command_keep h _ _ _ _ _ fun _ h2 =>
    Keep.snd (Keep.fltLe h2 (by simp) (Nat.le_refl _)))⟩

theorem execHangExamine_keep (h : Keep s0 s) : ∃ t, execHangExamine s = .next t ∧ Keep s0 t :=
  ⟨_, rfl, State.settle_keep (State.hangExamine_keep h)⟩

theorem execRstCtx_keep (h : Keep s0 s) : ∀ a1 a2, ∃ t, execRstCtx a1 a2 s = .next t ∧ Keep s0 t :=
  fun _ _ => ⟨_, rfl, State.settle_keep (State.command_keep h _ _ _ _ _ (fun _ h2 => State.rstCtxAct_keep h2 _))⟩

theorem execContextResetComplete_keep (h : Keep s0 s) : ∀ a1, ∃ t, execContextResetComplete a1 s = .next t ∧ Keep s0 t :=
  fun _ => ⟨_, rfl, State.settle_keep (State.ctxResetComplete_keep h _)⟩

theorem execEngineResetIdle_keep (h : Keep s0 s) : ∀ a1, ∃ t, execEngineResetIdle a1 s = .next t ∧ Keep s0 t :=
  fun _ => ⟨_, rfl, State.settle_keep (State.engineIdle_keep h _)⟩

theorem execPartitionResetIdle_keep (h : Keep s0 s) : ∀ a1, ∃ t, execPartitionResetIdle a1 s = .next t ∧ Keep s0 t :=
  fun _ => ⟨_, rfl, State.settle_keep (State.partitionIdle_keep h _)⟩

theorem execFltBlockReset_keep (h : Keep s0 s) : ∀ a1, ∃ t, execFltBlockReset a1 s = .next t ∧ Keep s0 t :=
  fun _ => ⟨_, rfl, State.settle_keep (State.command_keep h _ _ _ _ _ (fun _ h2 => State.blockResetAct_keep h2))⟩

theorem execBlockResetConfigureLimit_keep (h : Keep s0 s) : ∃ t, execBlockResetConfigureLimit s = .next t ∧ Keep s0 t :=
  ⟨_, rfl, State.settle_keep (State.blockLimit_keep h)⟩

theorem execRstCtxLimit_keep (h : Keep s0 s) : ∀ a1, ∃ t, execRstCtxLimit a1 s = .next t ∧ Keep s0 t :=
  fun _ => ⟨_, rfl, State.settle_keep (State.ctxLimit_keep h _)⟩

theorem execRstEngineLimit_keep (h : Keep s0 s) : ∀ a1, ∃ t, execRstEngineLimit a1 s = .next t ∧ Keep s0 t :=
  fun _ => ⟨_, rfl, State.settle_keep (State.engineLimit_keep h _)⟩

theorem execRstPartitionLimit_keep (h : Keep s0 s) : ∀ a1, ∃ t, execRstPartitionLimit a1 s = .next t ∧ Keep s0 t :=
  fun _ => ⟨_, rfl, State.settle_keep (State.partitionLimit_keep h _)⟩

theorem execRstSampleLimit_keep (h : Keep s0 s) : ∀ a1, ∃ t, execRstSampleLimit a1 s = .next t ∧ Keep s0 t :=
  fun _ => ⟨_, rfl, State.settle_keep (State.sampleLimit_keep h _)⟩

theorem execFltPcycRequest_keep (h : Keep s0 s) : ∀ a1, ∃ t, execFltPcycRequest a1 s = .next t ∧ Keep s0 t :=
  fun _ => ⟨_, rfl, State.settle_keep (State.command_keep h _ _ _ _ _ (fun _ h2 => Keep.snd (State.powerCycle_keep h2 _)))⟩

theorem execPcycKickstand_keep (h : Keep s0 s) : ∃ t, execPcycKickstand s = .next t ∧ Keep s0 t :=
  ⟨_, rfl, State.settle_keep (State.pcycKick_keep h)⟩

theorem execProbationTurnEnd_keep (h : Keep s0 s) : ∀ a1, ∃ t, execProbationTurnEnd a1 s = .next t ∧ Keep s0 t :=
  fun _ => ⟨_, rfl, State.settle_keep (State.turnEnd_keep h _)⟩

theorem execEpochResyncComplete_keep (h : Keep s0 s) : ∀ a1, ∃ t, execEpochResyncComplete a1 s = .next t ∧ Keep s0 t :=
  fun _ => ⟨_, rfl, State.settle_keep (State.resync_keep h _)⟩

theorem execFltKickstand_keep (h : Keep s0 s) : ∀ a1, ∃ t, execFltKickstand a1 s = .next t ∧ Keep s0 t :=
  fun _ => ⟨_, rfl, State.settle_keep (State.command_keep h _ _ _ _ _ (fun _ h2 => Keep.snd (State.enterKickstand_keep h2)))⟩

theorem execFltKickExit_keep (h : Keep s0 s) : ∀ a1, ∃ t, execFltKickExit a1 s = .next t ∧ Keep s0 t :=
  fun _ => ⟨_, rfl, State.settle_keep (State.command_keep h _ _ _ _ _ (fun _ h2 => State.kickExitAct_keep h2))⟩

theorem execGovernorInterval_keep (h : Keep s0 s) : ∃ t, execGovernorInterval s = .next t ∧ Keep s0 t :=
  ⟨_, rfl, State.settle_keep (State.governorInterval_keep h)⟩

theorem execSleepDelayExpire_keep (h : Keep s0 s) : ∀ a1, ∃ t, execSleepDelayExpire a1 s = .next t ∧ Keep s0 t :=
  fun _ => ⟨_, rfl, State.settle_keep (State.sleepExpire_keep h _)⟩

theorem execWakeTokenRefill_keep (h : Keep s0 s) : ∃ t, execWakeTokenRefill s = .next t ∧ Keep s0 t :=
  ⟨_, rfl, State.settle_keep (State.wakeRefill_keep h)⟩

theorem execWakeRelease_keep (h : Keep s0 s) : ∀ a1, ∃ t, execWakeRelease a1 s = .next t ∧ Keep s0 t :=
  fun _ => ⟨_, rfl, State.settle_keep (State.wakeRelease_keep h _)⟩

theorem execWakeComplete_keep (h : Keep s0 s) : ∀ a1, ∃ t, execWakeComplete a1 s = .next t ∧ Keep s0 t :=
  fun _ => ⟨_, rfl, State.settle_keep (State.wakeComplete_keep h _)⟩

theorem execWakeDelayed_keep (h : Keep s0 s) : ∀ a1 a2, ∃ t, execWakeDelayed a1 a2 s = .next t ∧ Keep s0 t :=
  fun _ _ => ⟨_, rfl, State.settle_keep (State.wakeLate_keep h _ _)⟩

theorem execMmGateDelay_keep (h : Keep s0 s) : ∀ a1, ∃ t, execMmGateDelay a1 s = .next t ∧ Keep s0 t :=
  fun _ => ⟨_, rfl, State.settle_keep (State.mmGate_keep h _)⟩

theorem execRampStart_keep (h : Keep s0 s) : ∀ a1, ∃ t, execRampStart a1 s = .next t ∧ Keep s0 t :=
  fun _ => ⟨_, rfl, State.settle_keep (State.rampStart_keep h _)⟩

theorem execRampComplete_keep (h : Keep s0 s) : ∀ a1, ∃ t, execRampComplete a1 s = .next t ∧ Keep s0 t :=
  fun _ => ⟨_, rfl, State.settle_keep (State.rampComplete_keep h _)⟩

theorem execFloorTimer_keep (h : Keep s0 s) : ∃ t, execFloorTimer s = .next t ∧ Keep s0 t :=
  ⟨_, rfl, State.settle_keep (State.floorTimer_keep h)⟩

theorem execPwrVid_keep (h : Keep s0 s) : ∀ a1 a2, ∃ t, execPwrVid a1 a2 s = .next t ∧ Keep s0 t :=
  fun _ _ => ⟨_, rfl, State.settle_keep (State.command_keep h _ _ _ _ _ (fun _ h2 => State.vidAct_keep h2 _))⟩

theorem execPmiRequest_keep (h : Keep s0 s) : ∃ t, execPmiRequest s = .next t ∧ Keep s0 t :=
  ⟨_, rfl, State.settle_keep (State.pmiRequest_keep h)⟩

theorem execPmiReqAck_keep (h : Keep s0 s) : ∃ t, execPmiReqAck s = .next t ∧ Keep s0 t :=
  ⟨_, rfl, State.settle_keep (State.pmiAck_keep h)⟩

theorem execPmiNoackTimeout_keep (h : Keep s0 s) : ∃ t, execPmiNoackTimeout s = .next t ∧ Keep s0 t :=
  ⟨_, rfl, State.settle_keep (State.pmiNoack_keep h)⟩

theorem execPmiPgoodFall_keep (h : Keep s0 s) : ∃ t, execPmiPgoodFall s = .next t ∧ Keep s0 t :=
  ⟨_, rfl, State.settle_keep (State.pgoodFall_keep h)⟩

theorem execPmiVrAlertFall_keep (h : Keep s0 s) : ∃ t, execPmiVrAlertFall s = .next t ∧ Keep s0 t :=
  ⟨_, rfl, State.settle_keep (State.vrAlertFall_keep h)⟩

theorem execVrAlertEnd_keep (h : Keep s0 s) : ∃ t, execVrAlertEnd s = .next t ∧ Keep s0 t :=
  ⟨_, rfl, State.settle_keep (State.vrAlertEnd_keep h)⟩

end Sys2Proof.Machine
end

