-- ==== Sys2Proof/Laws/KeepEachLink.lean ====
section
/-! SUPPORT. What the commands of CmdLink.lean keep: each answers a next state, and what that state keeps. -/
set_option Elab.async false
namespace Sys2Proof.Machine
open Sys2Proof Sys2Proof.Bits

variable {s0 s : State}

theorem execTransmitUnitBoundary_keep (h : Keep s0 s) : ∀ a1, ∃ t, execTransmitUnitBoundary a1 s = .next t ∧ Keep s0 t :=
  fun _ => ⟨_, rfl, State.settle_keep (State.transmitBoundary_keep h _)⟩

theorem execDataUnitReceive_keep (h : Keep s0 s) : ∀ a1 a2 a3, ∃ t, execDataUnitReceive a1 a2 a3 s = .next t ∧ Keep s0 t :=
  fun _ _ _ => ⟨_, rfl, State.settle_keep (State.rxData_keep h _ _ _)⟩

theorem execReplayedUnitReceive_keep (h : Keep s0 s) : ∀ a1 a2 a3, ∃ t, execReplayedUnitReceive a1 a2 a3 s = .next t ∧ Keep s0 t :=
  fun _ _ _ => ⟨_, rfl, State.settle_keep (State.rxReplayed_keep h _ _ _)⟩

theorem execControlUnitReceive_keep (h : Keep s0 s) : ∀ a1 a2 a3, ∃ t, execControlUnitReceive a1 a2 a3 s = .next t ∧ Keep s0 t :=
  fun _ _ _ => ⟨_, rfl, State.settle_keep (State.rxControl_keep h _ _ _)⟩

theorem execIdleUnitReceive_keep (h : Keep s0 s) : ∀ a1 a2 a3, ∃ t, execIdleUnitReceive a1 a2 a3 s = .next t ∧ Keep s0 t :=
  fun _ _ _ => ⟨_, rfl, State.settle_keep (State.rxIdle_keep h _ _ _)⟩

theorem execAckTimerExpire_keep (h : Keep s0 s) : ∀ a1, ∃ t, execAckTimerExpire a1 s = .next t ∧ Keep s0 t :=
  fun _ => ⟨_, rfl, State.settle_keep (State.ackTimer_keep h _)⟩

theorem execReplayTimeout_keep (h : Keep s0 s) : ∀ a1 a2, ∃ t, execReplayTimeout a1 a2 s = .next t ∧ Keep s0 t :=
  fun _ _ => ⟨_, rfl, State.settle_keep (State.replayTimeout_keep h _ _)⟩

theorem execSilenceTimeout_keep (h : Keep s0 s) : ∀ a1, ∃ t, execSilenceTimeout a1 s = .next t ∧ Keep s0 t :=
  fun _ => ⟨_, rfl, State.settle_keep (State.silence_keep h _)⟩

theorem execPauseTimeout_keep (h : Keep s0 s) : ∀ a1, ∃ t, execPauseTimeout a1 s = .next t ∧ Keep s0 t :=
  fun _ => ⟨_, rfl, State.settle_keep (State.pauseTimeout_keep h _)⟩

theorem execLaneFail_keep (h : Keep s0 s) : ∀ a1 a2, ∃ t, execLaneFail a1 a2 s = .next t ∧ Keep s0 t :=
  fun _ _ => ⟨_, rfl, State.settle_keep (State.laneFail_keep h _ _)⟩

theorem execLinkRetrain_keep (h : Keep s0 s) : ∀ a1 a2, ∃ t, execLinkRetrain a1 a2 s = .next t ∧ Keep s0 t :=
  fun _ _ => ⟨_, rfl, State.settle_keep (State.command_keep h _ _ _ _ _ (fun _ h2 => Keep.snd (State.retrain_keep h2 _)))⟩

theorem execLinkEnableTrue_keep (h : Keep s0 s) : ∀ a1 a2, ∃ t, execLinkEnableTrue a1 a2 s = .next t ∧ Keep s0 t :=
  fun _ _ => ⟨_, rfl, State.settle_keep (State.command_keep h _ _ _ _ _ (fun _ h2 => State.enableAct_keep h2 _))⟩

theorem execLinkEnableFalse_keep (h : Keep s0 s) : ∀ a1 a2, ∃ t, execLinkEnableFalse a1 a2 s = .next t ∧ Keep s0 t :=
  fun _ _ => ⟨_, rfl, State.settle_keep (State.command_keep h _ _ _ _ _ (fun _ h2 => State.disableAct_keep h2 _))⟩

theorem execTrainingStart_keep (h : Keep s0 s) : ∀ a1, ∃ t, execTrainingStart a1 s = .next t ∧ Keep s0 t :=
  fun _ => ⟨_, rfl, State.settle_keep (State.trainingStart_keep h _)⟩

theorem execDetectSuccess_keep (h : Keep s0 s) : ∀ a1 a2, ∃ t, execDetectSuccess a1 a2 s = .next t ∧ Keep s0 t :=
  fun _ _ => ⟨_, rfl, State.settle_keep (State.detectSuccess_keep h _ _)⟩

theorem execDetectTimeout_keep (h : Keep s0 s) : ∀ a1, ∃ t, execDetectTimeout a1 s = .next t ∧ Keep s0 t :=
  fun _ => ⟨_, rfl, State.settle_keep (State.detectTimeout_keep h _)⟩

theorem execTrainingWordReceive_keep (h : Keep s0 s) : ∀ a1 a2 a3, ∃ t, execTrainingWordReceive a1 a2 a3 s = .next t ∧ Keep s0 t :=
  fun _ _ _ => ⟨_, rfl, State.settle_keep (State.rxTraining_keep h _ _ _)⟩

theorem execLockDeadline_keep (h : Keep s0 s) : ∀ a1, ∃ t, execLockDeadline a1 s = .next t ∧ Keep s0 t :=
  fun _ => ⟨_, rfl, State.settle_keep (State.lockDeadline_keep h _)⟩

theorem execTrainingAttemptTimeout_keep (h : Keep s0 s) : ∀ a1, ∃ t, execTrainingAttemptTimeout a1 s = .next t ∧ Keep s0 t :=
  fun _ => ⟨_, rfl, State.settle_keep (State.attemptTimeout_keep h _)⟩

theorem execTrainingRecordRepeat_keep (h : Keep s0 s) : ∀ a1, ∃ t, execTrainingRecordRepeat a1 s = .next t ∧ Keep s0 t :=
  fun _ => ⟨_, rfl, State.settle_keep (State.recordRepeat_keep h _)⟩

theorem execTrainingRetryWait_keep (h : Keep s0 s) : ∀ a1, ∃ t, execTrainingRetryWait a1 s = .next t ∧ Keep s0 t :=
  fun _ => ⟨_, rfl, State.settle_keep (State.retryWait_keep h _)⟩

theorem execFreewheelExpire_keep (h : Keep s0 s) : ∀ a1, ∃ t, execFreewheelExpire a1 s = .next t ∧ Keep s0 t :=
  fun _ => ⟨_, rfl, State.settle_keep (State.freewheelExpire_keep h _)⟩

end Sys2Proof.Machine
end

