-- ==== Sys2Proof/Laws/KeepEachOntan.lean ====
section
/-! SUPPORT. What the commands of CmdOntan.lean keep: each answers a next state, and what that state keeps. -/
set_option Elab.async false
namespace Sys2Proof.Machine
open Sys2Proof Sys2Proof.Bits

variable {s0 s : State}

theorem execOntanMiiFrame_keep (h : Keep s0 s) : ∀ a1, ∃ t, execOntanMiiFrame a1 s = .next t ∧ Keep s0 t :=
  fun _ => ⟨_, rfl, State.settle_keep (State.miiFrame_keep h _)⟩

theorem execI3cPrivateWrite_keep (h : Keep s0 s) : ∀ a1, ∃ t, execI3cPrivateWrite a1 s = .next t ∧ Keep s0 t :=
  fun _ => ⟨_, rfl, State.settle_keep (State.i3cWrite_keep h _)⟩

theorem execI3cPrivateRead_keep (h : Keep s0 s) : ∃ t, execI3cPrivateRead s = .next t ∧ Keep s0 t :=
  ⟨_, rfl, State.settle_keep (State.i3cRead_keep h)⟩

theorem execI3cDynamicAddress_keep (h : Keep s0 s) : ∀ a1 a2 a3, ∃ t, execI3cDynamicAddress a1 a2 a3 s = .next t ∧ Keep s0 t :=
  fun _ _ _ => ⟨_, rfl, State.settle_keep (State.i3cAssign_keep h _ _ _)⟩

theorem execI3cHdrEntry_keep (h : Keep s0 s) : ∃ t, execI3cHdrEntry s = .next t ∧ Keep s0 t :=
  ⟨_, rfl, State.settle_keep (State.i3cHdr_keep h _)⟩

theorem execI3cHdrExit_keep (h : Keep s0 s) : ∃ t, execI3cHdrExit s = .next t ∧ Keep s0 t :=
  ⟨_, rfl, State.settle_keep (State.i3cHdr_keep h _)⟩

theorem execI3cSclTooFast_keep (h : Keep s0 s) : ∃ t, execI3cSclTooFast s = .next t ∧ Keep s0 t :=
  ⟨_, rfl, State.settle_keep (State.i3cFast_keep h)⟩

theorem execOntanRead_keep (h : Keep s0 s) : ∀ a1 a2 a3 a4 a5, ∃ t, execOntanRead a1 a2 a3 a4 a5 s = .next t ∧ Keep s0 t :=
  fun _ _ _ _ _ => ⟨_, rfl, State.settle_keep (State.ontanRead_keep h _ _ _ _ _)⟩

theorem execOntanWrite_keep (h : Keep s0 s) : ∀ a1 a2 a3 a4 a5 a6 a7, ∃ t, execOntanWrite a1 a2 a3 a4 a5 a6 a7 s = .next t ∧ Keep s0 t :=
  fun _ _ _ _ _ _ _ => ⟨_, rfl, State.settle_keep (State.ontanWrite_keep h _ _ _ _ _ _ _)⟩

theorem execOntanPacketReceive_keep (h : Keep s0 s) : ∀ a1, ∃ t, execOntanPacketReceive a1 s = .next t ∧ Keep s0 t :=
  fun _ => ⟨_, rfl, State.settle_keep (State.receive_keep h _ _ _)⟩

theorem execRelayTimeout_keep (h : Keep s0 s) : ∀ a1, ∃ t, execRelayTimeout a1 s = .next t ∧ Keep s0 t :=
  fun _ => ⟨_, rfl, State.settle_keep (State.relayTimeout_keep h _)⟩

theorem execOntEventRepeat_keep (h : Keep s0 s) : ∃ t, execOntEventRepeat s = .next t ∧ Keep s0 t :=
  ⟨_, rfl, State.settle_keep (State.eventRepeat_keep h)⟩

theorem execSecChallenge_keep (h : Keep s0 s) : ∀ a1, ∃ t, execSecChallenge a1 s = .next t ∧ Keep s0 t :=
  fun _ => ⟨_, rfl, State.settle_keep (State.challengeRead_keep h _)⟩

theorem execSecUnlock_keep (h : Keep s0 s) : ∀ a1 a2, ∃ t, execSecUnlock a1 a2 s = .next t ∧ Keep s0 t :=
  fun _ _ => ⟨_, rfl, State.settle_keep (State.unlockWrite_keep h _ _)⟩

theorem execUnlockLockoutExpire_keep (h : Keep s0 s) : ∀ a1, ∃ t, execUnlockLockoutExpire a1 s = .next t ∧ Keep s0 t :=
  fun _ => ⟨_, rfl, State.settle_keep (State.lockoutOver_keep h _)⟩

theorem execSecLock_keep (h : Keep s0 s) : ∀ a1, ∃ t, execSecLock a1 s = .next t ∧ Keep s0 t :=
  fun _ => ⟨_, rfl, State.settle_keep (State.lockWrite_keep h _)⟩

theorem execSecRevoke_keep (h : Keep s0 s) : ∀ a1 a2, ∃ t, execSecRevoke a1 a2 s = .next t ∧ Keep s0 t :=
  fun _ _ => ⟨_, rfl, State.settle_keep (State.command_keep h _ _ _ _ _ (fun _ h2 => State.revokeAct_keep h2 _))⟩

theorem execBlkReady_keep (h : Keep s0 s) : ∀ a1, ∃ t, execBlkReady a1 s = .next t ∧ Keep s0 t :=
  fun _ => ⟨_, rfl, State.settle_keep (State.command_keep h _ _ _ _ _ (fun _ h2 => State.readyAct_keep h2))⟩

theorem execBlkRun_keep (h : Keep s0 s) : ∀ a1, ∃ t, execBlkRun a1 s = .next t ∧ Keep s0 t :=
  fun _ => ⟨_, rfl, State.settle_keep (State.command_keep h _ _ _ _ _ (fun _ h2 => State.runAct_keep h2))⟩

theorem execBlkDrain_keep (h : Keep s0 s) : ∀ a1, ∃ t, execBlkDrain a1 s = .next t ∧ Keep s0 t :=
  fun _ => ⟨_, rfl, State.settle_keep (State.command_keep h _ _ _ _ _ (fun _ h2 => State.drainAct_keep h2))⟩

theorem execDrainComplete_keep (h : Keep s0 s) : ∃ t, execDrainComplete s = .next t ∧ Keep s0 t :=
  ⟨_, rfl, State.settle_keep (State.drainComplete_keep h)⟩

theorem execBlkDrainTimeout_keep (h : Keep s0 s) : ∃ t, execBlkDrainTimeout s = .next t ∧ Keep s0 t :=
  ⟨_, rfl, State.settle_keep (State.drainTimeout_keep h)⟩

theorem execBlkConfigure_keep (h : Keep s0 s) : ∀ a1, ∃ t, execBlkConfigure a1 s = .next t ∧ Keep s0 t :=
  fun _ => ⟨_, rfl, State.settle_keep (State.command_keep h _ _ _ _ _ (fun _ h2 => State.configureAct_keep h2))⟩

theorem execBlkQuarantineExit_keep (h : Keep s0 s) : ∀ a1, ∃ t, execBlkQuarantineExit a1 s = .next t ∧ Keep s0 t :=
  fun _ => ⟨_, rfl, State.settle_keep (State.command_keep h _ _ _ _ _ (fun _ h2 => State.quarantineAct_keep h2))⟩

theorem execObsClear_keep (h : Keep s0 s) : ∀ a1, ∃ t, execObsClear a1 s = .next t ∧ Keep s0 t :=
  fun _ => ⟨_, rfl, State.settle_keep (State.command_keep h _ _ _ _ _ (fun _ h2 => State.obsClearAct_keep h2))⟩

theorem execHistogramSample_keep (h : Keep s0 s) : ∃ t, execHistogramSample s = .next t ∧ Keep s0 t :=
  ⟨_, rfl, State.settle_keep (State.histogramSample_keep h)⟩

theorem execTrcEnableTrue_keep (h : Keep s0 s) : ∀ a1, ∃ t, execTrcEnableTrue a1 s = .next t ∧ Keep s0 t :=
  fun _ => ⟨_, rfl, State.settle_keep (State.command_keep h _ _ _ _ _ (fun _ h2 => State.traceOnAct_keep h2))⟩

theorem execTrcEnableFalse_keep (h : Keep s0 s) : ∀ a1, ∃ t, execTrcEnableFalse a1 s = .next t ∧ Keep s0 t :=
  fun _ => ⟨_, rfl, State.settle_keep (State.command_keep h _ _ _ _ _ (fun _ h2 => State.traceOffAct_keep h2))⟩

theorem execTraceWrite_keep (h : Keep s0 s) : ∃ t, execTraceWrite s = .next t ∧ Keep s0 t :=
  ⟨_, rfl, State.settle_keep (State.traceWrite_keep h)⟩

theorem execPcSample_keep (h : Keep s0 s) : ∀ a1, ∃ t, execPcSample a1 s = .next t ∧ Keep s0 t :=
  fun _ => ⟨_, rfl, State.settle_keep (State.pcSample_keep h _)⟩

theorem execBreakpointHit_keep (h : Keep s0 s) : ∀ a1, ∃ t, execBreakpointHit a1 s = .next t ∧ Keep s0 t :=
  fun _ => ⟨_, rfl, State.settle_keep (State.breakpoint_keep h _)⟩

theorem execDbgHalt_keep (h : Keep s0 s) : ∀ a1 a2, ∃ t, execDbgHalt a1 a2 s = .next t ∧ Keep s0 t :=
  fun _ _ => ⟨_, rfl, State.settle_keep (State.command_keep h _ _ _ _ _ (fun _ h2 => State.haltAct_keep h2 _))⟩

theorem execDbgDrainComplete_keep (h : Keep s0 s) : ∀ a1, ∃ t, execDbgDrainComplete a1 s = .next t ∧ Keep s0 t :=
  fun _ => ⟨_, rfl, State.settle_keep (State.drained_keep h _)⟩

theorem execDbgStep_keep (h : Keep s0 s) : ∀ a1 a2, ∃ t, execDbgStep a1 a2 s = .next t ∧ Keep s0 t :=
  fun _ _ => ⟨_, rfl, State.settle_keep (State.command_keep h _ _ _ _ _ (fun _ h2 => State.stepAct_keep h2 _))⟩

theorem execDbgResume_keep (h : Keep s0 s) : ∀ a1 a2, ∃ t, execDbgResume a1 a2 s = .next t ∧ Keep s0 t :=
  fun _ _ => ⟨_, rfl, State.settle_keep (State.command_keep h _ _ _ _ _ (fun _ h2 => State.resumeAct_keep h2 _))⟩

end Sys2Proof.Machine
end

