-- ==== Sys2Proof/Laws/KeepEachPacket.lean ====
section
/-! SUPPORT. What the commands of CmdPacket.lean keep: each answers a next state, and what that state keeps. -/
set_option Elab.async false
namespace Sys2Proof.Machine
open Sys2Proof Sys2Proof.Bits

variable {s0 s : State}

theorem execPacketInject_keep (h : Keep s0 s) : ∀ a1, ∃ t, execPacketInject a1 s = .next t ∧ Keep s0 t :=
  fun _ => ⟨_, rfl, State.settle_keep (State.injectAndHandle_keep h _)⟩

theorem execPacketHeaderArrive_keep (h : Keep s0 s) : ∀ a1, ∃ t, execPacketHeaderArrive a1 s = .next t ∧ Keep s0 t :=
  fun _ => ⟨_, rfl, State.settle_keep (State.headerArrive_keep h _)⟩

theorem execPacketComplete_keep (h : Keep s0 s) : ∀ a1, ∃ t, execPacketComplete a1 s = .next t ∧ Keep s0 t :=
  fun _ => ⟨_, rfl, State.settle_keep (State.completeAndHandle_keep h _)⟩

theorem execPktStallTimeout_keep (h : Keep s0 s) : ∀ a1, ∃ t, execPktStallTimeout a1 s = .next t ∧ Keep s0 t :=
  fun _ => ⟨_, rfl, State.settle_keep (State.stallTimeout_keep h _)⟩

theorem execRouteLoad_keep (h : Keep s0 s) : ∀ a1, ∃ t, execRouteLoad a1 s = .next t ∧ Keep s0 t :=
  fun _ => ⟨_, rfl, State.settle_keep (State.command_keep h _ _ _ _ _ (fun _ h2 => State.routeLoadAct_keep h2))⟩

theorem execRouteLoadComplete_keep (h : Keep s0 s) : ∃ t, execRouteLoadComplete s = .next t ∧ Keep s0 t :=
  ⟨_, rfl, State.settle_keep (State.routeLoadComplete_keep h)⟩

theorem execRouteDrainUpdate_keep (h : Keep s0 s) : ∀ a1 a2 a3, ∃ t, execRouteDrainUpdate a1 a2 a3 s = .next t ∧ Keep s0 t :=
  fun _ _ _ => ⟨_, rfl, State.settle_keep (State.command_keep h _ _ _ _ _ (fun _ h2 => State.routeDrainAct_keep h2 _ _))⟩

theorem execRouteDrainComplete_keep (h : Keep s0 s) : ∃ t, execRouteDrainComplete s = .next t ∧ Keep s0 t :=
  ⟨_, rfl, State.settle_keep (State.routeDrainComplete_keep h)⟩

theorem execRouteDrainTimeout_keep (h : Keep s0 s) : ∃ t, execRouteDrainTimeout s = .next t ∧ Keep s0 t :=
  ⟨_, rfl, State.settle_keep (State.routeDrainTimeout_keep h)⟩

theorem execLportLinksWrite_keep (h : Keep s0 s) : ∀ a1 a2 a3, ∃ t, execLportLinksWrite a1 a2 a3 s = .next t ∧ Keep s0 t :=
  fun _ _ _ => ⟨_, rfl, State.settle_keep (State.command_keep h _ _ _ _ _ (fun _ h2 => State.lportAct_keep h2 _ _))⟩

theorem execCtxRouteBind_keep (h : Keep s0 s) : ∀ a1 a2, ∃ t, execCtxRouteBind a1 a2 s = .next t ∧ Keep s0 t :=
  fun _ _ => ⟨_, rfl, State.settle_keep (State.command_keep h _ _ _ _ _ (fun _ h2 => State.bindAct_keep h2 _))⟩

theorem execRouteBindComplete_keep (h : Keep s0 s) : ∀ a1, ∃ t, execRouteBindComplete a1 s = .next t ∧ Keep s0 t :=
  fun _ => ⟨_, rfl, State.settle_keep (State.bindComplete_keep h _)⟩

end Sys2Proof.Machine
end

