-- ==== Sys2Proof/Laws/KeepEachRemote.lean ====
section
/-! SUPPORT. What the commands of CmdRemote.lean keep: each answers a next state, and what that state keeps. -/
set_option Elab.async false
namespace Sys2Proof.Machine
open Sys2Proof Sys2Proof.Bits

variable {s0 s : State}

theorem execLoadReqReceive_keep (h : Keep s0 s) : ∀ a1 a2, ∃ t, execLoadReqReceive a1 a2 s = .next t ∧ Keep s0 t :=
  fun _ _ => ⟨_, rfl, State.settle_keep (State.receive_keep h _ _ _)⟩

theorem execLoadRspReceive_keep (h : Keep s0 s) : ∀ a1, ∃ t, execLoadRspReceive a1 s = .next t ∧ Keep s0 t :=
  fun _ => ⟨_, rfl, State.settle_keep (State.receive_keep h _ _ _)⟩

theorem execStoreReceive_keep (h : Keep s0 s) : ∀ a1 a2, ∃ t, execStoreReceive a1 a2 s = .next t ∧ Keep s0 t :=
  fun _ _ => ⟨_, rfl, State.settle_keep (State.receive_keep h _ _ _)⟩

theorem execCopyReceive_keep (h : Keep s0 s) : ∀ a1 a2, ∃ t, execCopyReceive a1 a2 s = .next t ∧ Keep s0 t :=
  fun _ _ => ⟨_, rfl, State.settle_keep (State.receive_keep h _ _ _)⟩

theorem execAtomicReqReceive_keep (h : Keep s0 s) : ∀ a1 a2, ∃ t, execAtomicReqReceive a1 a2 s = .next t ∧ Keep s0 t :=
  fun _ _ => ⟨_, rfl, State.settle_keep (State.receive_keep h _ _ _)⟩

theorem execAtomicRspReceive_keep (h : Keep s0 s) : ∀ a1, ∃ t, execAtomicRspReceive a1 s = .next t ∧ Keep s0 t :=
  fun _ => ⟨_, rfl, State.settle_keep (State.receive_keep h _ _ _)⟩

theorem execGatherReqReceive_keep (h : Keep s0 s) : ∀ a1 a2, ∃ t, execGatherReqReceive a1 a2 s = .next t ∧ Keep s0 t :=
  fun _ _ => ⟨_, rfl, State.settle_keep (State.receive_keep h _ _ _)⟩

theorem execScatterReceive_keep (h : Keep s0 s) : ∀ a1 a2, ∃ t, execScatterReceive a1 a2 s = .next t ∧ Keep s0 t :=
  fun _ _ => ⟨_, rfl, State.settle_keep (State.receive_keep h _ _ _)⟩

theorem execCompletionReceive_keep (h : Keep s0 s) : ∀ a1, ∃ t, execCompletionReceive a1 s = .next t ∧ Keep s0 t :=
  fun _ => ⟨_, rfl, State.settle_keep (State.receive_keep h _ _ _)⟩

theorem execNegCompletionReceive_keep (h : Keep s0 s) : ∀ a1, ∃ t, execNegCompletionReceive a1 s = .next t ∧ Keep s0 t :=
  fun _ => ⟨_, rfl, State.settle_keep (State.receive_keep h _ _ _)⟩

theorem execWindowReqReceive_keep (h : Keep s0 s) : ∀ a1, ∃ t, execWindowReqReceive a1 s = .next t ∧ Keep s0 t :=
  fun _ => ⟨_, rfl, State.settle_keep (State.receive_keep h _ _ _)⟩

theorem execWindowGrantReceive_keep (h : Keep s0 s) : ∀ a1, ∃ t, execWindowGrantReceive a1 s = .next t ∧ Keep s0 t :=
  fun _ => ⟨_, rfl, State.settle_keep (State.receive_keep h _ _ _)⟩

theorem execWindowGrantDeferred_keep (h : Keep s0 s) : ∀ a1, ∃ t, execWindowGrantDeferred a1 s = .next t ∧ Keep s0 t :=
  fun _ => ⟨_, rfl, State.settle_keep (State.grantDeferred_keep h _)⟩

theorem execRmtLoad_keep (h : Keep s0 s) : ∀ a1, ∃ t, execRmtLoad a1 s = .next t ∧ Keep s0 t :=
  fun _ => ⟨_, rfl, State.settle_keep (State.rmtDesc_keep (State.fetchArg_keep h _) _ _)⟩

theorem execRmtStore_keep (h : Keep s0 s) : ∀ a1, ∃ t, execRmtStore a1 s = .next t ∧ Keep s0 t :=
  fun _ => ⟨_, rfl, State.settle_keep (State.rmtDesc_keep (State.fetchArg_keep h _) _ _)⟩

theorem execRmtCopyPush_keep (h : Keep s0 s) : ∀ a1, ∃ t, execRmtCopyPush a1 s = .next t ∧ Keep s0 t :=
  fun _ => ⟨_, rfl, State.settle_keep (State.rmtDesc_keep (State.fetchArg_keep h _) _ _)⟩

theorem execRmtCopyPull_keep (h : Keep s0 s) : ∀ a1, ∃ t, execRmtCopyPull a1 s = .next t ∧ Keep s0 t :=
  fun _ => ⟨_, rfl, State.settle_keep (State.rmtDesc_keep (State.fetchArg_keep h _) _ _)⟩

theorem execRmtAtomic_keep (h : Keep s0 s) : ∀ a1, ∃ t, execRmtAtomic a1 s = .next t ∧ Keep s0 t :=
  fun _ => ⟨_, rfl, State.settle_keep (State.rmtDesc_keep (State.fetchArg_keep h _) _ _)⟩

theorem execRmtGather_keep (h : Keep s0 s) : ∀ a1, ∃ t, execRmtGather a1 s = .next t ∧ Keep s0 t :=
  fun _ => ⟨_, rfl, State.settle_keep (State.rmtDesc_keep (State.fetchArg_keep h _) _ _)⟩

theorem execRmtScatter_keep (h : Keep s0 s) : ∀ a1, ∃ t, execRmtScatter a1 s = .next t ∧ Keep s0 t :=
  fun _ => ⟨_, rfl, State.settle_keep (State.rmtDesc_keep (State.fetchArg_keep h _) _ _)⟩

theorem execTransactionIssue_keep (h : Keep s0 s) : ∀ a1, ∃ t, execTransactionIssue a1 s = .next t ∧ Keep s0 t :=
  fun _ => ⟨_, rfl, State.settle_keep (State.issue_keep h _)⟩

theorem execRmtReqTimeout_keep (h : Keep s0 s) : ∀ a1 a2, ∃ t, execRmtReqTimeout a1 a2 s = .next t ∧ Keep s0 t :=
  fun _ _ => ⟨_, rfl, State.settle_keep (State.reqTimeout_keep h _ _)⟩

theorem execRmtBackoffExpire_keep (h : Keep s0 s) : ∀ a1 a2, ∃ t, execRmtBackoffExpire a1 a2 s = .next t ∧ Keep s0 t :=
  fun _ _ => ⟨_, rfl, State.settle_keep (State.backoffExpire_keep h _ _)⟩

theorem execRmtParkLimit_keep (h : Keep s0 s) : ∀ a1 a2, ∃ t, execRmtParkLimit a1 a2 s = .next t ∧ Keep s0 t :=
  fun _ _ => ⟨_, rfl, State.settle_keep (State.parkLimit_keep h _ _)⟩

theorem execCompletionCoalesce_keep (h : Keep s0 s) : ∀ a1 a2 a3, ∃ t, execCompletionCoalesce a1 a2 a3 s = .next t ∧ Keep s0 t :=
  fun _ _ _ => ⟨_, rfl, State.settle_keep (State.flushMask_keep h _ _ _)⟩

theorem execReleaseDelay_keep (h : Keep s0 s) : ∀ a1, ∃ t, execReleaseDelay a1 s = .next t ∧ Keep s0 t :=
  fun _ => ⟨_, rfl, State.settle_keep (State.releaseDelay_keep h _)⟩

theorem execWindowLeaseExpire_keep (h : Keep s0 s) : ∀ a1, ∃ t, execWindowLeaseExpire a1 s = .next t ∧ Keep s0 t :=
  fun _ => ⟨_, rfl, State.settle_keep (State.leaseExpire_keep h _)⟩

theorem execCacheHoldExpire_keep (h : Keep s0 s) : ∀ a1 a2 a3, ∃ t, execCacheHoldExpire a1 a2 a3 s = .next t ∧ Keep s0 t :=
  fun _ _ _ => ⟨_, rfl, State.settle_keep (State.cacheExpire_keep h _ _ _)⟩

theorem execCasPartExpire_keep (h : Keep s0 s) : ∀ a1 a2 a3, ∃ t, execCasPartExpire a1 a2 a3 s = .next t ∧ Keep s0 t :=
  fun _ _ _ => ⟨_, rfl, State.settle_keep (State.casExpire_keep h _ _ _)⟩

theorem execTagQuarantineExpire_keep (h : Keep s0 s) : ∀ a1, ∃ t, execTagQuarantineExpire a1 s = .next t ∧ Keep s0 t :=
  fun _ => ⟨_, rfl, State.settle_keep (State.quarantineEnd_keep h _)⟩

end Sys2Proof.Machine
end

