-- ==== Sys2Proof/Laws/KeepHostPort.lean ====
section
/-! SUPPORT. What the operations of HostPort.lean keep: a lemma for each. -/
set_option Elab.async false
namespace Sys2Proof.Machine
open Sys2Proof Sys2Proof.Bits

variable {s0 s : State}

theorem State.accFlush_keep (h : Keep s0 s) : Keep s0 (State.accFlush s) := by
  unfold State.accFlush
  exact State.onXlt_keep (Keep.foldl (fun _ _ h3 => State.flushLeaf_keep h3 _) _ h) _

theorem State.ackVector_keep (h : Keep s0 s) : ∀ a1 a2, Keep s0 (State.ackVector s a1 a2) := by
  intro a1 a2
  unfold State.ackVector
  split
  · exact State.assertVector_keep h _
  · exact State.setVector_keep h _ _

theorem State.answerHcp_keep (h : Keep s0 s) : ∀ a1, Keep s0 (State.answerHcp s a1) := by
  intro a1
  unfold State.answerHcp
  exact State.onHcp_keep h

theorem State.doorbell_keep (h : Keep s0 s) : ∀ a1 a2, Keep s0 (State.doorbell s a1 a2) := by
  intro a1 a2
  unfold State.doorbell
  extract_lets x1 x2
  split
  · exact State.raiseCtx_keep (State.bumpAt_keep h _ _) _ _ _
  · exact State.onHcp_keep h

theorem State.failItem_keep (h : Keep s0 s) : ∀ a1 a2, Keep s0 (State.failItem s a1 a2) := by
  intro a1 a2
  unfold State.failItem
  extract_lets x1
  split
  · exact h
  · split
    · exact h
    · extract_lets x2 x3 x4 x5 x6
      have kx6 : Keep s0 x6 := State.onTxn_keep h _ _
      split
      · exact State.checkTxn_keep (State.onTxn_keep (State.onRmt_keep kx6 _) _ _) _
      · exact State.onRmt_keep kx6 _

theorem State.faultRecordWrite_keep (h : Keep s0 s) : Keep s0 (State.faultRecordWrite s) := by
  unfold State.faultRecordWrite
  split
  · exact h
  · exact State.onHcp_keep h

theorem State.fqHead_keep (h : Keep s0 s) : ∀ a1, Keep s0 (State.fqHead s a1) := by
  intro a1
  unfold State.fqHead
  split
  · exact State.answerHcp_keep (State.onHcp_keep h) _
  · exact State.answerHcp_keep h _

theorem State.staleAnswer_keep (h : Keep s0 s) : ∀ a1, Keep s0 (State.staleAnswer s a1) := by
  intro a1
  unfold State.staleAnswer
  exact State.assignIds_keep (State.bump_keep (State.onXlt_keep h _) _)

theorem State.refuseAccess_keep (h : Keep s0 s) : ∀ a1 a2 a3, Keep s0 (State.refuseAccess s a1 a2 a3) := by
  intro a1 a2 a3
  unfold State.refuseAccess
  split
  · exact State.refuseDispatcher_keep h _ _
  · exact State.failItem_keep h _ _
  · exact State.collFault_keep h _
  · exact State.taskError_keep h _ _
  · split
    · exact State.failService_keep h _ _ _
    · split
      · exact State.failItem_keep h _ _
      · exact State.taskError_keep h _ _
  · exact h
  · split
    · exact State.refuseParked_keep h _
    · exact h

theorem State.resolveRefuse_keep (h : Keep s0 s) : ∀ a1, Keep s0 (State.resolveRefuse s a1) := by
  intro a1
  unfold State.resolveRefuse
  split
  · exact State.staleAnswer_keep h _
  · extract_lets x1
    have kx1 : Keep s0 x1 := State.raiseCtx_keep (State.assignIds_keep (State.onXlt_keep h _)) _ _ _
    exact State.runOrdered_keep (Keep.foldl (fun _ _ h4 => State.refuseAccess_keep h4 _ _ _) _ kx1) _

theorem State.retryAccess_keep (h : Keep s0 s) : ∀ a1 a2, Keep s0 (State.retryAccess s a1 a2) := by
  intro a1 a2
  unfold State.retryAccess
  split
  · exact State.writeRecords_keep h _
  · split
    · exact State.retryParked_keep h _
    · exact h
  · exact h

theorem State.resolveRetry_keep (h : Keep s0 s) : ∀ a1, Keep s0 (State.resolveRetry s a1) := by
  intro a1
  unfold State.resolveRetry
  split
  · exact State.staleAnswer_keep h _
  · extract_lets x1 x2
    have kx2 : Keep s0 x2 := State.invalidate_keep (State.onXlt_keep h _) _ _ _
    exact State.runOrdered_keep (Keep.foldl (fun _ _ h5 => State.retryAccess_keep h5 _ _) _ (State.assignIds_keep kx2)) _

theorem State.fqWord_keep (h : Keep s0 s) : ∀ a1 a2 a3, Keep s0 (State.fqWord s a1 a2 a3) := by
  intro a1 a2 a3
  unfold State.fqWord
  extract_lets x1 x2 x3 x4
  have kx2 : ∀ p1, Keep s0 (x2 p1) := fun _ => State.answerHcp_keep (State.onHcp_keep h) _
  split
  · exact kx2 _
  · split
    · exact kx2 _
    · exact State.answerHcp_keep h _
  · exact State.answerHcp_keep h _
  · exact State.fqHead_keep h _
  · exact kx2 _
  · refine State.answerHcp_keep ?_ _
    split
    · exact State.resolveRefuse_keep h _
    · exact State.resolveRetry_keep h _
  · exact State.answerHcp_keep h _
  · exact State.answerHcp_keep h _

theorem State.hcpStall_keep (h : Keep s0 s) : Keep s0 (State.hcpStall s) := by
  unfold State.hcpStall
  split
  · exact h
  · exact State.raise_keep (State.onHcp_keep h) _ _ _ _

theorem State.unmaskVector_keep (h : Keep s0 s) : ∀ a1, Keep s0 (State.unmaskVector s a1) := by
  intro a1
  unfold State.unmaskVector
  extract_lets x1 x2
  split
  · split
    · exact State.setVector_keep h _ _
    · exact State.setVector_keep (State.queueMessage_keep h _) _ _
    · split
      · exact State.setVector_keep (State.queueMessage_keep h _) _ _
      · exact State.setVector_keep h _ _
  · exact State.setVector_keep h _ _

theorem State.vectorWord_keep (h : Keep s0 s) : ∀ a1 a2 a3, Keep s0 (State.vectorWord s a1 a2 a3) := by
  intro a1 a2 a3
  unfold State.vectorWord
  extract_lets x1 x2 x3 x4
  have kx3 : Keep s0 x3 := State.setVector_keep h _ _
  have kx4 : Keep s0 x4 := by
    unfold x4
    split
    · exact kx3
    · exact State.unmaskVector_keep kx3 _
  split
  · exact State.ackVector_keep kx4 _ _
  · exact kx4

theorem State.pumpInv_keep (h : Keep s0 s) : ∀ a1, Keep s0 (State.pumpInv s a1) := by
  intro a1
  induction a1 generalizing s with
  | zero =>
    unfold State.pumpInv
    exact h
  | succ n ih =>
    unfold State.pumpInv
    split
    · exact h
    · exact ih (State.onHcp_keep h)

theorem State.pumpIq_keep (h : Keep s0 s) : Keep s0 (State.pumpIq s) := by
  unfold State.pumpIq
  exact State.pumpInv_keep h _

theorem State.iqHead_keep (h : Keep s0 s) : ∀ a1, Keep s0 (State.iqHead s a1) := by
  intro a1
  unfold State.iqHead
  split
  · exact State.pumpIq_keep (State.answerHcp_keep (State.onHcp_keep h) _)
  · exact State.answerHcp_keep h _

theorem State.invGo_keep (h : Keep s0 s) : ∀ a1 a2 a3, Keep s0 (s.invGo a1 a2 a3) := by
  intro a1 a2 a3
  unfold State.invGo
  split
  · exact State.answerHcp_keep h _
  · exact State.answerHcp_keep (State.invalidate_keep (Keep.hcp h fun _ => by simp; omega) _ _ _) _

theorem State.iqWord_keep (h : Keep s0 s) : ∀ a1 a2 a3, Keep s0 (State.iqWord s a1 a2 a3) := by
  intro a1 a2 a3
  unfold State.iqWord
  extract_lets x1 x2 x3 x4
  have kx2 : ∀ p1, Keep s0 (x2 p1) := fun _ => State.pumpIq_keep (State.answerHcp_keep (State.onHcp_keep h) _)
  split
  · exact kx2 _
  · split
    · exact kx2 _
    · exact State.answerHcp_keep h _
  · exact State.answerHcp_keep h _
  · exact State.iqHead_keep h _
  · exact kx2 _
  · exact State.answerHcp_keep (State.onHcp_keep h) _
  · exact State.answerHcp_keep (State.onHcp_keep h) _
  · exact State.invGo_keep h _ _ _
  · exact State.answerHcp_keep h _
  · exact State.answerHcp_keep h _

theorem State.hcpWrite_keep (h : Keep s0 s) : ∀ a1 a2 a3, Keep s0 (State.hcpWrite s a1 a2 a3) := by
  intro a1 a2 a3
  unfold State.hcpWrite
  split
  · exact h
  · split
    · exact State.answerHcp_keep h _
    · split
      · exact State.answerHcp_keep h _
      · split
        · split
          · extract_lets x1
            exact State.answerHcp_keep (State.doorbell_keep h _ _) _
          · exact State.answerHcp_keep h _
        · split
          · extract_lets x2 x3
            split
            · exact State.answerHcp_keep (State.setVector_keep h _ _) _
            · exact State.answerHcp_keep (State.vectorWord_keep h _ _ _) _
          · split
            · exact State.fqWord_keep h _ _ _
            · split
              · exact State.iqWord_keep h _ _ _
              · exact State.answerHcp_keep h _

theorem State.idHoldExpire_keep (h : Keep s0 s) : ∀ a1, Keep s0 (State.idHoldExpire s a1) := by
  intro a1
  unfold State.idHoldExpire
  exact State.assignIds_keep (State.onXlt_keep h _)

theorem State.initiatorWrite_keep (h : Keep s0 s) : Keep s0 (State.initiatorWrite s) := by
  unfold State.initiatorWrite
  split
  · exact h
  · split
    · exact h
    · extract_lets x1 x2
      have kx1 : Keep s0 x1 := State.onHcp_keep h
      split
      · exact kx1
      · exact State.assertVector_keep (State.onHcp_keep kx1) _
      · exact State.assertVector_keep (State.onHcp_keep kx1) _

theorem State.invComplete_keep (h : Keep s0 s) : Keep s0 s.invComplete := by
  unfold State.invComplete
  split
  · exact h
  · next x rest e =>
    split
    · exact h
    · refine State.pumpIq_keep (Keep.hcp ?_ ?_)
      · split
        · exact State.bump_keep h _
        · exact h
      · intro hl
        have he : (if decide (4000 < (s.tclk - x.began) * 32 / 5) = true then s.bump Reg.XLT_INV_LATE else s).hcp.invs
            = x :: rest := by
          split <;> exact e
        rw [he] at hl
        exact Nat.le_of_succ_le hl

theorem State.pageWalk_keep (h : Keep s0 s) : ∀ a1 a2 a3 a4 a5, Keep s0 (State.pageWalk s a1 a2 a3 a4 a5) := by
  intro a1 a2 a3 a4 a5
  unfold State.pageWalk
  extract_lets x1
  have kx1 : Keep s0 x1.2 := State.translate_keep h _ _ _ _ _
  split
  · exact State.xltRaise_keep kx1 _ _ _ _ _
  · exact kx1

theorem State.serviceTimeout_keep (h : Keep s0 s) : ∀ a1 a2 a3, Keep s0 (State.serviceTimeout s a1 a2 a3) := by
  intro a1 a2 a3
  unfold State.serviceTimeout
  extract_lets x1 x2
  have kx2 : Keep s0 x2.2 := State.drawNat_keep h
  split
  · exact h
  · extract_lets x3 x4
    have kx4 : Keep s0 x4 := State.raiseCtx_keep (State.onXlt_keep kx2 _) _ _ _
    exact State.runOrdered_keep (Keep.foldl (fun _ _ h7 => State.refuseAccess_keep h7 _ _ _) _ kx4) _

end Sys2Proof.Machine
end

