-- ==== Sys2Proof/Laws/KeepEachReset.lean ====
section
/-! SUPPORT. What the commands of CmdReset.lean keep: each answers a next state, and what that state keeps. -/
set_option Elab.async false
namespace Sys2Proof.Machine
open Sys2Proof Sys2Proof.Bits

variable {s0 s : State}

theorem execPorNAssert_kept (s : State) : ∃ t, execPorNAssert s = .next t ∧ s.Kept t := by
  have k := State.porReset_kept s
  have h := (State.settle_keep (Keep.refl s.porReset)).kept
  exact ⟨_, rfl, h.build.trans k.build, h.pending.trans k.pending, h.tclk.trans k.tclk, Nat.le_trans k.free h.free,
    fun n e => h.revoked n (k.revoked n e), fun e => h.sound (k.sound e)⟩

theorem execBlkRstNAssert_keep (h : Keep s0 s) : ∃ t, execBlkRstNAssert s = .next t ∧ Keep s0 t :=
  ⟨_, rfl, State.settle_keep (State.blkReset_keep h)⟩

theorem execTrstNAssert_keep (h : Keep s0 s) : ∃ t, execTrstNAssert s = .next t ∧ Keep s0 t :=
  ⟨_, rfl, State.settle_keep (State.onTap_keep h _)⟩

theorem execResetRelease_keep (h : Keep s0 s) : ∀ a1, ∃ t, execResetRelease a1 s = .next t ∧ Keep s0 t :=
  fun _ => ⟨_, rfl, State.settle_keep (State.releaseReset_keep h _)⟩

theorem execResetStretcherEnd_keep (h : Keep s0 s) : ∃ t, execResetStretcherEnd s = .next t ∧ Keep s0 t :=
  ⟨_, rfl, State.settle_keep (State.stretcherEnd_keep h)⟩

theorem execClockDetected_keep (h : Keep s0 s) : ∀ a1, ∃ t, execClockDetected a1 s = .next t ∧ Keep s0 t :=
  fun _ => ⟨_, rfl, State.settle_keep (State.clockSeen_keep h _)⟩

theorem execTableClearComplete_keep (h : Keep s0 s) : ∃ t, execTableClearComplete s = .next t ∧ Keep s0 t :=
  ⟨_, rfl, State.settle_keep (State.tablesClear_keep h)⟩

theorem execClkAbsentTimeout_keep (h : Keep s0 s) : ∃ t, execClkAbsentTimeout s = .next t ∧ Keep s0 t :=
  ⟨_, rfl, State.settle_keep (State.clocksAbsent_keep h)⟩

theorem execClockMonitorWindow_keep (h : Keep s0 s) : ∀ a1 a2, ∃ t, execClockMonitorWindow a1 a2 s = .next t ∧ Keep s0 t :=
  fun _ _ => ⟨_, rfl, State.settle_keep (State.clockWindow_keep h _ _)⟩

theorem execPowerRemoved_kept (s : State) : ∃ t, execPowerRemoved s = .next t ∧ s.Kept t := by
  have k := State.powerOff_kept s
  have h := (State.settle_keep (Keep.refl s.powerOff)).kept
  exact ⟨_, rfl, h.build.trans k.build, h.pending.trans k.pending, h.tclk.trans k.tclk, Nat.le_trans k.free h.free,
    fun n e => h.revoked n (k.revoked n e), fun e => h.sound (k.sound e)⟩

theorem execTapScan_keep (h : Keep s0 s) : ∀ a1, ∃ t, execTapScan a1 s = .next t ∧ Keep s0 t :=
  fun _ => ⟨_, rfl, State.settle_keep (State.tapScan_keep h _)⟩

theorem execGmpRequestIssue_keep (h : Keep s0 s) : ∀ a1 a2 a3 a4 a5 a6 a7 a8, ∃ t, execGmpRequestIssue a1 a2 a3 a4 a5 a6 a7 a8 s = .next t ∧ Keep s0 t :=
  fun _ _ _ _ _ _ _ _ => ⟨_, rfl, State.settle_keep (State.gmpIssue_keep h _ _ _)⟩

theorem execGmpWriteDataBeat_keep (h : Keep s0 s) : ∀ a1, ∃ t, execGmpWriteDataBeat a1 s = .next t ∧ Keep s0 t :=
  fun _ => ⟨_, rfl, State.settle_keep (State.gmpDataBeat_keep h _)⟩

theorem execGmpResponseBeat_keep (h : Keep s0 s) : ∀ a1 a2 a3 a4 a5, ∃ t, execGmpResponseBeat a1 a2 a3 a4 a5 s = .next t ∧ Keep s0 t :=
  fun _ _ _ _ _ => ⟨_, rfl, State.settle_keep (State.gmpResponse_keep h _ _ _ _ _)⟩

theorem execGmpStallTimeout_keep (h : Keep s0 s) : ∀ a1 a2, ∃ t, execGmpStallTimeout a1 a2 s = .next t ∧ Keep s0 t :=
  fun _ _ => ⟨_, rfl, State.settle_keep (State.gmpStall_keep h _ _)⟩

theorem execGmpPortDisable_keep (h : Keep s0 s) : ∀ a1, ∃ t, execGmpPortDisable a1 s = .next t ∧ Keep s0 t :=
  fun _ => ⟨_, rfl, State.settle_keep (State.portOff_keep h _)⟩

theorem execGmpPortEnable_keep (h : Keep s0 s) : ∀ a1, ∃ t, execGmpPortEnable a1 s = .next t ∧ Keep s0 t :=
  fun _ => ⟨_, rfl, State.settle_keep (State.portOn_keep h _)⟩

theorem execHcpRegisterWrite_keep (h : Keep s0 s) : ∀ a1 a2 a3, ∃ t, execHcpRegisterWrite a1 a2 a3 s = .next t ∧ Keep s0 t :=
  fun _ _ _ => ⟨_, rfl, State.settle_keep (State.hcpWrite_keep h _ _ _)⟩

theorem execDoorbellWrite_keep (h : Keep s0 s) : ∀ a1 a2, ∃ t, execDoorbellWrite a1 a2 s = .next t ∧ Keep s0 t :=
  fun _ _ => ⟨_, rfl, State.settle_keep (State.doorbell_keep h _ _)⟩

theorem execIvAck_keep (h : Keep s0 s) : ∀ a1 a2, ∃ t, execIvAck a1 a2 s = .next t ∧ Keep s0 t :=
  fun _ _ => ⟨_, rfl, State.settle_keep (State.ackVector_keep h _ _)⟩

theorem execIvUnmask_keep (h : Keep s0 s) : ∀ a1, ∃ t, execIvUnmask a1 s = .next t ∧ Keep s0 t :=
  fun _ => ⟨_, rfl, State.settle_keep (State.unmaskVector_keep h _)⟩

theorem execHcpInitiatorWrite_keep (h : Keep s0 s) : ∃ t, execHcpInitiatorWrite s = .next t ∧ Keep s0 t :=
  ⟨_, rfl, State.settle_keep (State.initiatorWrite_keep h)⟩

theorem execHcpStallTimeout_keep (h : Keep s0 s) : ∃ t, execHcpStallTimeout s = .next t ∧ Keep s0 t :=
  ⟨_, rfl, State.settle_keep (State.hcpStall_keep h)⟩

theorem execFqHeadWrite_keep (h : Keep s0 s) : ∀ a1, ∃ t, execFqHeadWrite a1 s = .next t ∧ Keep s0 t :=
  fun _ => ⟨_, rfl, State.settle_keep (State.fqHead_keep h _)⟩

theorem execFqResolveRetry_keep (h : Keep s0 s) : ∀ a1, ∃ t, execFqResolveRetry a1 s = .next t ∧ Keep s0 t :=
  fun _ => ⟨_, rfl, State.settle_keep (State.resolveRetry_keep h _)⟩

theorem execFqResolveRefuse_keep (h : Keep s0 s) : ∀ a1, ∃ t, execFqResolveRefuse a1 s = .next t ∧ Keep s0 t :=
  fun _ => ⟨_, rfl, State.settle_keep (State.resolveRefuse_keep h _)⟩

theorem execIqHeadWrite_keep (h : Keep s0 s) : ∀ a1, ∃ t, execIqHeadWrite a1 s = .next t ∧ Keep s0 t :=
  fun _ => ⟨_, rfl, State.settle_keep (State.iqHead_keep h _)⟩

theorem execInvGo_keep (h : Keep s0 s) : ∀ a1 a2 a3, ∃ t, execInvGo a1 a2 a3 s = .next t ∧ Keep s0 t :=
  fun _ _ _ => ⟨_, rfl, State.settle_keep (State.invGo_keep h _ _ _)⟩

theorem execInvComplete_keep (h : Keep s0 s) : ∃ t, execInvComplete s = .next t ∧ Keep s0 t :=
  ⟨_, rfl, State.settle_keep (State.invComplete_keep h)⟩

theorem execPageWalk_keep (h : Keep s0 s) : ∀ a1 a2 a3 a4 a5, ∃ t, execPageWalk a1 a2 a3 a4 a5 s = .next t ∧ Keep s0 t :=
  fun _ _ _ _ _ => ⟨_, rfl, State.settle_keep (State.pageWalk_keep h _ _ _ _ _)⟩

theorem execFaultRecordWrite_keep (h : Keep s0 s) : ∃ t, execFaultRecordWrite s = .next t ∧ Keep s0 t :=
  ⟨_, rfl, State.settle_keep (State.faultRecordWrite_keep h)⟩

theorem execXltServiceTimeout_keep (h : Keep s0 s) : ∀ a1 a2 a3, ∃ t, execXltServiceTimeout a1 a2 a3 s = .next t ∧ Keep s0 t :=
  fun _ _ _ => ⟨_, rfl, State.settle_keep (State.serviceTimeout_keep h _ _ _)⟩

theorem execFaultIdHoldExpire_keep (h : Keep s0 s) : ∀ a1, ∃ t, execFaultIdHoldExpire a1 s = .next t ∧ Keep s0 t :=
  fun _ => ⟨_, rfl, State.settle_keep (State.idHoldExpire_keep h _)⟩

theorem execXltAccFlush_keep (h : Keep s0 s) : ∃ t, execXltAccFlush s = .next t ∧ Keep s0 t :=
  ⟨_, rfl, State.settle_keep (State.accFlush_keep h)⟩

theorem execXltPtRootWrite_keep (h : Keep s0 s) : ∀ a1 a2 a3, ∃ t, execXltPtRootWrite a1 a2 a3 s = .next t ∧ Keep s0 t :=
  fun _ _ _ => ⟨_, rfl, State.settle_keep (State.command_keep h _ _ _ _ _ (fun _ h2 => State.ptRootAct_keep h2 _ _))⟩

end Sys2Proof.Machine
end

