-- ==== Sys2Proof/Laws/KeepEachTask.lean ====
section
/-! SUPPORT. What the commands of CmdTask.lean keep: each answers a next state, and what that state keeps. -/
set_option Elab.async false
namespace Sys2Proof.Machine
open Sys2Proof Sys2Proof.Bits

variable {s0 s : State}

theorem execCtxOpen_keep (h : Keep s0 s) : ∀ a1 a2, ∃ t, execCtxOpen a1 a2 s = .next t ∧ Keep s0 t :=
  fun _ _ => ⟨_, rfl, State.settle_keep (State.command_keep h _ _ _ _ _ (fun _ h2 => State.ctxOpenAct_keep h2 _))⟩

theorem execCtxClose_keep (h : Keep s0 s) : ∀ a1 a2, ∃ t, execCtxClose a1 a2 s = .next t ∧ Keep s0 t :=
  fun _ _ => ⟨_, rfl, State.settle_keep (State.command_keep h _ _ _ _ _ (fun _ h2 => State.ctxCloseAct_keep h2 _))⟩

theorem execCtxResume_keep (h : Keep s0 s) : ∀ a1 a2, ∃ t, execCtxResume a1 a2 s = .next t ∧ Keep s0 t :=
  fun _ _ => ⟨_, rfl, State.settle_keep (State.command_keep h _ _ _ _ _ (fun _ h2 => State.ctxResumeAct_keep h2 _))⟩

theorem execCtxCoresWrite_keep (h : Keep s0 s) : ∀ a1 a2 a3, ∃ t, execCtxCoresWrite a1 a2 a3 s = .next t ∧ Keep s0 t :=
  fun _ _ _ => ⟨_, rfl, State.settle_keep (State.command_keep h _ _ _ _ _ (fun _ h2 => State.ctxCoresAct_keep h2 _ _))⟩

theorem execSubmissionRead_keep (h : Keep s0 s) : ∀ a1, ∃ t, execSubmissionRead a1 s = .next t ∧ Keep s0 t :=
  fun _ => ⟨_, rfl, State.settle_keep (State.submissionRead_keep h _)⟩

theorem execTaskAdmit_keep (h : Keep s0 s) : ∀ a1, ∃ t, execTaskAdmit a1 s = .next t ∧ Keep s0 t :=
  fun _ => ⟨_, rfl, State.settle_keep (State.taskAdmit_keep h _)⟩

theorem execTaskStart_keep (h : Keep s0 s) : ∃ t, execTaskStart s = .next t ∧ Keep s0 t :=
  ⟨_, rfl, State.settle_keep (State.taskStart_keep h)⟩

theorem execTaskEnd_keep (h : Keep s0 s) : ∀ a1, ∃ t, execTaskEnd a1 s = .next t ∧ Keep s0 t :=
  fun _ => ⟨_, rfl, State.settle_keep (State.taskEnd_keep h _)⟩

theorem execCtxImageLoad_keep (h : Keep s0 s) : ∀ a1 a2, ∃ t, execCtxImageLoad a1 a2 s = .next t ∧ Keep s0 t :=
  fun _ _ => ⟨_, rfl, State.settle_keep (State.command_keep h _ _ _ _ _ (fun _ h2 => State.imageLoadAct_keep h2 _))⟩

theorem execImageVerifyComplete_keep (h : Keep s0 s) : ∀ a1, ∃ t, execImageVerifyComplete a1 s = .next t ∧ Keep s0 t :=
  fun _ => ⟨_, rfl, State.settle_keep (State.imageVerified_keep h _)⟩

theorem execImgPushGo_keep (h : Keep s0 s) : ∀ a1, ∃ t, execImgPushGo a1 s = .next t ∧ Keep s0 t :=
  fun _ => ⟨_, rfl, State.settle_keep (State.command_keep h _ _ _ _ _ (fun _ h2 => State.pushAct_keep h2))⟩

theorem execImageLoadReceive_keep (h : Keep s0 s) : ∀ a1, ∃ t, execImageLoadReceive a1 s = .next t ∧ Keep s0 t :=
  fun _ => ⟨_, rfl, State.settle_keep (State.receive_keep h _ _ _)⟩

end Sys2Proof.Machine
end

