-- ==== Sys2Proof/Laws/Lists.lean ====
section
/-! SUPPORT. The list operations of the model at a list written out around the element they meet. -/
set_option Elab.async false
namespace Sys2Proof.Bits

variable {α : Type} {p : α → Bool} {f : α → α} {a b : List α} {x : α}

/-- The first element that a test accepts is the one replaced. -/
theorem updFirst_split (hx : p x = true) (ha : ∀ y ∈ a, p y = false) : updFirst p f (a ++ x :: b) = a ++ f x :: b := by
  induction a with
  | nil => simp [updFirst, hx]
  | cons z a ih =>
    simp [updFirst, ha z (List.mem_cons_self ..), ih fun y hy => ha y (List.mem_cons_of_mem _ hy)]

/-- The first element that a test accepts is the one that leaves. -/
theorem dropFirst_split (hx : p x = true) (ha : ∀ y ∈ a, p y = false) : dropFirst p (a ++ x :: b) = a ++ b := by
  induction a with
  | nil => simp [dropFirst, hx]
  | cons z a ih =>
    simp [dropFirst, ha z (List.mem_cons_self ..), ih fun y hy => ha y (List.mem_cons_of_mem _ hy)]

/-- The first element that a test accepts is the one found. -/
theorem find?_split (hx : p x = true) (ha : ∀ y ∈ a, p y = false) : (a ++ x :: b).find? p = some x := by
  induction a with
  | nil => simp [hx]
  | cons z a ih =>
    simp [ha z (List.mem_cons_self ..), ih fun y hy => ha y (List.mem_cons_of_mem _ hy)]

end Sys2Proof.Bits
end

