-- ==== Sys2Proof/Laws/Raise.lean ====
section
/-! SUPPORT. What raising a fault source leaves alone: everything but the dictionary, fault handling, the host port's
records, Ontan and the packets that wait. -/
set_option Elab.async false
namespace Sys2Proof.Machine
open Sys2Proof Sys2Proof.Bits

/-- Two states that agree but for the dictionary, fault handling, the host port, Ontan and waiting packets. -/
structure SameButFaults (s t : State) : Prop where
  build : t.build = s.build
  blk : t.blk = s.blk
  rst : t.rst = s.rst
  tclk : t.tclk = s.tclk
  free : t.free = s.free
  revoked : t.revoked = s.revoked
  ports : t.ports = s.ports
  pmi : t.pmi = s.pmi
  i3c : t.i3c = s.i3c
  tap : t.tap = s.tap
  cad : t.cad = s.cad
  xlt : t.xlt = s.xlt
  mem : t.mem = s.mem
  memPoison : t.memPoison = s.memPoison
  memAnswers : t.memAnswers = s.memAnswers
  spad : t.spad = s.spad
  spadWritten : t.spadWritten = s.spadWritten
  spadPoison : t.spadPoison = s.spadPoison
  sems : t.sems = s.sems
  counters : t.counters = s.counters
  links : t.links = s.links
  rmt : t.rmt = s.rmt
  cores : t.cores = s.cores
  far : t.far = s.far
  ctxs : t.ctxs = s.ctxs
  disp : t.disp = s.disp
  pwr : t.pwr = s.pwr
  trc : t.trc = s.trc
  pending : t.pending = s.pending

variable {s0 s : State}

theorem SameButFaults.refl (s : State) : SameButFaults s s :=
  ⟨rfl, rfl, rfl, rfl, rfl, rfl, rfl, rfl, rfl, rfl, rfl, rfl, rfl, rfl, rfl, rfl, rfl, rfl, rfl, rfl, rfl, rfl, rfl, rfl, rfl, rfl, rfl, rfl, rfl⟩

/-- A further change of the parts that a fault may change. -/
theorem SameButFaults.upd {hcp ont flt pkt dict} (h : SameButFaults s0 s) :
    SameButFaults s0 { s with hcp := hcp, ont := ont, flt := flt, pkt := pkt, dict := dict } :=
  ⟨h.build, h.blk, h.rst, h.tclk, h.free, h.revoked, h.ports, h.pmi, h.i3c, h.tap, h.cad, h.xlt, h.mem, h.memPoison, h.memAnswers, h.spad, h.spadWritten, h.spadPoison, h.sems, h.counters, h.links, h.rmt, h.cores, h.far, h.ctxs, h.disp, h.pwr, h.trc, h.pending⟩

theorem State.setReg_same (h : SameButFaults s0 s) (k v : Nat) : SameButFaults s0 (s.setReg k v) := h.upd

theorem State.onFlt_same (h : SameButFaults s0 s) (f : FaultState → FaultState) : SameButFaults s0 (s.onFlt f) := h.upd

theorem State.sendPkt_same (h : SameButFaults s0 s) (c : Option Nat) (p : Packet) : SameButFaults s0 (s.sendPkt c p) := by
  unfold State.sendPkt State.sendAvoiding
  dsimp only
  split
  · exact h.upd
  · exact h.upd

theorem State.sendEvent_same (h : SameButFaults s0 s) : SameButFaults s0 s.sendEvent := by
  unfold State.sendEvent
  split
  · exact h
  · extract_lets count carrier dest
    clear_value carrier
    split
    · exact h
    · extract_lets x msg o s1
      split
      · exact h.upd
      · exact h.upd
      · exact State.sendPkt_same h.upd _ _

theorem State.pushEvent_same (h : SameButFaults s0 s) (q : List EventRec) (r : EventRec) : SameButFaults s0 (s.pushEvent q r) := by
  unfold State.pushEvent
  extract_lets was s1 s2
  have h2 : SameButFaults s0 s2 := by
    unfold s2
    split
    · exact h.upd
    · exact h.upd
  split
  · exact State.sendEvent_same h2
  · exact h2

theorem State.queueEvent_same (h : SameButFaults s0 s) (r : EventRec) : SameButFaults s0 (s.queueEvent r) := by
  unfold State.queueEvent
  split
  · exact State.pushEvent_same h _ _
  · split
    · exact h.upd
    · extract_lets rest
      split
      · exact State.pushEvent_same h.upd _ _
      · exact h.upd

theorem State.queueByClass_same (h : SameButFaults s0 s) (r : EventRec) : SameButFaults s0 (s.queueByClass r) := by
  unfold State.queueByClass
  split
  · exact State.queueEvent_same h _
  · exact h

theorem State.startTimer_same (h : SameButFaults s0 s) (t : EscTimer) : SameButFaults s0 (s.startTimer t) := by
  unfold State.startTimer
  repeat' split
  all_goals first | exact h | exact h.upd

theorem State.noteSevere_same (h : SameButFaults s0 s) (x : Source) (r : EventRec) : SameButFaults s0 (s.noteSevere x r) :=
  State.onFlt_same (State.setReg_same h _ _) _

theorem State.countEvent_same (h : SameButFaults s0 s) (x : Source) (p : FaultClass × Bool × Nat) :
    SameButFaults s0 (s.countEvent x p) :=
  State.onFlt_same (State.setReg_same (State.setReg_same (State.setReg_same h _ _) _ _) _ _) _

theorem State.raiseOne_same (h : SameButFaults s0 s) (x : Source) (u : UnitName) (c d : Nat) :
    SameButFaults s0 (s.raiseOne x u c d).2 := by
  unfold State.raiseOne
  extract_lets p r s1
  have h1 : SameButFaults s0 s1 := State.queueByClass_same (State.countEvent_same h _ _) _
  split
  · exact h1
  · exact State.startTimer_same (State.noteSevere_same h1 _ _) _

theorem State.startPcyc_same (h : SameButFaults s0 s) : SameButFaults s0 s.startPcyc := h.upd

/-- Raising a fault source changes nothing but the parts named. -/
theorem State.raise_same (h : SameButFaults s0 s) (x : Source) (u : UnitName) (c d : Nat) : SameButFaults s0 (s.raise x u c d) := by
  unfold State.raise
  extract_lets r
  have h1 : SameButFaults s0 r.2 := State.raiseOne_same h _ _ _ _
  split
  · split
    · exact State.startPcyc_same h1
    · exact State.startPcyc_same (State.raiseOne_same (State.startPcyc_same h1) _ _ _ _)
  · exact h1

@[simp] theorem State.raise_build (s : State) (x : Source) (u : UnitName) (c d : Nat) : (s.raise x u c d).build = s.build :=
  (State.raise_same (.refl s) x u c d).build
@[simp] theorem State.raise_blk (s : State) (x : Source) (u : UnitName) (c d : Nat) : (s.raise x u c d).blk = s.blk :=
  (State.raise_same (.refl s) x u c d).blk
@[simp] theorem State.raise_rst (s : State) (x : Source) (u : UnitName) (c d : Nat) : (s.raise x u c d).rst = s.rst :=
  (State.raise_same (.refl s) x u c d).rst
@[simp] theorem State.raise_tclk (s : State) (x : Source) (u : UnitName) (c d : Nat) : (s.raise x u c d).tclk = s.tclk :=
  (State.raise_same (.refl s) x u c d).tclk
@[simp] theorem State.raise_free (s : State) (x : Source) (u : UnitName) (c d : Nat) : (s.raise x u c d).free = s.free :=
  (State.raise_same (.refl s) x u c d).free
@[simp] theorem State.raise_revoked (s : State) (x : Source) (u : UnitName) (c d : Nat) : (s.raise x u c d).revoked = s.revoked :=
  (State.raise_same (.refl s) x u c d).revoked
@[simp] theorem State.raise_ports (s : State) (x : Source) (u : UnitName) (c d : Nat) : (s.raise x u c d).ports = s.ports :=
  (State.raise_same (.refl s) x u c d).ports
@[simp] theorem State.raise_pmi (s : State) (x : Source) (u : UnitName) (c d : Nat) : (s.raise x u c d).pmi = s.pmi :=
  (State.raise_same (.refl s) x u c d).pmi
@[simp] theorem State.raise_i3c (s : State) (x : Source) (u : UnitName) (c d : Nat) : (s.raise x u c d).i3c = s.i3c :=
  (State.raise_same (.refl s) x u c d).i3c
@[simp] theorem State.raise_tap (s : State) (x : Source) (u : UnitName) (c d : Nat) : (s.raise x u c d).tap = s.tap :=
  (State.raise_same (.refl s) x u c d).tap
@[simp] theorem State.raise_cad (s : State) (x : Source) (u : UnitName) (c d : Nat) : (s.raise x u c d).cad = s.cad :=
  (State.raise_same (.refl s) x u c d).cad
@[simp] theorem State.raise_xlt (s : State) (x : Source) (u : UnitName) (c d : Nat) : (s.raise x u c d).xlt = s.xlt :=
  (State.raise_same (.refl s) x u c d).xlt
@[simp] theorem State.raise_mem (s : State) (x : Source) (u : UnitName) (c d : Nat) : (s.raise x u c d).mem = s.mem :=
  (State.raise_same (.refl s) x u c d).mem
@[simp] theorem State.raise_memPoison (s : State) (x : Source) (u : UnitName) (c d : Nat) : (s.raise x u c d).memPoison = s.memPoison :=
  (State.raise_same (.refl s) x u c d).memPoison
@[simp] theorem State.raise_memAnswers (s : State) (x : Source) (u : UnitName) (c d : Nat) : (s.raise x u c d).memAnswers = s.memAnswers :=
  (State.raise_same (.refl s) x u c d).memAnswers
@[simp] theorem State.raise_spad (s : State) (x : Source) (u : UnitName) (c d : Nat) : (s.raise x u c d).spad = s.spad :=
  (State.raise_same (.refl s) x u c d).spad
@[simp] theorem State.raise_spadWritten (s : State) (x : Source) (u : UnitName) (c d : Nat) : (s.raise x u c d).spadWritten = s.spadWritten :=
  (State.raise_same (.refl s) x u c d).spadWritten
@[simp] theorem State.raise_spadPoison (s : State) (x : Source) (u : UnitName) (c d : Nat) : (s.raise x u c d).spadPoison = s.spadPoison :=
  (State.raise_same (.refl s) x u c d).spadPoison
@[simp] theorem State.raise_sems (s : State) (x : Source) (u : UnitName) (c d : Nat) : (s.raise x u c d).sems = s.sems :=
  (State.raise_same (.refl s) x u c d).sems
@[simp] theorem State.raise_counters (s : State) (x : Source) (u : UnitName) (c d : Nat) : (s.raise x u c d).counters = s.counters :=
  (State.raise_same (.refl s) x u c d).counters
@[simp] theorem State.raise_links (s : State) (x : Source) (u : UnitName) (c d : Nat) : (s.raise x u c d).links = s.links :=
  (State.raise_same (.refl s) x u c d).links
@[simp] theorem State.raise_rmt (s : State) (x : Source) (u : UnitName) (c d : Nat) : (s.raise x u c d).rmt = s.rmt :=
  (State.raise_same (.refl s) x u c d).rmt
@[simp] theorem State.raise_cores (s : State) (x : Source) (u : UnitName) (c d : Nat) : (s.raise x u c d).cores = s.cores :=
  (State.raise_same (.refl s) x u c d).cores
@[simp] theorem State.raise_far (s : State) (x : Source) (u : UnitName) (c d : Nat) : (s.raise x u c d).far = s.far :=
  (State.raise_same (.refl s) x u c d).far
@[simp] theorem State.raise_ctxs (s : State) (x : Source) (u : UnitName) (c d : Nat) : (s.raise x u c d).ctxs = s.ctxs :=
  (State.raise_same (.refl s) x u c d).ctxs
@[simp] theorem State.raise_disp (s : State) (x : Source) (u : UnitName) (c d : Nat) : (s.raise x u c d).disp = s.disp :=
  (State.raise_same (.refl s) x u c d).disp
@[simp] theorem State.raise_pwr (s : State) (x : Source) (u : UnitName) (c d : Nat) : (s.raise x u c d).pwr = s.pwr :=
  (State.raise_same (.refl s) x u c d).pwr
@[simp] theorem State.raise_trc (s : State) (x : Source) (u : UnitName) (c d : Nat) : (s.raise x u c d).trc = s.trc :=
  (State.raise_same (.refl s) x u c d).trc
@[simp] theorem State.raise_pending (s : State) (x : Source) (u : UnitName) (c d : Nat) : (s.raise x u c d).pending = s.pending :=
  (State.raise_same (.refl s) x u c d).pending

end Sys2Proof.Machine
end

