-- ==== Sys2Proof/Laws/Units.lean ====
section
/-! SUPPORT. What loops over units keep, and what clocks, ports and kickstand mode do to the parts they name. -/
set_option Elab.async false
namespace Sys2Proof.Machine
open Sys2Proof Sys2Proof.Bits

/-- A loop whose steps keep a property keeps it. -/
theorem foldl_keeps {α β : Type} (P : β → Prop) {f : β → α → β} (hf : ∀ b a, P b → P (f b a)) (l : List α) (b : β)
    (h : P b) : P (l.foldl f b) := by
  induction l generalizing b with
  | nil => exact h
  | cons a l ih => exact ih _ (hf _ _ h)

/-- A loop whose steps leave a part alone leaves it alone. -/
theorem foldl_same {α β γ : Type} (g : β → γ) {f : β → α → β} (hf : ∀ b a, g (f b a) = g b) (l : List α) (b : β) :
    g (l.foldl f b) = g b :=
  foldl_keeps (fun x => g x = g b) (fun x a h => (hf x a).trans h) l b rfl

@[simp] theorem State.clockFault_blk (s : State) (c : ClockId) (on : Bool) : (s.clockFault c on).blk = s.blk := by
  unfold State.clockFault; cases c <;> rfl

@[simp] theorem State.clockFault_rst (s : State) (c : ClockId) (on : Bool) : (s.clockFault c on).rst = s.rst := by
  unfold State.clockFault; cases c <;> rfl

@[simp] theorem State.disabledAccess_blk (s : State) (k : Nat) (r : GmpReq) : (s.disabledAccess k r).blk = s.blk := by
  unfold State.disabledAccess; rw [State.raise_blk]; rfl

@[simp] theorem State.disablePort_blk (s : State) (k : Nat) : (s.disablePort k).blk = s.blk := by
  unfold State.disablePort
  extract_lets p off
  split
  · rfl
  · rw [foldl_same State.blk fun t r => State.disabledAccess_blk t k r]; rfl

theorem State.port_congr {s t : State} (h : t.ports = s.ports) (k : Nat) : t.port k = s.port k := by
  unfold State.port; rw [h]

/-- A port that becomes disabled is disabled, with nothing outstanding and nothing held. -/
theorem State.disablePort_disabled {s : State} (h : Table.wf PortState.idle s.ports = true) (k : Nat) :
    ((s.disablePort k).port k).disabled = true := by
  unfold State.disablePort
  extract_lets p off
  split
  · assumption
  · refine (foldl_keeps (fun t : State => Table.wf PortState.idle t.ports = true ∧ (t.port k).disabled = true) ?_ _ _ ?_).2
    · rintro t r ⟨hw, hd⟩
      unfold State.disabledAccess
      rw [State.raise_ports, State.port_congr (State.raise_ports _ _ _ _ _), State.port_onPort hw, if_pos rfl]
      exact ⟨Table.wf_put hw, hd⟩
    · rw [State.port_onPort h, if_pos rfl]
      exact ⟨Table.wf_put h, rfl⟩

/-- Entering Kickstand from another state with power leaves the block in Kickstand. -/
theorem State.enterKickstand_blk {s : State} (h : s.blk ≠ .off) : s.enterKickstand.blk = .kickstand := by
  unfold State.enterKickstand
  split
  · next e => rcases e with e | e
              · exact e
              · exact absurd e h
  · rw [State.raise_blk]; rfl

end Sys2Proof.Machine
end

