-- ==== Sys2Proof/WellFormed.lean ====
section
/-! DEFINITION. Which commands are well formed: every operand lies in the range that the spec gives it. The machine is
total on every command; a claim may ask for a well-formed one. -/
namespace Sys2Proof
open Sys2Proof.Machine

/-- Every header field of a packet fits its bits, and the payload its class (R104, R105). -/
def Machine.Packet.inRange (p : Packet) : Bool :=
  decide (p.job < 65536) && decide (p.dest < 65536) && decide (p.src < 65536) && decide (p.tag < 65536) &&
    decide (p.gen < 256) && decide (p.seq < 2 ^ 20) && decide (p.destOffset < 2 ^ 48) && decide (p.counter < 65536) &&
    decide (p.opArg < 65536) && decide (p.payload.length ≤ if p.data then 4096 else 16) &&
    (p.data || (p.destOffset == 0 && p.counter == 0 && p.opArg == 0 && !p.countEn && !p.countUnit))

/-- A write's level is one of the four of R487, and its context field a byte (R490). -/
def Machine.Via.inRange (v : Via) : Bool := decide (v.level < 4) && decide (v.ctx < 256)

/-- Whether every operand of a command lies in its range. -/
def Instr.wellFormed (i : Instr) : Bool :=
  match i with
  | .porNAssert => true
  | .blkRstNAssert => true
  | .trstNAssert => true
  | .resetRelease _ => true
  | .resetStretcherEnd => true
  | .clockDetected _ => true
  | .tableClearComplete => true
  | .clkAbsentTimeout => true
  | .clockMonitorWindow _ _ => true
  | .gmpRequestIssue port tag _ addr beats _ _ _ => decide (port < 16) && decide (tag < 4096) && decide (addr < 281474976710656) && decide (beats < 33)
  | .gmpWriteDataBeat port => decide (port < 16)
  | .gmpResponseBeat port tag beat status _ => decide (port < 16) && decide (tag < 4096) && decide (beat < 32) && decide (status < 4)
  | .gmpStallTimeout port tag => decide (port < 16) && decide (tag < 4096)
  | .gmpPortDisable port => decide (port < 16)
  | .gmpPortEnable port => decide (port < 16)
  | .hcpRegisterWrite _ _ _ => true
  | .doorbellWrite ctx _ => decide (ctx < 64)
  | .ivAck vector _ => decide (vector < 2048)
  | .ivUnmask vector => decide (vector < 2048)
  | .hcpInitiatorWrite => true
  | .hcpStallTimeout => true
  | .fqHeadWrite _ => true
  | .fqResolveRetry ident => decide (ident < 4096)
  | .fqResolveRefuse ident => decide (ident < 4096)
  | .iqHeadWrite _ => true
  | .invGo ctx _ _ => decide (ctx < 64)
  | .invComplete => true
  | .ontanMiiFrame _ => true
  | .i3cPrivateWrite _ => true
  | .i3cPrivateRead => true
  | .i3cDynamicAddress _ _ _ => true
  | .i3cHdrEntry => true
  | .i3cHdrExit => true
  | .i3cSclTooFast => true
  | .trfCadenceInEdge => true
  | .pmiRequest => true
  | .pmiReqAck => true
  | .pmiNoackTimeout => true
  | .pmiPgoodFall => true
  | .pmiVrAlertFall => true
  | .vrAlertEnd => true
  | .transmitUnitBoundary link => decide (link < 64)
  | .dataUnitReceive link _ _ => decide (link < 64)
  | .replayedUnitReceive link _ _ => decide (link < 64)
  | .controlUnitReceive link _ _ => decide (link < 64)
  | .idleUnitReceive link _ _ => decide (link < 64)
  | .ackTimerExpire link => decide (link < 64)
  | .replayTimeout link seq => decide (link < 64) && decide (seq < 4096)
  | .silenceTimeout link => decide (link < 64)
  | .pauseTimeout link => decide (link < 64)
  | .laneFail link position => decide (link < 64) && decide (position < 5)
  | .linkRetrain via link => via.inRange && decide (link < 64)
  | .linkEnableTrue via link => via.inRange && decide (link < 64)
  | .linkEnableFalse via link => via.inRange && decide (link < 64)
  | .trainingStart link => decide (link < 64)
  | .detectSuccess link _ => decide (link < 64)
  | .detectTimeout link => decide (link < 64)
  | .trainingWordReceive link position _ => decide (link < 64) && decide (position < 5)
  | .lockDeadline link => decide (link < 64)
  | .trainingAttemptTimeout link => decide (link < 64)
  | .trainingRecordRepeat link => decide (link < 64)
  | .trainingRetryWait link => decide (link < 64)
  | .freewheelExpire link => decide (link < 64)
  | .packetInject _ => true
  | .packetHeaderArrive link => decide (link < 64)
  | .packetComplete link => decide (link < 64)
  | .pktStallTimeout link => decide (link < 64)
  | .loadReqReceive link pkt => decide (link < 64) && pkt.inRange
  | .loadRspReceive pkt => pkt.inRange
  | .storeReceive link pkt => decide (link < 64) && pkt.inRange
  | .copyReceive link pkt => decide (link < 64) && pkt.inRange
  | .atomicReqReceive link pkt => decide (link < 64) && pkt.inRange
  | .atomicRspReceive pkt => pkt.inRange
  | .gatherReqReceive link pkt => decide (link < 64) && pkt.inRange
  | .scatterReceive link pkt => decide (link < 64) && pkt.inRange
  | .completionReceive pkt => pkt.inRange
  | .negCompletionReceive pkt => pkt.inRange
  | .windowReqReceive pkt => pkt.inRange
  | .windowGrantReceive pkt => pkt.inRange
  | .windowGrantDeferred chip => decide (chip < 65536)
  | .rmtLoad core => decide (core < 64)
  | .rmtStore core => decide (core < 64)
  | .rmtCopyPush core => decide (core < 64)
  | .rmtCopyPull core => decide (core < 64)
  | .rmtAtomic core => decide (core < 64)
  | .rmtGather core => decide (core < 64)
  | .rmtScatter core => decide (core < 64)
  | .transactionIssue _ => true
  | .rmtReqTimeout tag seq => decide (tag < 65536) && decide (seq < 1048576)
  | .rmtBackoffExpire tag seq => decide (tag < 65536) && decide (seq < 1048576)
  | .rmtParkLimit tag seq => decide (tag < 65536) && decide (seq < 1048576)
  | .completionCoalesce src tag gen => decide (src < 65536) && decide (tag < 65536) && decide (gen < 256)
  | .releaseDelay chip => decide (chip < 65536)
  | .windowLeaseExpire chip => decide (chip < 65536)
  | .cacheHoldExpire src tag gen => decide (src < 65536) && decide (tag < 65536) && decide (gen < 256)
  | .casPartExpire src tag gen => decide (src < 65536) && decide (tag < 65536) && decide (gen < 256)
  | .tagQuarantineExpire tag => decide (tag < 65536)
  | .pageWalk part ctx _ _ _ => decide (part < 8) && decide (ctx < 64)
  | .faultRecordWrite => true
  | .xltServiceTimeout ctx _ _ => decide (ctx < 64)
  | .faultIdHoldExpire ident => decide (ident < 4096)
  | .xltAccFlush => true
  | .xltPtRootWrite via ctx _ => via.inRange && decide (ctx < 64)
  | .matmul core => decide (core < 64)
  | .matmulEnd core => decide (core < 64)
  | .vectorPass core => decide (core < 64)
  | .vectorPassEnd core => decide (core < 64)
  | .copyLocal core => decide (core < 64)
  | .unwrite core => decide (core < 64)
  | .localCopyEnd core _ => decide (core < 64)
  | .ccAdd core _ _ _ => decide (core < 64)
  | .ccSub core _ _ _ => decide (core < 64)
  | .ccAnd core _ _ _ => decide (core < 64)
  | .ccOr core _ _ _ => decide (core < 64)
  | .ccXor core _ _ _ => decide (core < 64)
  | .ccShl core _ _ _ => decide (core < 64)
  | .ccShr core _ _ _ => decide (core < 64)
  | .ccSar core _ _ _ => decide (core < 64)
  | .ccMul core _ _ _ => decide (core < 64)
  | .ccMulhu core _ _ _ => decide (core < 64)
  | .ccSlt core _ _ _ => decide (core < 64)
  | .ccSltu core _ _ _ => decide (core < 64)
  | .ccAddi core _ _ _ => decide (core < 64)
  | .ccAndi core _ _ _ => decide (core < 64)
  | .ccOri core _ _ _ => decide (core < 64)
  | .ccHins core _ _ _ => decide (core < 64)
  | .ccHnew core _ _ _ => decide (core < 64)
  | .ccLd core _ _ _ _ => decide (core < 64)
  | .ccSt core _ _ _ _ => decide (core < 64)
  | .ccAmo core _ _ _ _ _ => decide (core < 64)
  | .ccSignal core _ _ => decide (core < 64)
  | .ccSet core _ _ => decide (core < 64)
  | .ccWait core _ _ => decide (core < 64)
  | .waitSatisfied core => decide (core < 64)
  | .ccRead core _ _ => decide (core < 64)
  | .ccCset core _ _ => decide (core < 64)
  | .ccCread core _ _ => decide (core < 64)
  | .ccWaitc core _ _ => decide (core < 64)
  | .ccFarFlush core _ _ => decide (core < 64)
  | .ccFarDrop core _ _ => decide (core < 64)
  | .ccFence core => decide (core < 64)
  | .farMaintenanceComplete core => decide (core < 64)
  | .ccEnqMatrix core _ => decide (core < 64)
  | .ccEnqVector core _ => decide (core < 64)
  | .ccEnqDma core _ => decide (core < 64)
  | .ccFarWindowSet core _ _ => decide (core < 64)
  | .ccMaskSetCount core _ _ => decide (core < 64)
  | .ccMaskSetSpad core _ _ => decide (core < 64)
  | .ccTrigArm core _ _ => decide (core < 64)
  | .ccTrigDisarm core _ => decide (core < 64)
  | .ccCvInit core _ _ => decide (core < 64)
  | .ccCvFeed1 core _ _ => decide (core < 64)
  | .ccCvFeed2 core _ _ => decide (core < 64)
  | .ccCvFeed4 core _ _ => decide (core < 64)
  | .ccCvFeed8 core _ _ => decide (core < 64)
  | .ccCvFinal core _ _ => decide (core < 64)
  | .ccCvGet core _ _ => decide (core < 64)
  | .ccCvPut core _ _ => decide (core < 64)
  | .ccCvGeta core _ _ => decide (core < 64)
  | .ccCvPuta core _ _ => decide (core < 64)
  | .ccCvAppend core _ _ => decide (core < 64)
  | .ccCvCheck core _ _ _ => decide (core < 64)
  | .ccCvLedger core _ _ _ => decide (core < 64)
  | .ccMarkBegin core _ => decide (core < 64)
  | .ccMarkEnd core _ => decide (core < 64)
  | .ccMarkPoint core _ => decide (core < 64)
  | .ccBeq core _ _ _ => decide (core < 64)
  | .ccBne core _ _ _ => decide (core < 64)
  | .ccBlt core _ _ _ => decide (core < 64)
  | .ccBge core _ _ _ => decide (core < 64)
  | .ccBltu core _ _ _ => decide (core < 64)
  | .ccBgeu core _ _ _ => decide (core < 64)
  | .ccJal core _ _ => decide (core < 64)
  | .ccJr core _ _ => decide (core < 64)
  | .ccEnd core _ => decide (core < 64)
  | .farFillComplete core => decide (core < 64)
  | .directoryGrant bank => decide (bank < 8)
  | .farWritebackComplete _ => true
  | .memZeroGo via ctx => via.inRange && decide (ctx < 64)
  | .memZeroComplete ctx => decide (ctx < 64)
  | .ctxOpen via ctx => via.inRange && decide (ctx < 64)
  | .ctxClose via ctx => via.inRange && decide (ctx < 64)
  | .ctxResume via ctx => via.inRange && decide (ctx < 64)
  | .ctxCoresWrite via ctx _ => via.inRange && decide (ctx < 64)
  | .ctxRouteBind via ctx => via.inRange && decide (ctx < 64)
  | .routeBindComplete ctx => decide (ctx < 64)
  | .submissionRead ctx => decide (ctx < 64)
  | .taskAdmit ctx => decide (ctx < 64)
  | .taskStart => true
  | .taskEnd core => decide (core < 64)
  | .ctxImageLoad via ctx => via.inRange && decide (ctx < 64)
  | .imageVerifyComplete ctx => decide (ctx < 64)
  | .imgPushGo via => via.inRange
  | .imageLoadReceive pkt => pkt.inRange
  | .collectiveStart ctx _ => decide (ctx < 64)
  | .chunkOpen ctx group chunk => decide (ctx < 64) && decide (group < 4096) && decide (chunk < 4294967296)
  | .grantReceive pkt => pkt.inRange
  | .expUpReceive pkt => pkt.inRange
  | .expDownReceive pkt => pkt.inRange
  | .doneReceive pkt => pkt.inRange
  | .tallyChunkReceive pkt => pkt.inRange
  | .gatherChunkReceive pkt => pkt.inRange
  | .collAbortReceive pkt => pkt.inRange
  | .collNoticeRepeat ctx group => decide (ctx < 64) && decide (group < 4096)
  | .collTimeout ctx group => decide (ctx < 64) && decide (group < 4096)
  | .attEnableTrue via ctx => via.inRange && decide (ctx < 64)
  | .attEnableFalse via ctx => via.inRange && decide (ctx < 64)
  | .attend core => decide (core < 64)
  | .attendReqReceive link pkt => decide (link < 64) && pkt.inRange
  | .attAssemblyTimeout ctx slot => decide (ctx < 64) && decide (slot < 256)
  | .attendServiceStart ctx core => decide (ctx < 64) && decide (core < 64)
  | .attendServiceEnd ctx core => decide (ctx < 64) && decide (core < 64)
  | .attHoldExpire ctx slot => decide (ctx < 64) && decide (slot < 256)
  | .attendPartReceive pkt => pkt.inRange
  | .attResultTimeout core _ => decide (core < 64)
  | .ldgEnableTrue via ctx => via.inRange && decide (ctx < 64)
  | .ldgEnableFalse via ctx => via.inRange && decide (ctx < 64)
  | .ldgDrainComplete ctx => decide (ctx < 64)
  | .ldgConsumerWrite via ctx _ => via.inRange && decide (ctx < 64)
  | .capArmTrue via ctx window => via.inRange && decide (ctx < 64) && decide (window < 4)
  | .cadencePeriod => true
  | .cadenceReqReceive pkt => pkt.inRange
  | .cadenceRspReceive pkt => pkt.inRange
  | .hierCadenceSet via _ => via.inRange
  | .arriveReceive pkt => pkt.inRange
  | .releaseReceive pkt => pkt.inRange
  | .barrierAbortReceive pkt => pkt.inRange
  | .keepaliveReceive pkt => pkt.inRange
  | .takeoverReceive pkt => pkt.inRange
  | .arriveRepeat ctx => decide (ctx < 64)
  | .barTimeout ctx => decide (ctx < 64)
  | .keepalivePeriod ctx => decide (ctx < 64)
  | .takeoverTimeout ctx => decide (ctx < 64)
  | .jobSnapshot via ctx _ => via.inRange && decide (ctx < 64)
  | .jobReset via ctx _ => via.inRange && decide (ctx < 64)
  | .snapshotReceive pkt => pkt.inRange
  | .resetBcastReceive pkt => pkt.inRange
  | .bcastSecondCopy ctx => decide (ctx < 64)
  | .bcastActivate ctx seq => decide (ctx < 64) && decide (seq < 4294967296)
  | .promoteWindowExpire _ => true
  | .escalationTimeout _ _ => true
  | .srcClear via _ => via.inRange
  | .fltClearAll via => via.inRange
  | .fltStickyClear via => via.inRange
  | .fltEvtPop via => via.inRange
  | .hangExamine => true
  | .rstCtx via ctx => via.inRange && decide (ctx < 64)
  | .contextResetComplete ctx => decide (ctx < 64)
  | .engineResetIdle _ => true
  | .partitionResetIdle part => decide (part < 8)
  | .fltBlockReset via => via.inRange
  | .blockResetConfigureLimit => true
  | .rstCtxLimit ctx => decide (ctx < 64)
  | .rstEngineLimit _ => true
  | .rstPartitionLimit part => decide (part < 8)
  | .rstSampleLimit _ => true
  | .fltPcycRequest via => via.inRange
  | .pcycKickstand => true
  | .probationTurnEnd _ => true
  | .epochResyncComplete core => decide (core < 64)
  | .fltKickstand via => via.inRange
  | .fltKickExit via => via.inRange
  | .governorInterval => true
  | .sleepDelayExpire core => decide (core < 64)
  | .wakeTokenRefill => true
  | .wakeRelease core => decide (core < 64)
  | .wakeComplete core => decide (core < 64)
  | .wakeDelayed core _ => decide (core < 64)
  | .mmGateDelay core => decide (core < 64)
  | .rampStart core => decide (core < 64)
  | .rampComplete core => decide (core < 64)
  | .floorTimer => true
  | .pwrVid via _ => via.inRange
  | .ontanRead _ level ctx index sub => decide (level < 4) && decide (ctx < 256) && decide (index < 65536) && decide (sub < 256)
  | .ontanWrite _ level ctx index sub vtype _ => decide (level < 4) && decide (ctx < 256) && decide (index < 65536) && decide (sub < 256) && decide (vtype < 256)
  | .ontanPacketReceive pkt => pkt.inRange
  | .relayTimeout _ => true
  | .ontEventRepeat => true
  | .secChallenge _ => true
  | .secUnlock _ _ => true
  | .unlockLockoutExpire _ => true
  | .secLock _ => true
  | .secRevoke via slot => via.inRange && decide (slot < 4)
  | .blkReady via => via.inRange
  | .blkRun via => via.inRange
  | .blkDrain via => via.inRange
  | .drainComplete => true
  | .blkDrainTimeout => true
  | .blkConfigure via => via.inRange
  | .blkQuarantineExit via => via.inRange
  | .routeLoad via => via.inRange
  | .routeDrainUpdate via chip _ => via.inRange && decide (chip < 65536)
  | .routeDrainComplete => true
  | .routeDrainTimeout => true
  | .lportLinksWrite via lport _ => via.inRange && decide (lport < 64)
  | .obsClear via => via.inRange
  | .histogramSample => true
  | .trcEnableTrue via => via.inRange
  | .trcEnableFalse via => via.inRange
  | .traceWrite => true
  | .pcSample core => decide (core < 64)
  | .breakpointHit core => decide (core < 64)
  | .dbgHalt via core => via.inRange && decide (core < 64)
  | .dbgDrainComplete core => decide (core < 64)
  | .dbgStep via core => via.inRange && decide (core < 64)
  | .dbgResume via core => via.inRange && decide (core < 64)
  | .routeLoadComplete => true
  | .cadenceOutPulse => true
  | .powerRemoved => true
  | .tapScan _ => true

end Sys2Proof
end

