-- ==== Sys2Proof/Tests/Slice0.lean ====
section
/-! SUPPORT. Witnesses that the hypotheses of the statements are met, ill-formed commands that WellFormed refuses, and the
spec's worked examples. -/
set_option Elab.async false
set_option maxRecDepth 4000
namespace Sys2Proof.Machine
open Sys2Proof Sys2Proof.Bits

/-! ### States the tests and witnesses stand on -/

/-- A small build: GX5-16/16/4, in Configure, with every clock detected. -/
def small : State := State.cleared { Build.nominal with cores := 16, links := 16, ports := 4 }

/-- A state put into Reset at a stage, with the levels of the two reset inputs. -/
def State.inReset (s : State) (stage : ResetStage) (por blk : Bool) : State :=
  { s with blk := .reset, rst := { s.rst with stage := stage, porLow := por, blkLow := blk } }

/-- A request of an operator from the management bus. -/
def opVia : Via := { carrier := .i3c, level := 1, ctx := 0 }

/-- A state whose management-bus session stands at Service. -/
def inService (s : State) : State := s.onOnt fun o => o.withSession .i3c { o.session .i3c with level := .service }

/-- A request at Service from the management bus. -/
def svc : Via := { carrier := .i3c, level := 2, ctx := 0 }

/-! Witnesses for `StepRunsFront`. -/
theorem witness_StepRunsFront : State.reset.pending = [] ∧ State.reset.blk ≠ .off ∧
    { State.reset with blk := .off }.pending = [] ∧ { State.reset with blk := BlkState.off }.blk = .off := by decide
theorem witness_StepRunsFront_settle : State.reset.flt.due = [] ∧ State.reset.pkt.lost = [] ∧ State.reset.rmt.parked = [] ∧
    (∀ e ∈ State.reset.ctxs, e.2.arrived = none) ∧ State.reset.flt.kept = none := by
  refine ⟨rfl, rfl, rfl, fun e h => ?_, rfl⟩
  cases h

/-! Witnesses for `EveryCommandKeeps`. -/
theorem witness_EveryCommandKeeps : Instr.trstNAssert ≠ .porNAssert ∧ Instr.trstNAssert ≠ .powerRemoved :=
  ⟨fun h => Instr.noConfusion h, fun h => Instr.noConfusion h⟩

/-! Witnesses for `StepKeepsSound`. -/
theorem witness_StepKeepsSound : ∃ s t : State, step s = .next t ∧ s.sound = true :=
  ⟨State.cleared { Build.nominal with links := 16 }, _, rfl, by decide⟩

/-! Witnesses for `LeavingReset`. -/
theorem witness_LeavingReset :
    (∃ s : State, s.blk = .reset ∧ s.rst.stage = .held ∧ s.rst.porLow = true ∧ s.rst.blkLow = false) ∧
    (∃ s : State, s.blk = .reset ∧ s.rst.stage = .held ∧ s.rst.porLow = true ∧ s.rst.blkLow = true) ∧
    (∃ s : State, s.blk = .reset ∧ s.rst.stage = .held ∧ s.rst.porLow = false) ∧
    (∃ s : State, s.blk = .reset ∧ s.rst.stage = .stretching) ∧
    (∃ s : State, s.blk = .reset ∧ s.rst.stage = .detecting ∧ s.hasClock .cclk = true ∧ s.rst.cclk = true ∧
      s.rst.fclk = true ∧ s.rst.hclk = true ∧ (∀ n, n < s.build.links → s.rst.lclk.testBit n = true) ∧
      (∀ n, n < s.build.ports → s.rst.mclk.testBit n = true) ∧ s.rst.rung4 = false ∧ s.flt.grave = false) ∧
    (∃ s : State, s.blk = .reset ∧ s.rst.stage = .detecting ∧ s.rst.cclk = true ∧ s.rst.fclk = true ∧ s.flt.grave = true) ∧
    (∃ s : State, s.blk = .reset ∧ s.rst.stage = .detecting ∧ (s.rst.cclk = false ∨ s.rst.fclk = false)) :=
  ⟨⟨small.inReset .held true false, by decide⟩, ⟨small.inReset .held true true, by decide⟩,
   ⟨small.inReset .held false true, by decide⟩, ⟨small.inReset .stretching false false, by decide⟩,
   ⟨small.inReset .detecting false false, by decide⟩,
   ⟨(small.inReset .detecting false false).onFlt fun f => { f with grave := true }, by decide⟩,
   ⟨(small.inReset .detecting false false).onRst fun r => { r with cclk := false }, by decide⟩⟩

/-! Witnesses for `ClockMonitor`. -/
theorem witness_ClockMonitor : small.blk ≠ .off ∧ small.blk ≠ .reset ∧ small.hasClock .cclk = true ∧
    small.hasClock (.mclk 3) = true ∧ small.hasClock (.mclk 4) = false ∧ small.sound = true ∧
    clockInRange .cclk 4916 = true ∧ clockInRange .cclk 4915 = false ∧ clockInRange (.mclk 3) 5242 = false ∧
    clockInRange .hclk 655 = false ∧ clockInRange .tclk 669 = false ∧ clockInRange .fclk 13239 = false := by decide

/-! Witnesses for `TestAndManagementPins`. -/
theorem witness_TestAndManagementPins : small.blk ≠ .off ∧ small.tap.sel = .idcode ∧
    (small.onTap fun x => { x with sel := .bypass }).tap.sel = .bypass ∧
    (small.onTap fun x => { x with sel := .instrument 2 }).instrumentOpen 2 = false ∧ small.i3cListens = true ∧
    small.i3c.dyn = none ∧ small.build.i3c = true ∧ small.blk ≠ .reset := by decide

/-! Witnesses for `MemoryPortRequests`. -/
def gmpRead (tag addr : Nat) : GmpReq :=
  { tag := tag, op := .read, addr := addr, beats := 2, fence := false, accepted := false, data := [], sent := 0, got := [], addrErr := false }
def gmpStore (tag addr : Nat) : GmpReq :=
  { gmpRead tag addr with op := .write, beats := 1, data := [{ data := zeros 128, strb := 2 ^ 128 - 1, poison := false }] }
theorem witness_MemoryPortRequests :
    (small.powered = true ∧ 3 < small.build.ports ∧ (small.port 3).disabled = false ∧ (gmpRead 1023 3840).legal = true ∧
      (gmpRead 1023 3840).sent = 0 ∧ (small.port 3).retired.contains 1023 = false ∧ (small.port 3).held = [] ∧
      (small.port 3).outstanding = []) ∧
    (∃ s : State, s.powered = true ∧ (s.port 3).disabled = false ∧ (s.port 3).held = [] ∧ (∀ y ∈ (s.port 3).outstanding, y.tag ≠ 7) ∧
      (∃ y ∈ (s.port 3).outstanding, (gmpRead 7 0).conflicts y = true) ∧
      ∃ r, (s.port 3).outstanding = [] ++ r :: [] ∧ r.accepted = true ∧ r.sent < r.data.length ∧ r.tag = (gmpRead 8 0).tag) :=
  ⟨by decide, small.onPort 3 fun p => { p with outstanding := [{ gmpStore 8 128 with accepted := true }] }, by decide, by decide,
    by decide, by decide, by decide, { gmpStore 8 128 with accepted := true }, by decide⟩

/-! Witnesses for `MemoryPortResponses`. -/
theorem witness_MemoryPortResponses :
    small.sound = true ∧ small.blk ≠ .off ∧ small.blk ≠ .reset ∧ small.rst.mclk.testBit 3 = true ∧ 3 < small.build.ports ∧
    (small.onPort 3 fun p => { p with outstanding := [{ gmpRead 9 0 with accepted := true }] }).sound = true ∧
    (small.onPort 3 fun p => { p with outstanding := [{ gmpRead 9 0 with accepted := true, got := [(0, ones 128, false)] }] }).sound = true ∧
    (small.onPort 3 fun p => { p with outstanding := [{ gmpStore 9 3968 with accepted := true, sent := 1 }] }).sound = true ∧
    ((small.onPort 3 fun p => { p with outstanding := [{ gmpRead 9 0 with accepted := true }] }).port 3).outstanding.find?
      (fun y => y.tag == 9 && y.accepted) = some { gmpRead 9 0 with accepted := true } ∧
    ((small.onPort 3 fun p => { p with disabled := true }).port 3).disabled = true := by decide

/-! Witnesses for `HostWindowWrites`. -/
theorem witness_HostWindowWrites : small.hcpRuns = true ∧
    (small.setRegAt Reg.CTX_STATE 63 1).isOpen 63 = true ∧ small.isOpen 0 = false ∧
    (1 % 2 ^ 32 + 2 ^ 32 - (small.setRegAt Reg.CTX_STATE 63 1).regAt Reg.CTX_RING_HEAD 63) % 2 ^ 32 ≤
      2 ^ (small.setRegAt Reg.CTX_STATE 63 1).regAt Reg.CTX_RING_SIZE_LOG2 63 ∧
    (small.vector 63).pending = false ∧ ((small.setVector 0 { small.vector 0 with pending := true }).vector 0).pending = true ∧
    (small.setVector 0 { small.vector 0 with pending := true }).build.irqMode = .messages := by decide

/-! Witnesses for `HostRingsAndInitiator`. -/
def withWrite (k : HcpKind) : State :=
  small.onHcp fun h => { h with queue := [{ kind := k, addr := 0, data := zeros 32 }], fq := { h.fq with sizeLog2 := 6 }, iq := { h.iq with sizeLog2 := 4 } }
theorem witness_HostRingsAndInitiator :
    (∀ k, (withWrite k).hcpRuns = true ∧ (withWrite k).hcp.queue = { kind := k, addr := 0, data := zeros 32 } :: []) ∧
    (withWrite .message).hcp.queue ≠ [] ∧ (withWrite .message).hcp.stallSeen = false ∧
    ((withWrite .message).onHcp fun h => { h with stallSeen := true }).hcp.stallSeen = true ∧
    (∃ s : State, s.hcp.fq.waiting = (none, zeros 32) :: [] ∧ s.hcp.fq.sizeLog2 ≠ 0 ∧ (∀ w ∈ s.hcp.queue, w.kind ≠ .faultRecord) ∧
      (s.hcp.fq.tail % 2 ^ 32 + 2 ^ 32 - s.hcp.fq.head) % 2 ^ 32 < 2 ^ s.hcp.fq.sizeLog2) ∧
    ((withWrite .message).hcp.fq.tail + 2 ^ 32 - (2 ^ 32 - 64) % 2 ^ 32) % 2 ^ 32 ≤ 2 ^ (withWrite .message).hcp.fq.sizeLog2 ∧
    2 ^ (withWrite .message).hcp.fq.sizeLog2 < ((withWrite .message).hcp.fq.tail + 2 ^ 32 - (2 ^ 32 - 65) % 2 ^ 32) % 2 ^ 32 ∧
    ((withWrite .message).hcp.iq.tail + 2 ^ 32 - (2 ^ 32 - 16) % 2 ^ 32) % 2 ^ 32 ≤ 2 ^ (withWrite .message).hcp.iq.sizeLog2 ∧
    2 ^ (withWrite .message).hcp.iq.sizeLog2 < ((withWrite .message).hcp.iq.tail + 2 ^ 32 - 1 % 2 ^ 32) % 2 ^ 32 ∧
    (withWrite .message).hcp.iq.waiting = [] := by
  refine ⟨fun k => ⟨by cases k <;> decide, rfl⟩, by decide, by decide, by decide,
    ⟨(withWrite .message).onHcp fun h => { h with fq := { h.fq with waiting := [(none, zeros 32)] } }, by decide⟩, ?_⟩
  decide

/-! Witnesses for `RangeInvalidation`. -/
def anInval : Inval := { ctx := some 3, ticket := 9, start := 65536, stop := 131072, pagesM1 := 0, began := 0 }
def withInval : State := small.onHcp fun h => { h with invs := [anInval], iq := { h.iq with sizeLog2 := 4 } }
def aFault : XltFault :=
  { id := some 5, ctx := 3, off := 65536, ty := .notPresent, write := false, atomic := false, level := 1, raw := 0,
    who := [.engine 2 .control], cadence := 0, live := true }
theorem witness_RangeInvalidation : small.hcp.invs.length < 16 ∧
    16 ≤ (small.onHcp fun h => { h with invs := List.replicate 16 anInval }).hcp.invs.length ∧
    withInval.hcp.invs = anInval :: [] ∧ withInval.invHeld anInval = false ∧
    (withInval.onXlt fun x => { x with faults := [aFault] }).invHeld anInval = true ∧ withInval.hcp.iq.waiting = [] ∧
    (∀ w ∈ withInval.hcp.queue, w.kind ≠ .invRecord) ∧ withInval.hcp.iq.sizeLog2 ≠ 0 ∧
    (withInval.hcp.iq.tail % 2 ^ 32 + 2 ^ 32 - withInval.hcp.iq.head) % 2 ^ 32 < 2 ^ withInval.hcp.iq.sizeLog2 := by decide

/-! Witnesses for `FaultAnswers`. -/
theorem witness_FaultAnswers :
    (∃ s : State, s.rmt.parked = [] ∧ (∀ y ∈ s.xlt.faults, y.id.isSome) ∧
      s.xlt.faults.find? (fun y => y.live && y.id == some 5) = some aFault ∧ aFault.who = [.engine 2 .control] ∧
      s.xlt.faults = aFault :: [] ∧ aFault.live = true ∧ aFault.id = some 5) ∧
    small.rmt.parked = [] ∧ (∀ y ∈ small.xlt.faults, y.id.isSome) ∧
    small.xlt.faults.find? (fun y => y.live && y.id == some 5) = none :=
  ⟨⟨small.onXlt fun x => { x with faults := [aFault] }, by decide⟩, by decide⟩

/-! Witnesses for `Translation`. -/
theorem witness_Translation :
    (∃ s : State, s.xlt.leaves.find? (fun l => l.part == 0 && l.covers 3 0x12345) =
      some { part := 0, ctx := 3, base := 0x10000, size := 16, pte := 0x7, reads := 0, writes := 0 } ∧
      denies 0x7 .write false = none) ∧
    small.xlt.leaves.find? (fun l => l.part == 0 && l.covers 3 0x12345) = none ∧
    anyPoison (small.memRead (small.regAt Reg.XLT_PT_ROOT 3 + 8 * walkIndex 0x12345 1) 8).1 = false ∧
    (plain (small.memRead (small.regAt Reg.XLT_PT_ROOT 3 + 8 * walkIndex 0x12345 1) 8).1)[0]? = some 0 ∧
    (∀ f ∈ small.xlt.faults, f.live = false ∨ f.ctx ≠ 3) ∧
    small.sound = true ∧ small.admits opVia Reg.XLT_PT_ROOT 63 4096 = true ∧ (∀ l ∈ small.xlt.leaves, l.ctx ≠ 63) :=
  ⟨⟨small.onXlt fun x => { x with leaves := [{ part := 0, ctx := 3, base := 0x10000, size := 16, pte := 0x7, reads := 0, writes := 0 }] },
    by decide, by decide⟩, by decide⟩

/-! Witnesses for `OntanWriteReadsBack`. -/
theorem witness_OntanWriteReadsBack :
    small.serves .mii = true ∧ small.sound = true ∧ small.quiet = true ∧
    (∃ e n, small.admitReq .mii 1 0 (256 * 0x4105 + Reg.CTX_JOB_ID % 256) true = .ok (e, n) ∧
      small.admitReq .mii 1 0 (256 * 0x4105 + Reg.CTX_JOB_ID % 256) false = .ok (e, n) ∧ (∀ k, e.ty ≠ .bytes k) ∧ e.ty ≠ .cmd ∧
      e.ty ≠ .anyBytes ∧ e.ty.lenOk 2 = true ∧ (e.access = .rwc → small.blk = .configure) ∧ small.rangeOk e n (leNat [0xFF, 0x0F]) = true ∧
      small.entryBusy e n (leNat [0xFF, 0x0F]) = false ∧ small.faultWrite e.key n = none ∧
      small.ctxWrite e.key n (leNat [0xFF, 0x0F]) [0xFF, 0x0F] = none ∧ small.blockWrite .mii e.key n (leNat [0xFF, 0x0F]) [0xFF, 0x0F] = none ∧
      e.key % 256 ≠ 0 ∧ e.key ≠ Reg.DBG_PC ∧ e.key ≠ Reg.DBG_REGS ∧ e.key ≠ Reg.SEC_CHALLENGE ∧ (∀ t : State, t.derived .mii e.key n = none)) ∧
    (∃ x, small.admitReq .mii 2 0 (256 * 0x4105 + 1) true = .error x) ∧ (∃ x, small.admitReq .mii 1 0 0 false = .error x) :=
  ⟨rfl, by decide, rfl, ⟨_, _, rfl, rfl, fun k h => Ty.noConfusion h, fun h => Ty.noConfusion h, fun h => Ty.noConfusion h, rfl, fun _ => rfl,
    rfl, by decide, rfl, rfl, rfl, by decide, by decide, by decide, by decide, fun t => rfl⟩, ⟨_, rfl⟩, ⟨_, rfl⟩⟩

/-! Witnesses for `OntanCarriers`. -/
def aRead : List Byte := ontanMessage 0x21 1 1 0 7 0xFFFF 0x1000 0x01 0 []
def aReadBody : List Byte := beBytes 6 (small.reg Reg.MGP_MAC) ++ beBytes 6 0x0200000000AA ++ beBytes 2 0x88B5 ++ aRead ++ zeros 30
def aReadFcs : List Byte := leBytes 4 (Crc.crc32 aReadBody)
theorem witness_OntanCarriers_frame : small.serves .mii = true ∧ aReadFcs.length = 4 ∧ aReadBody.length = 14 + (aRead ++ zeros 30).length ∧
    (aRead ++ zeros 30).length = max 46 (16 + ontLen (aRead ++ zeros 30)) ∧
    slice 14 (aRead ++ zeros 30).length (aReadBody ++ aReadFcs) = aRead ++ zeros 30 ∧ Crc.crc32 aReadBody = leNat aReadFcs ∧
    beNat (aReadBody.take 6) = small.reg Reg.MGP_MAC ∧ small.reg Reg.MGP_MAC ≠ 2 ^ 48 - 1 ∧ beNat (slice 12 2 aReadBody) = 0x88B5 ∧
    (∃ m, ontParse ((aRead ++ zeros 30).take (16 + ontLen (aRead ++ zeros 30))) = some m ∧ m.type = 1 ∧ small.forMe m = true) ∧
    Crc.crc32 aReadBody ≠ leNat (zeros 4) := by
  refine ⟨rfl, rfl, rfl, rfl, by decide, by decide +kernel, by decide +kernel, by decide +kernel, by decide, ⟨_, rfl, by decide, by decide⟩, by decide +kernel⟩
theorem witness_OntanCarriers : small.serves .i3c = true ∧ small.i3cListens = true ∧ small.ont.i3c.kept = none ∧
    (∃ m ty, ontParse aRead = some m ∧ m.type = 1 ∧ m.ver / 16 = 2 ∧ small.forMe m = true ∧
      (small.serveRead .i3c (m.level % 4) (m.level / 4) (256 * m.index + m.sub) m.vtype m.value.length).1.2.1 = some ty) ∧
    ontParse [] = none ∧ small.handles .ontan = true ∧ small.ont.i3cAnswer = none ∧
    (small.onOnt fun o => { o with i3cAnswer := some [] }).ont.i3cAnswer = some [] ∧
    (∃ (m : OntMsg) (r : Relay) (s : State), ontParse (ontanMessage 0x21 3 1 0 7 0 0x1000 0x01 0 []) = some m ∧ m.type = 3 ∧
      s.relayOf 9 m = some r ∧ r.carrier = .mii ∧ s.ont.relays.find? (fun r => r.target == 9) = some r ∧
      (ontParse r.request).isSome) := by
  refine ⟨by decide, by decide, by decide, ⟨_, _, rfl, by decide, by decide, by decide, rfl⟩, by decide, by decide, by decide, by decide,
    ⟨_, { carrier := .mii, addr := 1, target := 9, request := aRead }, small.onOnt fun o => { o with relays := [{ carrier := .mii, addr := 1, target := 9, request := aRead }] },
      rfl, by decide, by decide, rfl, by decide, by decide⟩⟩

/-! Witnesses for `SecuritySessions`. -/
def keyed : State :=
  (State.cleared { Build.nominal with cores := 16, links := 16, ports := 4, imageKeys := [1, 2, 0, 0], serviceKeys := [3, 0] }).onOnt
    fun o => o.withSession .i3c { o.session .i3c with level := .service }
theorem witness_SecuritySessions :
    (∃ e, small.admitReq .i3c 1 0 Reg.SEC_CHALLENGE false = .ok (e, 0) ∧ e.key = Reg.SEC_CHALLENGE) ∧
    (∃ e, small.admitReq .i3c 1 0 Reg.SEC_UNLOCK true = .ok (e, 0) ∧ e.key = Reg.SEC_UNLOCK ∧ e.ty.code = 0x0B ∧
      e.ty.lenOk 192 = true ∧ e.access = .cmd ∧ e.ty ≠ .cmd ∧ e.ty ≠ .anyBytes ∧ small.rangeOk e 0 (leNat (zeros 192)) = true ∧
      small.entryBusy e 0 (leNat (zeros 192)) = false ∧ (small.ont.session .i3c).lockout = false ∧
      small.unlockOk .i3c (zeros 192) = false ∧ (small.ont.session .i3c).fails < 7) := by
  exact ⟨⟨_, rfl, rfl⟩, _, rfl, by decide, by decide, by decide, by decide, by decide, by decide, by decide, by decide, by decide, by decide, by decide⟩
theorem witness_SecuritySessions_lock :
    (∃ e, small.admitReq .i3c 1 0 Reg.SEC_LOCK true = .ok (e, 0) ∧ e.key = Reg.SEC_LOCK ∧ e.ty = .cmd ∧ e.access = .cmd ∧
      e.ty.lenOk 0 = true ∧ e.ty.code = 0x0B ∧ small.rangeOk e 0 0 = true ∧ small.entryBusy e 0 0 = false) ∧
    (∃ e : Entry, (small.onOnt fun o => o.withSession .i3c { o.session .i3c with lockout := true, fails := 7 }).admitReq .i3c 1 0 Reg.SEC_UNLOCK true = .ok (e, 0)) :=
  ⟨⟨_, rfl, by decide, by decide, by decide, by decide, by decide, by decide, by decide⟩, ⟨_, rfl⟩⟩
theorem witness_SecuritySessions_revoke : keyed.admits { opVia with level := 2 } Reg.SEC_REVOKE 0 1 = true := by decide

/-! Witnesses for `BlockStates`. -/
def ready : State := { (small.setReg Reg.ROUTE_OWN_CHIP 3) with blk := .ready }
def running : State := { ready with blk := .run }
theorem witness_BlockStates :
    (small.admits opVia Reg.BLK_READY 0 0 = true ∧ small.blk = .configure ∧ (small.setReg Reg.ROUTE_OWN_CHIP 3).ownChip ≠ 0xFFFF ∧
      (small.setReg Reg.ROUTE_OWN_CHIP 3).admits opVia Reg.BLK_READY 0 0 = true ∧ small.ownChip = 0xFFFF) ∧
    (ready.admits opVia Reg.BLK_RUN 0 0 = true ∧ ready.blk = .ready ∧ small.admits opVia Reg.BLK_RUN 0 0 = true) ∧
    (running.admits opVia Reg.BLK_DRAIN 0 0 = true ∧ running.blk = .run ∧ small.admits opVia Reg.BLK_DRAIN 0 0 = true) ∧
    (ready.admits opVia Reg.BLK_CONFIGURE 0 0 = true ∧ (∀ c, c < 64 → ready.regAt Reg.CTX_STATE c ≠ 1 ∧ ready.regAt Reg.CTX_STATE c ≠ 2) ∧
      (ready.setRegAt Reg.CTX_STATE 63 1).admits opVia Reg.BLK_CONFIGURE 0 0 = true ∧
      (ready.setRegAt Reg.CTX_STATE 63 1).regAt Reg.CTX_STATE 63 = 1) ∧
    ({ ready with blk := .quarantine }.admits opVia Reg.BLK_QUARANTINE_EXIT 0 0 = true ∧ ready.flt.ctxResets = [] ∧
      ready.flt.unitResets = [] ∧ ready.rst.rung4 = false ∧ ready.regAt Reg.SRC_UNCLEARED Source.ladderStopped.code = 0 ∧
      ready.admits opVia Reg.BLK_QUARANTINE_EXIT 0 0 = true) ∧
    ({ ready with blk := BlkState.drain }.blk = .drain ∧ (∀ c, c < 64 → { ready with blk := .drain }.drainWork c = false) ∧
      { ready with blk := .drain }.flt.drainLate = false) ∧
    (∃ s : State, s.drainWork 63 = true) := by
  refine ⟨by decide +kernel, by decide +kernel, by decide +kernel, by decide +kernel, by decide +kernel, by decide +kernel,
    ⟨ready.onCtx 63 fun x => { x with slots := [{ slot := 0, src := 1, tag := 0, gen := 0, job := 0, header := zeros 64, pieces := [], phase := .queued, order := 0, poison := false }] }, by decide +kernel⟩⟩

/-! Witnesses for `RegisterInstructions`. -/
/-- The small build in Run, with core C0 about to execute a word for context 2, whose registers X1 to X4 hold values. -/
def coreAt (w : Nat) : State :=
  let s := ((((((((small.setReg Reg.ROUTE_OWN_CHIP 3).setRegAt Reg.PWR_CORE_STATE 0 0).setRegAt Reg.CTX_STATE 2 1).setRegAt
    Reg.CTX_SEM_BASE 2 64).setRegAt Reg.CTX_SEM_COUNT 2 64).setRegAt Reg.CTX_CNT_BASE 2 16).setRegAt Reg.CTX_CNT_COUNT 2 16).setRegAt
    Reg.CTX_CORES 2 1)
  let run : Running := { ctx := 2, task := 0, home := 0x100000, codeLen := 64, decl := 0xFFFF, step := 0, seed := 0, spadBase := 0,
                         spadLen := 65536, ended := none, arg := none, mmStart := 0 }
  let t : Task := { id := 0, sub := 0, index := 0, kind := 0, spadBase := 0, spadLen := 1, trackerMax := 0, entry := 0, cores := 1,
                    arg := 0, ins := [], outs := [], taskId := 0, running := true, error := none, passed := 0 }
  { s with blk := .run, mem := storeBytes [] (0x100000 + 256) (leBytes 4 w),
           cores := [(0, { CoreState.reset with run := some run, regs := [(1, 5), (2, 70), (3, 64), (4, 16)] })],
           ctxs := [(2, { CtxState.idle with tasks := [t] })] }
/-- The core is about to execute the word, and the state is sound. -/
def aboutIt (w : Nat) : Bool := (coreAt w).about 0 w && (coreAt w).sound
theorem witness_RegisterInstructions :
    ((List.range 12).all fun fn => aboutIt (ccWord 0 31 1 2 fn) && aboutIt (ccWord 0 0 2 1 fn)) = true ∧
    aboutIt (ccWordImm 1 5 1 0xFFFF) = true ∧ aboutIt (ccWordImm 2 5 1 0xFFFF) = true ∧ aboutIt (ccWordImm 3 5 1 0xFFFF) = true ∧
    aboutIt (ccWordImm 4 5 3 0xFFFF) = true ∧ aboutIt (ccWordImm 5 5 0 1) = true ∧
    ((coreAt 0).x 0 1).toNat < 64 ∧ 64 ≤ ((coreAt 0).x 0 2).toNat := by decide +kernel

/-! Witnesses for `BranchesAndMarkers`. -/
theorem witness_BranchesAndMarkers :
    ([0x20, 0x21, 0x22, 0x23, 0x24, 0x25, 0x26, 0x27, 0x3F].all fun op => aboutIt (ccWordImm op 1 2 0xFFFF) && aboutIt (ccWordImm op 1 2 0)) = true ∧
    aboutIt (ccWord 0x15 0 1 0 15) = true ∧ aboutIt (ccWord 0x15 0 1 0 23) = true ∧ ([0, 1, 2].all fun fn => aboutIt (ccWord 0x18 0 1 0 fn)) = true ∧
    (∃ r, ((coreAt 0).core 0).run = some r) ∧ (∀ l ∈ (coreAt 0).far.lines, l.core ≠ 0) ∧ (coreAt 0).farQuiet 0 = true := by
  refine ⟨by decide +kernel, by decide +kernel, by decide +kernel, by decide +kernel, ⟨_, rfl⟩, by decide, by decide⟩

/-! Witnesses for `LoadsAndStores`. -/
def withLine (w : Nat) : State := { coreAt w with spadWritten := [0] }
theorem witness_LoadsAndStores :
    ([0, 1, 2, 3].all fun size => (withLine (ccWordImm (8 + size) 5 4 0)).about 0 (ccWordImm (8 + size) 5 4 0) &&
      (withLine (ccWordImm (12 + size) 1 4 8)).about 0 (ccWordImm (12 + size) 1 4 8) && (withLine 0).inFootprint 0 16 (2 ^ size) &&
      (withLine (ccWordImm (12 + size) 1 4 8)).sound) = true ∧
    (withLine 0).spadWritten.contains (0 * 2 ^ 15 + 16 / 64) = true ∧ (withLine 0).spadPoison.contains 0 = false ∧
    ((List.range 10).all fun code => (withLine (ccWord 0x10 5 4 1 (16 + code))).about 0 (ccWord 0x10 5 4 1 (16 + code))) = true ∧
    (withLine 0).inFootprint 0 (16 + 0xFFFF) 1 = false ∧ (16 + 3) % 2 ≠ 0 := by decide +kernel
/-- A core about to load from local memory through a cached leaf. -/
def withLeaf (w : Nat) : State :=
  { coreAt w with cores := (coreAt w).cores.map fun e => (e.1, { e.2 with regs := [(4, 0x4000000000000010)] }),
                  xlt := { leaves := [{ part := 0, ctx := 2, base := 0, size := 16, pte := 0x7, reads := 0, writes := 0 }], faults := [] } }
theorem witness_LoadsAndStores_memory :
    (withLeaf (ccWordImm 11 5 4 0)).about 0 (ccWordImm 11 5 4 0) = true ∧ (withLeaf (ccWordImm 11 5 4 0)).sound = true ∧
    (∃ t, (withLeaf (ccWordImm 11 5 4 0)).translateRange 0 2 16 8 .read false = (.ok [(16, 8)], t) ∧ anyPoison (t.memRead 16 8).1 = false) := by
  exact ⟨by decide +kernel, by decide +kernel, _, rfl, by decide +kernel⟩

/-! Witnesses for `SemaphoreInstructions`. -/
/-- The core with semaphore or counter 70 in X2 as the operand that names it. -/
theorem witness_SemaphoreInstructions :
    ([0, 1, 2, 3].all fun fn => aboutIt (ccWord 0x11 5 2 1 fn)) = true ∧ ([0, 1, 2].all fun fn => aboutIt (ccWord 0x12 5 4 1 fn)) = true ∧
    aboutIt (ccWord 0x16 0 4 0 15) = true ∧ aboutIt (ccWord 0x16 0 4 0 31) = true ∧ (coreAt 0).ownsSem 2 70 = true ∧
    (coreAt 0).ownsCounter 2 16 = true ∧ (coreAt 0).ownsSem 2 5 = false ∧ (coreAt 0).declared 0 15 = true ∧
    (∀ l ∈ (coreAt 0).far.lines, l.core ≠ 0) ∧ (coreAt 0).farQuiet 0 = true ∧ ((coreAt 0).sem 70).toNat < 5 ∧
    ((coreAt 0).counter 16 - 5).toInt < 0 ∧ (coreAt 0).ctxOfCore 0 = 2 := by decide +kernel
/-- The core with 16 bytes of its scratchpad that name semaphores of its context. -/
def withTrig (w : Nat) : State :=
  let s := coreAt w
  { s with spad := storeSpad [] 16 (leBytes 4 70 ++ [0] ++ leBytes 3 71 ++ zeros 8), spadWritten := [0] }
theorem witness_SemaphoreInstructions_trig :
    (withTrig (ccWord 0x16 0 4 0 15)).about 0 (ccWord 0x16 0 4 0 15) = true ∧
    (∃ bs t, (withTrig (ccWord 0x16 0 4 0 15)).ccLoadSpad 0 16 16 = (.ok bs, t) ∧ t.ownsSem (t.ctxOfCore 0) (Trig.parse bs).sem = true ∧
      (if (Trig.parse bs).counter then t.ownsCounter (t.ctxOfCore 0) (Trig.parse bs).watched else t.ownsSem (t.ctxOfCore 0) (Trig.parse bs).watched) = true) := by
  exact ⟨by decide +kernel, _, _, rfl, by decide +kernel, by decide +kernel⟩
theorem witness_SemaphoreInstructions_wait :
    (∃ s : State, s.sound = true ∧ s.ccReady 0 = true ∧ (s.core 0).stall = .waitSem 70 0) ∧
    (∃ s : State, s.sound = true ∧ s.ccReady 0 = true ∧ (s.core 0).stall = .waitSem 70 1 ∧ (s.sem 70).toNat < 1) :=
  ⟨⟨(coreAt 0).onCore 0 fun x => { x with stall := .waitSem 70 0 }, by decide +kernel⟩,
   ⟨(coreAt 0).onCore 0 fun x => { x with stall := .waitSem 70 1 }, by decide +kernel⟩⟩
theorem witness_calm : (coreAt 0).calm [70] = true ∧ (coreAt 0).calm [] = true := by decide +kernel

/-! Witnesses for `CheckValueInstructions`. -/
theorem witness_CheckValueInstructions :
    ((List.range 13).all fun k => aboutIt (ccWord 0x17 5 4 1 (8 * k + 7))) = true ∧ ((coreAt 0).x 0 4).toNat < 2 ^ 21 ∧
    (((coreAt 0).cv 0 7).alive = false) ∧ (coreAt 0).inFootprint 0 16 4 = true ∧
    (∃ s : State, s.about 0 (ccWord 0x17 5 4 1 87) = true ∧ (s.cv 0 7).alive = true ∧ s.inFootprint 0 16 (1 + cvWidth (s.cv 0 7).alg) = true) ∧
    (∃ bs t, (withLine (ccWord 0x17 5 4 1 95)).ccLoad 0 16 (4 + ofBool false) = (.ok bs, t)) ∧
    (withLine (ccWord 0x17 5 4 1 95)).meetsUnwritten 0 16 4 = false := by
  refine ⟨by decide +kernel, by decide +kernel, by decide +kernel, by decide +kernel,
    ⟨(coreAt (ccWord 0x17 5 4 1 87)).setCv 0 7 { CvUnit.reset with alive := true }, by decide +kernel⟩, ⟨_, _, rfl⟩, by decide +kernel⟩

/-! Witnesses for `FarAndQueueInstructions`. -/
theorem witness_FarAndQueueInstructions :
    ([0, 1, 2].all fun fn => aboutIt (ccWord 0x14 0 4 0 fn) && aboutIt (ccWord 0x13 0 4 0 fn)) = true ∧ aboutIt (ccWord 0x15 0 4 0 31) = true ∧
    (∃ s : State, 16 ≤ (s.core 0).mq.length ∧ s.about 0 (ccWord 0x14 0 4 0 0) = true) ∧
    (∃ bs t, (withLine (ccWord 0x14 0 0 0 1)).ccLoadSpad 0 0 64 = (.ok bs, t) ∧ t.engineHolds 0 .vector = false ∧ t.engineHolds 0 .dma = false) ∧
    (∃ s : State, s.about 0 (ccWord 0x14 0 0 0 0) = true ∧ ∃ bs t, s.ccLoadSpad 0 0 64 = (.ok bs, t) ∧ t.engineHolds 0 .matrix = true ∧ (s.core 0).mq.length < 16) ∧
    (∃ bs t, (withLine 0).ccLoadSpad 0 0 32 = (.ok bs, t)) ∧ (coreAt 0x00000FFF).ccFetch 0 = .word 0xFFF ∧ ccLegal 0xFFF = false ∧
    (∃ s : State, s.ccReady 0 = true ∧ s.bkptAt 0 = none ∧ s.ccFetch 0 = .bad) := by
  refine ⟨by decide +kernel, by decide +kernel, ⟨(coreAt (ccWord 0x14 0 4 0 0)).onCore 0 fun x => { x with mq := List.replicate 16 [] }, by decide +kernel⟩,
    ⟨_, _, rfl, by decide +kernel, by decide +kernel⟩,
    ⟨(withLine (ccWord 0x14 0 0 0 0)).onCore 0 fun x => { x with mq := [zeros 64] }, by decide +kernel, _, _, rfl, by decide +kernel, by decide +kernel⟩,
    ⟨_, _, rfl⟩, by decide +kernel, by decide +kernel, ⟨(coreAt 0).onCore 0 fun x => { x with pc := 64 }, by decide +kernel⟩⟩
def aLine : LineName := { job := 1, chip := 2, line := 3 }
def aWb (e : Option Nat) : FarWb := { id := 1, core := 0, ctx := 2, name := aLine, data := zeros 64, poison := false, first := 0, len := 8, ended := e }
theorem witness_FarAndQueueInstructions_far :
    (∃ (s : State) (r : DirReq), s.far.reqs = [r] ∧ r.name.bank = 1 ∧ s.far.lines = [] ∧ s.far.fills = [] ∧ s.far.wbs = [] ∧ r.core < 64) ∧
    (∀ r ∈ small.far.reqs, r.name.bank ≠ 1) ∧
    (∃ (s : State) (x : FarFill), s.far.fills = x :: [] ∧ x.core = 0 ∧ x.data = some (zeros 64, false) ∧ x.failed = none ∧ s.far.lines = []) ∧
    (∃ (s : State) (x : FarFill), s.far.fills = x :: [] ∧ x.core = 0 ∧ x.failed = some 0x12 ∧ 0x12 ≠ 0) ∧
    (∀ e, (small.onFar fun f => { f with wbs := [aWb e] }).far.wbs[0]? = some (aWb e)) ∧
    (∃ s : State, s.ccReady 0 = true ∧ (s.core 0).stall = .maint ∧ s.farQuiet 0 = true) ∧
    (∃ s : State, s.ccReady 0 = true ∧ (s.core 0).stall = .maint ∧ s.farQuiet 0 = false) ∧
    (∃ s : State, (∀ l ∈ s.far.lines, l.core ≠ 0) ∧ s.farQuiet 0 = false ∧ s.about 0 (ccWord 0x13 0 4 0 2) = true) := by
  refine ⟨⟨small.onFar fun f => { f with reqs := [{ core := 0, ctx := 2, name := aLine, own := false }] }, _, rfl, by decide, rfl, rfl, rfl, by decide⟩,
    by decide, ⟨small.onFar fun f => { f with fills := [{ core := 0, ctx := 2, name := aLine, own := false, data := some (zeros 64, false), failed := none }] },
      _, rfl, rfl, rfl, rfl, rfl⟩,
    ⟨small.onFar fun f => { f with fills := [{ core := 0, ctx := 2, name := aLine, own := false, data := none, failed := some 0x12 }] }, _, rfl, rfl, rfl, by decide⟩,
    fun e => rfl, ⟨(coreAt 0).onCore 0 fun x => { x with stall := .maint }, by decide +kernel⟩,
    ⟨((coreAt 0).onCore 0 fun x => { x with stall := .maint }).onFar fun f => { f with wbs := [aWb none] }, by decide +kernel⟩,
    ⟨(coreAt (ccWord 0x13 0 4 0 2)).onFar fun f => { f with wbs := [aWb none] }, by decide +kernel⟩⟩
theorem witness_FarAndQueueInstructions_flush : ∃ (s : State) (chip : Nat) (t : State), s.about 0 (ccWord 0x13 0 4 0 0) = true ∧
    (s.x 0 4).toNat = 2 ^ 63 ∧ s.farChip 0 (2 ^ 63) = (some chip, t) ∧ t.far = s.far := by
  refine ⟨(({ coreAt (ccWord 0x13 0 4 0 0) with mem := storeBytes (coreAt (ccWord 0x13 0 4 0 0)).mem 0x2000 (leBytes 4 0x10007) }.setRegAt Reg.CTX_RANK_COUNT 2 1).setRegAt
    Reg.CTX_RANK_BASE 2 0x2000).onCore 0 fun x => { x with regs := [(4, 0x8000000000000000)] }, 7, _, by decide +kernel, by decide +kernel, rfl, by decide +kernel⟩

/-! Witnesses for `ObservationCommands`. -/
theorem witness_ObservationCommands :
    (running.admits opVia Reg.OBS_CLEAR 0 0 = true ∧ running.blk ≠ .off ∧ running.blk ≠ .reset ∧ running.sound = true) ∧
    (running.admits opVia Reg.TRC_ENABLE 0 1 = true ∧ running.reg Reg.TRC_BASE + 2 ^ running.reg Reg.TRC_SIZE_LOG2 ≤ 2 ^ 40 ∧
      running.admits opVia Reg.TRC_ENABLE 0 0 = true) ∧
    (∃ s : State, s.admits opVia Reg.TRC_ENABLE 0 1 = true ∧ 2 ^ 40 < s.reg Reg.TRC_BASE + 2 ^ s.reg Reg.TRC_SIZE_LOG2) ∧
    (running.trc.buffer = [] ∧ (∃ (s : State) (b : List Byte), s.trc.buffer = [b] ∧ 0 < s.build.ports)) ∧
    (∃ s : State, s.reg Reg.TRC_PC_PERIOD_LOG2 = 0) ∧
    (∃ s : State, s.reg Reg.TRC_PC_PERIOD_LOG2 ≠ 0 ∧ (s.core 0).halt ≠ .running) ∧
    (running.admits opVia Reg.DBG_HALT 15 0 = true ∧ (running.core 15).run = none ∧ (running.core 15).halt ≠ .halted ∧
      running.admits opVia Reg.DBG_STEP 15 0 = true ∧ running.admits opVia Reg.DBG_RESUME 15 0 = true) ∧
    ((coreAt 0).admits opVia Reg.DBG_HALT 0 0 = true ∧ ((coreAt 0).core 0).run ≠ none ∧ ((coreAt 0).core 0).halt = .running ∧
      ((coreAt 0).core 0).stall = .none) ∧
    (∃ s : State, (s.core 0).halt = .draining ∧ s.enginesIdle 0 = true) ∧
    (∃ s : State, s.sound = true ∧ (s.core 0).halt = .halted ∧ s.admits opVia Reg.DBG_STEP 0 0 = true ∧ s.admits opVia Reg.DBG_RESUME 0 0 = true) ∧
    (∃ s : State, s.ccReady 0 = true ∧ (s.core 0).pass = false ∧ (s.core 0).stall = .none ∧ s.bkptAt 0 = some 3) := by
  refine ⟨by decide +kernel, by decide +kernel,
    ⟨(running.setReg Reg.TRC_BASE (2 ^ 40 - 4096)).setReg Reg.TRC_SIZE_LOG2 30, by decide +kernel⟩,
    ⟨rfl, running.onTrc fun t => { t with buffer := [zeros 32] }, _, rfl, by decide⟩, ⟨running.setReg Reg.TRC_PC_PERIOD_LOG2 0, by decide +kernel⟩,
    ⟨(running.setReg Reg.TRC_PC_PERIOD_LOG2 10).onCore 0 fun x => { x with halt := .halted }, by decide +kernel⟩,
    by decide +kernel, by decide +kernel, ⟨(coreAt 0).onCore 0 fun x => { x with halt := .draining }, by decide +kernel⟩,
    ⟨(coreAt 0).onCore 0 fun x => { x with halt := .halted }, by decide +kernel⟩,
    ⟨(coreAt 0).setRegAt (Reg.DBG_BKPT0 + 3) 0 (0x82000000 + (((coreAt 0).core 0).pc)), by decide +kernel⟩⟩

/-! Witnesses for `RegulatorRequests`. -/
theorem witness_RegulatorRequests :
    (running.blk ≠ .off ∧ running.blk ≠ .reset ∧ running.pmi.req = none ∧ running.pmi.pgood = true ∧ running.sound = true ∧
      (inService running).admits svc Reg.PWR_VID 0 1000 = true ∧ running.pwr.forecast ≤ min (running.pwr.est / 400000) 0xFFFF + 8 * running.reg Reg.PWR_FORECAST_STEP) ∧
    (∃ s : State, s.blk = .run ∧ s.pmi.req = none ∧ s.pmi.waiting = [(PmiKind.forecast, 9), (.vid, 1), (.floor, 2)]) ∧
    (∃ s : State, s.blk = .run ∧ s.pmi.req = none ∧ s.pmi.waiting = [(PmiKind.vid, 1), (.floor, 2)]) ∧
    (∃ s : State, s.blk = .run ∧ s.pmi.req = none ∧ s.pmi.waiting = [(PmiKind.vid, 0)]) ∧
    (∀ k, ∃ s : State, s.pmi.req = some (k, 5) ∧ s.pwr.held = none) ∧
    (∃ s : State, min (s.pwr.est / 400000) 0xFFFF + 8 * s.reg Reg.PWR_FORECAST_STEP < s.pwr.forecast) ∧
    (∃ s : State, s.pmi.pgood = false) ∧ (∃ s : State, s.pmi.pgood = true ∧ s.blk = .reset) := by
  refine ⟨by decide +kernel, ⟨running.onPmi fun x => { x with waiting := [(PmiKind.forecast, 9), (.vid, 1), (.floor, 2)] }, rfl, rfl, rfl⟩,
    ⟨running.onPmi fun x => { x with waiting := [(PmiKind.vid, 1), (.floor, 2)] }, rfl, rfl, rfl⟩,
    ⟨running.onPmi fun x => { x with waiting := [(PmiKind.vid, 0)] }, rfl, rfl, rfl⟩, fun k => ⟨running.onPmi fun x => { x with req := some (k, 5) }, rfl, rfl⟩,
    ⟨running.onPwr fun p => { p with forecast := 0xFFFF }, by decide +kernel⟩, ⟨running.onPmi fun x => { x with pgood := false }, rfl⟩,
    ⟨{ running with blk := .reset }, by decide +kernel, rfl⟩⟩

/-! Witnesses for `CoreSleepAndRamps`. -/
theorem witness_CoreSleepAndRamps :
    (∃ s : State, s.sound = true ∧ s.regAt Reg.PWR_CORE_STATE 5 = 1 ∧ s.reg Reg.PWR_SLEEP_DELAY ≠ 0 ∧ 5 < s.build.cores ∧ s.far.lines = []) ∧
    (running.sound = true ∧ running.regAt Reg.PWR_CORE_STATE 5 ≠ 1 ∧ running.blk = .run ∧ 5 ∉ running.pwr.waking ∧ 5 ∉ running.pwr.ramping ∧
      running.engineHolds 5 .matrix = false ∧ 5 < running.build.cores) ∧
    (∃ s : State, s.sound = true ∧ s.pwr.wakes = [5] ∧ s.pwr.tokens = 0 ∧ 5 ∈ s.pwr.wakes) ∧
    (∀ c h, ∃ s : State, s.sound = true ∧ s.pwr.wakes = [5, 6] ∧ s.powered = true ∧ s.pmi.pgood = true ∧ 0 < s.pwr.tokens ∧ s.pwr.cleared = c ∧
      s.pwr.held = h ∧ 65535 ≤ s.pwr.forecast + 4 * s.reg Reg.PWR_FORECAST_STEP) ∧
    (∃ s : State, s.sound = true ∧ 5 ∈ s.pwr.waking ∧ s.pmi.pgood = false) ∧ (∃ s : State, s.sound = true ∧ 5 ∈ s.pwr.waking ∧ s.pmi.pgood = true) ∧
    (∃ s : State, s.sound = true ∧ s.engineHolds 0 .matrix = true ∧ s.pwr.ramps = [0] ∧ s.powered = true ∧ s.awake 0 = true ∧
      s.pwr.ramping.length < s.reg Reg.PWR_RAMP_MAX ∧ s.pwr.cleared = some (.ramp 0)) ∧
    (∃ s : State, s.sound = true ∧ s.engineHolds 0 .matrix = true ∧ s.pwr.ramps = [0] ∧ s.powered = true ∧ s.awake 0 = true ∧
      s.reg Reg.PWR_RAMP_MAX ≤ s.pwr.ramping.length) ∧
    (∃ s : State, s.sound = true ∧ 5 ∈ s.pwr.ramping ∧ (s.core 5).mq = []) := by
  refine ⟨⟨(running.setRegAt Reg.PWR_CORE_STATE 5 1).setReg Reg.PWR_SLEEP_DELAY 10, by decide +kernel⟩, by decide +kernel,
    ⟨running.onPwr fun p => { p with wakes := [5], tokens := 0 }, by decide +kernel⟩,
    fun c h => ⟨running.onPwr fun p => { p with wakes := [5, 6], tokens := 1, cleared := c, held := h, forecast := 65535 }, ?_, rfl, rfl, rfl, Nat.one_pos, rfl, rfl, ?_⟩,
    ⟨(running.onPwr fun p => { p with waking := [5] }).onPmi fun x => { x with pgood := false }, by decide +kernel⟩,
    ⟨running.onPwr fun p => { p with waking := [5] }, by decide +kernel⟩,
    ⟨((running.setRegAt Reg.PWR_CORE_STATE 0 0).onCore 0 fun x => { x with mq := [zeros 64] }).onPwr fun p => { p with ramps := [0], cleared := some (.ramp 0) }, by decide +kernel⟩,
    ⟨((running.setRegAt Reg.PWR_CORE_STATE 0 0).onCore 0 fun x => { x with mq := [zeros 64] }).onPwr fun p => { p with ramps := [0], ramping := List.range 64 }, by decide +kernel⟩,
    ⟨running.onPwr fun p => { p with ramping := [5] }, by decide +kernel⟩⟩
  · have : running.sound = true := by decide +kernel
    exact this
  · exact Nat.le_add_right _ _

/-! Witnesses for `GovernorInterval`. -/
theorem witness_GovernorInterval :
    (running.sound = true ∧ running.blk ≠ .off ∧ running.blk ≠ .reset ∧ running.pmi.pgood = true) ∧
    (∃ s : State, s.sound = true ∧ s.blk ≠ .off ∧ s.blk ≠ .reset ∧ s.pmi.pgood = false) :=
  ⟨by decide +kernel, running.onPmi fun x => { x with pgood := false }, by decide +kernel⟩

/-! Witnesses for `FlowUnitsReadBack`. -/
def aData : UnitData := { firstHead := 1, fill := 3, slots := [7, 2 ^ 64 - 1, 9] }
def aUnit (k : UnitKind) (q : Nat) : FlowUnit := { kind := k, xoff := true, seq := q, data := aData, records := [] }
theorem witness_FlowUnitsReadBack :
    (aUnit .data 4095).data.fill = (aUnit .data 4095).data.slots.length ∧ (∀ x ∈ aData.slots, x < 2 ^ 64) ∧
    rawKind (aUnit .replayed 4095).bytes = .replayed ∧ rawData (aUnit .replayed 4095).bytes = aData ∧ fld (le 0 4 (aUnit .replayed 4095).bytes) 18 7 = 4095 ∧
    rawCheck (aUnit .data 4095).bytes 4095 = true ∧ rawCheck (aUnit .data 4095).bytes 0 = false := by decide +kernel
theorem witness_FlowUnitsReadBack_records : (∀ c ∈ ([CtlRecord.empty, .ack 4095, .sack 4095 2047, .nack 1 1, .ident 65535 63 65534 31, .version 5 0 4 3 0x1F,
    .confirm true 4095 65535, .confirm false 1 2] : List CtlRecord), CtlRecord.parse c.bytes = c) ∧
    rawCheck ({ aUnit .control 0 with records := [.ack 3] } : FlowUnit).bytes 0x2000 = true ∧ rawCheck (aUnit .idle 0).bytes 0x3000 = true := by decide +kernel

/-! Witnesses for `LinkTransmission`. -/
/-- The small build in Run with link L1 Active. -/
def up (f : LinkState → LinkState) : State := running.onLink 1 fun l => f { l with active := true }
def aEntry (q : Nat) (due : Bool) (k : Nat) : ReplayEntry := { seq := q, data := aData, replays := k, pos := 0, due := due }
theorem witness_LinkTransmission :
    (running.sound = true ∧ (running.link 1).active = false ∧ (running.link 1).stage ≠ .exchange) ∧
    (∃ s : State, s.sound = true ∧ (s.link 1).active = true ∧ (s.link 1).nackDue = [(4095, 2)]) ∧
    (∃ s : State, s.sound = true ∧ (s.link 1).active = true ∧ (s.link 1).nackDue = [] ∧ (s.link 1).identDue = false ∧ (s.link 1).confirmDue = false ∧
      (s.link 1).replay = [aEntry 0 false 0] ++ aEntry 1 true 2 :: [] ∧ (s.link 1).txQueue ≠ []) ∧
    (∃ s : State, s.sound = true ∧ (s.link 1).active = true ∧ (s.link 1).nackDue = [] ∧ (s.link 1).identDue = false ∧ (s.link 1).confirmDue = false ∧
      (∀ x ∈ (s.link 1).replay, x.due = false) ∧ (s.link 1).ackDue = true ∧ (s.link 1).ackTimer = true) ∧
    (∃ s : State, s.sound = true ∧ (s.link 1).active = true ∧ (s.link 1).nackDue = [] ∧ (s.link 1).identDue = false ∧ (s.link 1).confirmDue = false ∧
      (∀ x ∈ (s.link 1).replay, x.due = false) ∧ (s.link 1).ackDue = false ∧ (s.link 1).xoffIn = false ∧ (s.link 1).txQueue ≠ [] ∧ (s.link 1).replay = []) ∧
    (∃ s : State, s.sound = true ∧ (s.link 1).active = true ∧ (s.link 1).nackDue = [] ∧ (s.link 1).identDue = false ∧ (s.link 1).confirmDue = false ∧
      (∀ x ∈ (s.link 1).replay, x.due = false) ∧ (s.link 1).ackDue = false ∧ (s.link 1).xoffIn = true) ∧
    (∀ k, ∃ s : State, s.sound = true ∧ (s.link 1).active = true ∧ (s.link 1).replay = [aEntry 0 true 0] ++ aEntry 1 false k :: [aEntry 2 false 0] ∧ (s.link 1).set.replayLimit = 8) := by
  refine ⟨by decide +kernel, ⟨up fun l => { l with nackDue := [(4095, 2)] }, by decide +kernel⟩,
    ⟨up fun l => { l with replay := [aEntry 0 false 0, aEntry 1 true 2], txQueue := [{ bits := 1, head := true, cont := false }] }, by decide +kernel⟩,
    ⟨up fun l => { l with ackDue := true, ackTimer := true }, by decide +kernel⟩,
    ⟨up fun l => { l with txQueue := [{ bits := 1, head := true, cont := false }] }, by decide +kernel⟩,
    ⟨up fun l => { l with xoffIn := true }, by decide +kernel⟩, fun k => ⟨up fun l => { l with replay := [aEntry 0 true 0, aEntry 1 false k, aEntry 2 false 0] }, ?_, rfl, rfl, rfl⟩⟩
  have : (up fun l => { l with replay := [] }).sound = true := by decide +kernel
  exact this

/-! Witnesses for `LinkReception`. -/
theorem witness_LinkReception :
    (∃ s : State, s.sound = true ∧ (s.link 1).active = true ∧ (∀ p ∈ (s.link 1).chosen, (s.link 1).laneErrs.getD p 0 ≤ (s.link 1).set.laneThreshold) ∧
      s.regAt Reg.LINK_BAD_UNITS 1 < (s.link 1).set.errThreshold ∧ (s.link 1).badRun < 7 ∧ (s.link 1).next = 4095 ∧ (s.link 1).missing = [] ∧ (s.link 1).held = [] ∧
      (s.link 1).nackDue = [] ∧ (s.link 1).hasRoom false = true ∧ (s.link 1).hasRoom true = true) ∧
    (rawKind (aUnit .data 4095).bytes = .data ∧ rawFill (aUnit .data 4095).bytes ≠ 0 ∧ rawCheck (aUnit .data 4095).bytes 4095 = true) ∧
    (rawCheck (aUnit .data 0).bytes 4095 = false ∧ rawCheck (aUnit .data 0).bytes ((4095 + 1) % 4096) = true) ∧
    (∃ s : State, s.sound = true ∧ (s.link 1).active = true ∧ 7 ≤ (s.link 1).badRun ∧
      (∀ p ∈ (s.link 1).chosen, (s.link 1).laneErrs.getD p 0 + ([2] : List Nat).count p ≤ (s.link 1).set.laneThreshold)) ∧
    (rawKind (aUnit .replayed 4000).bytes = .replayed ∧ rawCheck (aUnit .replayed 4000).bytes (0x1000 ||| 4000) = true ∧ 2048 ≤ (4000 + 4096 - 4095) % 4096) ∧
    (∃ s : State, s.sound = true ∧ (s.link 1).active = true ∧ (s.link 1).missing = [4000] ∧ (s.link 1).held = [] ∧ (s.link 1).next = 4095) ∧
    (rawKind (aUnit .idle 0).bytes = .idle ∧ rawCheck (aUnit .idle 0).bytes 0x3000 = true) ∧
    (∀ r ∈ ([CtlRecord.ack 5, .sack 5 2, .nack 5 2] : List CtlRecord), let b := ({ aUnit .control 0 with records := [r] } : FlowUnit).bytes
      rawKind b = .control ∧ rawCheck b 0x2000 = true ∧ rawFill b = 1 ∧ CtlRecord.parse (slice 4 8 b) = r) := by
  refine ⟨⟨up fun l => { l with next := 4095 }, by decide +kernel⟩, by decide +kernel, by decide +kernel, ⟨up fun l => { l with badRun := 7 }, by decide +kernel⟩,
    by decide +kernel, ⟨up fun l => { l with next := 4095, missing := [4000] }, by decide +kernel⟩, by decide +kernel, by decide +kernel⟩

/-! Witnesses for `LinkGoingDown`. -/
theorem witness_LinkGoingDown :
    (∃ s : State, s.sound = true ∧ (s.link 1).active = true ∧ (s.link 1).set.freewheel ≠ 0 ∧ (s.link 1).xoffIn = true ∧ s.admits opVia Reg.LINK_RETRAIN 1 0 = true ∧
      3 ∈ (s.link 1).chosen) ∧
    (∃ s : State, s.sound = true ∧ (s.link 1).active = true ∧ (s.link 1).chosen = [0, 1, 2, 3] ∧ (s.link 1).single = false ∧ (s.link 1).failed = 0 ∧ (s.link 1).xoffIn = false) ∧
    (running.sound = true ∧ (running.link 1).active = false ∧ (running.link 1).freewheel = false ∧ running.admits opVia Reg.LINK_RETRAIN 1 0 = true ∧
      running.admits opVia Reg.LINK_ENABLE 1 0 = true) ∧
    (∃ s : State, s.sound = true ∧ (s.link 1).active = false ∧ (s.link 1).freewheel = true ∧ (s.link 1).wasActive = true ∧ (s.link 1).failed = 0 ∧
      (s.link 1).replay = [] ∧ (s.link 1).txQueue = [] ∧ (s.link 1).txPkts = [] ∧ (s.link 1).held = [] ∧ (s.link 1).asm = none ∧ (s.link 1).rxFlits = []) := by
  refine ⟨⟨up fun l => { l with xoffIn := true }, by decide +kernel⟩, ⟨up id, by decide +kernel⟩, by decide +kernel,
    ⟨running.onLink 1 fun l => { l with freewheel := true, wasActive := true }, by decide +kernel⟩⟩

/-! Witnesses for `LinkTraining`. -/
/-- A training word of a READY transmitter with a count. -/
def aTraining (count : Nat) : Word128 :=
  let body := 0xA5C33C5A0F9669F0 * 2 ^ 64 + 2 * 2 ^ 58 + count * 2 ^ 35
  BitVec.ofNat 128 (body + Crc.crc16 ((leBytes 16 body).drop 2))
theorem witness_LinkTraining :
    (∃ s : State, s.sound = true ∧ (s.link 1).active = false ∧ (s.link 1).heldDown = false ∧ s.rst.lclk.testBit 1 = true ∧ s.regAt Reg.LINK_ENABLE 1 ≠ 0 ∧
      (s.link 1).trainDue = true) ∧
    (∃ s : State, s.sound = true ∧ (s.link 1).active = false ∧ (s.link 1).heldDown = false ∧ s.rst.lclk.testBit 1 = true ∧ s.regAt Reg.LINK_ENABLE 1 ≠ 0 ∧
      (s.link 1).trainDue = false ∧ (s.link 1).stage = .idle ∧ (s.link 1).attempts ≠ 0) ∧
    (∃ s : State, s.sound = true ∧ s.admits opVia Reg.LINK_ENABLE 1 1 = true ∧ s.regAt Reg.LINK_ENABLE 1 = 0 ∧ (s.link 1).active = false) ∧
    (∃ s : State, s.sound = true ∧ (s.link 1).stage = .detect ∧ (s.link 1).offerSingle = false ∧ (s.link 1).exhausted = false ∧
      (s.link 1).attempts + 1 < (s.link 1).set.retries) ∧ 4 ≤ popCount 5 0x17 ∧ popCount 5 7 < 4 ∧
    (∃ s : State, s.sound = true ∧ (s.link 1).stage = .detect ∧ (s.link 1).exhausted = false ∧ (s.link 1).set.retries ≤ (s.link 1).attempts + 1) ∧
    (∃ s : State, s.sound = true ∧ (s.link 1).stage = .align ∧ (s.link 1).exhausted = false ∧ (s.link 1).attempts + 1 < (s.link 1).set.retries ∧
      (s.link 1).offerSingle = false ∧ (s.link 1).single = false ∧ (∀ p ∈ (s.link 1).positions, p.locked = false) ∧ (s.link 1).positions.length = 5) ∧
    (∃ s : State, s.sound = true ∧ (s.link 1).stage = .exchange) ∧
    (let w := (aTraining 7).toNat
     fld w 127 64 = 0xA5C33C5A0F9669F0 ∧ Crc.crc16 ((leBytes 16 w).drop 2) = fld w 15 0 ∧ fld w 60 58 = 2 ∧ fld w 50 35 = 7) ∧
    (∃ s : State, s.sound = true ∧ (s.link 1).active = false ∧ (s.link 1).stage = .align ∧ (s.link 1).offered 4 = true ∧
      ∃ p, (s.link 1).positions[4]? = some p ∧ p.ready = true) ∧ (up id).sound = true := by
  refine ⟨⟨running.onLink 1 fun l => { l with trainDue := true }, by decide +kernel⟩, ⟨running.onLink 1 fun l => { l with attempts := 3, trainDue := false }, by decide +kernel⟩,
    ⟨running.setRegAt Reg.LINK_ENABLE 1 0, by decide +kernel⟩, ⟨running.onLink 1 fun l => { l with stage := .detect }, by decide +kernel⟩, by decide, by decide,
    ⟨running.onLink 1 fun l => { l with stage := .detect, attempts := 15 }, by decide +kernel⟩, ⟨running.onLink 1 fun l => { l with stage := .align }, by decide +kernel⟩,
    ⟨running.onLink 1 fun l => { l with stage := .exchange }, by decide +kernel⟩, by decide +kernel,
    ⟨running.onLink 1 fun l => { l with stage := .align, positions := List.replicate 5 { Position.blank with ready := true } }, by decide +kernel, by decide +kernel,
      by decide +kernel, by decide +kernel, _, rfl, rfl⟩, by decide +kernel⟩

/-! Witnesses for `PacketsReadBack`. -/
def aPacket (op : Opcode) (data : Bool) (len : Nat) : Packet :=
  { data := data, mcast := false, ordered := true, ltag := false, op := op, job := 0xFFE, dest := 3, src := 9, tag := 0xFFFF, gen := 255, seq := 2 ^ 20 - 1,
    destOffset := if data then 2 ^ 48 - 1 else 0, counter := if data then 0xFFFF else 0, countEn := data, countUnit := data, opArg := if data then 0xFFFF else 0,
    payload := List.replicate len 0xA5 }
theorem witness_PacketsReadBack :
    parsePacket ((aPacket .store true 20).flits.map (·.bits)) = some (aPacket .store true 20) ∧
    parsePacket ((aPacket .completion false 16).flits.map (·.bits)) = some (aPacket .completion false 16) ∧
    (aPacket .store true 4096).payload.length ≤ 4096 ∧ (aPacket .store true 20).flits.length = flitCount true 20 := by decide +kernel

/-! Witnesses for `PacketArrival`. -/
def aStore : Packet := { aPacket .store true 20 with job := 5, tag := 7, seq := 1, destOffset := 64, counter := 0, countEn := false, countUnit := false, opArg := 0 }
/-- A block in Run with a STORE's flits on link L1 as the function leaves them. -/
def arriving (f : LinkState → LinkState) : State := running.onLink 1 f
theorem witness_PacketArrival :
    (parsePacket (aStore.flits.map (·.bits)) = some aStore ∧ aStore.flits.length = flitCount aStore.data aStore.payload.length ∧
      (∀ x ∈ aStore.flits.drop 1, x.head = false) ∧ (aStore.flits.head?.bind fun f => declared f.bits) = some (aStore.data, aStore.payload.length) ∧
      payCheck aStore.payload = storedCheck (aStore.flits.map (·.bits)) ∧ 4 < aStore.flits.length) ∧
    (∃ s : State, s.sound = true ∧ s.reg Reg.TLM_RATE_LOG2 = 0 ∧ (s.link 1).asm = none ∧ (s.link 1).skip = false ∧ (s.link 1).rxFlits = aStore.flits ++ [] ∧
      s.checkHeader 1 aStore = some Reg.DROP_JOB) ∧
    (∃ s : State, s.sound = true ∧ s.reg Reg.TLM_RATE_LOG2 = 0 ∧ (s.link 1).asm = none ∧ (s.link 1).skip = false ∧ (s.link 1).rxFlits = aStore.flits ++ [] ∧
      s.checkHeader 1 aStore = none) ∧
    (∀ body, ∃ (s : State) (a : Assembly), s.sound = true ∧ s.reg Reg.TLM_RATE_LOG2 = 0 ∧ (s.link 1).asm = some a ∧ a.admitted = true ∧ a.dropped = false ∧
      a.flits = (aStore.flits.take 4).map (·.bits) ∧ a.due = aStore.flits.length - 4 ∧ (s.link 1).rxFlits = body ∧ (s.link 1).freewheel = false ∧
      (s.link 1).xoffOut = false ∧ s.pkt.drain = none) := by
  refine ⟨by decide +kernel, ⟨arriving fun l => { l with rxFlits := aStore.flits }, by decide +kernel⟩,
    ⟨((arriving fun l => { l with rxFlits := aStore.flits }).setRegAt Reg.CTX_ROUTE_STATE 2 1 |>.setRegAt Reg.CTX_JOB_ID 2 5 |>.setRegAt Reg.CTX_PORT_ADMIT 2 2), by decide +kernel⟩,
    fun body => ⟨arriving fun l => { l with asm := some { flits := (aStore.flits.take 4).map (·.bits), due := aStore.flits.length - 4, admitted := true, dropped := false }, rxFlits := body },
      _, ?_, by rfl, rfl, rfl, rfl, rfl, rfl, rfl, rfl, rfl, rfl⟩⟩
  have : (arriving fun l => { l with asm := some { flits := (aStore.flits.take 4).map (·.bits), due := aStore.flits.length - 4, admitted := true, dropped := false } }).sound = true := by decide +kernel
  exact this

/-! Witnesses for `PacketInjection`. -/
/-- The block in Run with one waiting packet, a route to chip 7 by port 2, and link L2 as the function leaves it. -/
def injecting (p : Packet) (f : LinkState → LinkState) : State :=
  ((running.setReg (routeKey 7) 4).onLink 2 f).onPkt fun k => { k with wait := [{ pkt := p, ctx := none, exclude := none }] }
def aPath (p : Packet) (l : List Nat) (s : State) : Bool := match s.path p with | .ports x => x == l | _ => false
theorem witness_PacketInjection :
    (∃ s : State, s.sound = true ∧ s.pkt.wait[0]? = none) ∧
    (∃ (s : State) (w : Waiting), s.sound = true ∧ s.pkt.wait[0]? = some w ∧ s.blk = .run ∧ w.pkt.dest ≠ s.ownChip ∧ s.path w.pkt = .fail 4) ∧
    (∃ (s : State) (w : Waiting), s.sound = true ∧ s.pkt.wait[0]? = some w ∧ s.blk = .run ∧ w.pkt.dest ≠ s.ownChip ∧ s.path w.pkt = .wait) ∧
    (∃ (s : State) (w : Waiting), s.sound = true ∧ s.pkt.wait[0]? = some w ∧ w.pkt.dest ≠ s.ownChip ∧ s.path w.pkt = .ports [2] ∧ s.heldBack 0 w = false ∧
      w.pkt.ordered = false ∧ s.openMembers w.pkt 2 = [2]) ∧
    (∃ (s : State) (w : Waiting), s.sound = true ∧ s.pkt.wait[0]? = some w ∧ w.pkt.dest ≠ s.ownChip ∧ s.path w.pkt = .ports [2] ∧ s.heldBack 0 w = false ∧
      w.pkt.ordered = true ∧ w.pkt.mcast = false ∧ s.pkt.pins = [] ∧ (s.activeMembers 2).head? = some 2 ∧ s.txUnits 2 < s.entryLimit w.pkt) ∧
    (∃ (s : State) (w : Waiting), s.sound = true ∧ s.pkt.wait[0]? = some w ∧ w.pkt.dest = s.ownChip ∧ w.pkt.mcast = false ∧ s.heldBack 0 w = false ∧ w.pkt.op = .completion) := by
  refine ⟨⟨running, by decide +kernel⟩, ⟨injecting { aStore with dest := 7 } id, _, by decide +kernel, rfl, by decide +kernel⟩,
    ⟨injecting { aStore with dest := 7 } fun l => { l with freewheel := true }, _, by decide +kernel, rfl, by decide +kernel⟩,
    ⟨injecting { aStore with dest := 7, ordered := false } fun l => { l with active := true }, _, by decide +kernel, rfl, by decide +kernel⟩,
    ⟨injecting { aStore with dest := 7 } fun l => { l with active := true }, _, by decide +kernel, rfl, by decide +kernel⟩,
    ⟨injecting { aPacket .completion false 8 with job := 5, dest := 3 } id, _, by decide +kernel, rfl, by decide +kernel⟩⟩

/-! Witnesses for `RouteTables`. -/
theorem witness_RouteTables :
    (running.sound = true ∧ running.admits opVia Reg.ROUTE_LOAD 0 0 = true ∧ running.pkt.loading = false ∧ running.admits opVia Reg.ROUTE_DRAIN_UPDATE 0 0 = true ∧
      running.pkt.drain = none ∧ running.admits opVia Reg.LPORT_LINKS 5 0x20 = true ∧ popCount 64 0x20 ∈ [0, 1, 2, 4, 8, 16] ∧ 0x20 < 2 ^ running.build.links ∧
      running.admits opVia Reg.CTX_ROUTE_BIND 2 0 = true ∧ running.regAt Reg.CTX_ROUTE_STATE 2 ≠ 1 ∧ 2 ∉ running.pkt.binding) ∧
    ((List.range 64).all fun q => q == 5 || running.regAt Reg.LPORT_LINKS q &&& 0x20 == 0) = true ∧
    (∃ s : State, s.sound = true ∧ s.pkt.loading = true ∧ 2 ^ 40 < s.reg Reg.ROUTE_LOAD_BASE + 524288) ∧
    (∃ s : State, s.sound = true ∧ s.pkt.loading = true ∧ s.reg Reg.ROUTE_LOAD_BASE + 524288 ≤ 2 ^ 40 ∧ s.reg Reg.ROUTE_LOAD_BASE + 524288 ≤ s.build.memBytes ∧
      s.memPoison = [] ∧ s.memAnswers = [] ∧ 0 < s.build.ports ∧ (∀ k, k < s.build.ports → (s.port k).disabled = false) ∧ s.pkt.refs = []) ∧
    (∃ s : State, s.sound = true ∧ s.pkt.drain = none ∧ s.admits opVia Reg.ROUTE_DRAIN_UPDATE 0 0 = true ∧ 2 ∈ bitsOf 64 (s.routeEntry 7 ||| 4) ∧ 2 ∈ s.activeMembers 2 ∧
      (s.link 2).version / 256 = 4) ∧
    (∃ s : State, s.sound = true ∧ s.pkt.drain = some (7, 4) ∧ s.chipQuiet 7 = true) ∧ (∃ s : State, s.sound = true ∧ s.pkt.drain = some (7, 4) ∧ s.chipQuiet 7 = false) ∧
    (∃ s : State, s.sound = true ∧ 2 ∈ s.pkt.binding ∧ s.bindEarly 2 = some (1, 0)) := by
  refine ⟨by decide +kernel, by decide +kernel, ⟨(running.setReg Reg.ROUTE_LOAD_BASE (2 ^ 40 - 4096)).onPkt fun k => { k with loading := true }, by decide +kernel⟩,
    ⟨running.onPkt fun k => { k with loading := true }, by decide +kernel⟩,
    ⟨(running.setReg (routeKey 7) 4).onLink 2 fun l => { l with active := true, version := 0x403 }, by decide +kernel⟩,
    ⟨running.onPkt fun k => { k with drain := some (7, 4) }, by decide +kernel⟩,
    ⟨(injecting { aStore with dest := 7 } id).onPkt fun k => { k with drain := some (7, 4) }, by decide +kernel⟩, ⟨running.onPkt fun k => { k with binding := [2] }, by decide +kernel⟩⟩
/-- A block whose context 2 is about to be bound to a job of this chip alone. -/
def binding : State :=
  { (((running.setRegAt Reg.CTX_JOB_ID 2 5).setRegAt Reg.CTX_RANK_COUNT 2 1).setRegAt Reg.CTX_RANK_BASE 2 0x2000).onPkt fun k => { k with binding := [2] } with
    mem := storeBytes (storeBytes (storeBytes [] 0 (leBytes 2 0xFFFF)) 256 (leBytes 2 0xFFFF)) 0x2000 (leBytes 4 0x10003) }
theorem witness_RouteTables_bind : binding.sound = true ∧ binding.bindEarly 2 = none ∧
    (let r := (binding.onPkt fun k => { k with binding := setDel 2 k.binding }).readRanks 2
     let a := r.2.readTree (binding.regAt Reg.JOB_TREE_BASE 2)
     let b := a.2.readTree (binding.regAt Reg.JOB_TREE_BASE 2 + 256)
     r.2.ranksRefusal 2 r.1 = none ∧ a.1.toOption = some { parent := 0xFFFF, children := [] } ∧ b.1.toOption = some { parent := 0xFFFF, children := [] } ∧
      r.2.sound = true ∧ b.2.sound = true ∧ b.2.pkt = r.2.pkt ∧ r.2.pkt = { binding.pkt with binding := setDel 2 binding.pkt.binding }) := by
  decide +kernel

/-! Witnesses for `RouteEntriesInTheDictionary`. -/
theorem witness_RouteEntriesInTheDictionary :
    (small.serves .mii = true ∧ 1 ≤ (small.ont.session .mii).level.toNat ∧ small.blk ≠ .kickstand ∧ Table.get small.pkt.refs 0 65535 = 0 ∧
      Table.find? small.dict (256 * (0x4400 + 65535 >>> 7) + (65535 &&& 0x7F) + 1) = none) ∧
    (∃ s : State, s.serves .mii = true ∧ 1 ≤ (s.ont.session .mii).level.toNat ∧ s.blk ≠ .kickstand ∧ Table.get s.pkt.refs 0 0 ≠ 0) :=
  ⟨by decide +kernel, small.onPkt fun k => { k with refs := [(0, 1)] }, by decide +kernel⟩

/-! Witnesses for `RemoteRequestsServed`. -/
/-- The block in Run with context 2 bound to job 5, and the first page of its address space mapped, in partition 0's cache, to 0x30000. -/
def serving : State :=
  (((running.setRegAt Reg.CTX_ROUTE_STATE 2 1).setRegAt Reg.CTX_JOB_ID 2 5).setReg Reg.RMT_CMPL_COALESCE 0).onXlt fun x =>
    { x with leaves := [{ part := 0, ctx := 2, base := 0, size := 16, pte := 0x3000F, reads := 0, writes := 0 }] }
def reqPacket (op : Opcode) (body : List Byte) : Packet :=
  { data := op != .loadReq && op != .atomicReq, mcast := false, ordered := false, ltag := false, op := op, job := 5, dest := 3, src := 9, tag := 7, gen := 0, seq := 0,
    destOffset := if op = .loadReq ∨ op = .atomicReq then 0 else 64, counter := 0, countEn := false, countUnit := false,
    opArg := if op = .loadReq ∨ op = .atomicReq then 0 else 7, payload := body }
theorem witness_RemoteRequestsServed :
    (serving.sound = true ∧ serving.memGood = true ∧ serving.memPoison = [] ∧ serving.reg Reg.RMT_CMPL_COALESCE = 0 ∧ serving.rmt.casParts = []) ∧
    ([Opcode.store, .copy, .scatter].all fun op => let p := reqPacket op (zeros 100)
      serving.reaches p 2 && p.opArg == p.tag && (serving.cached? p p.seq).isNone && serving.maps (serving.partOfLink 1) 2 p.destOffset 100 .write true 0x30040 &&
      decide (0x30040 + 100 ≤ serving.build.memBytes)) = true ∧
    (let p := reqPacket .store (zeros 100)
     (∃ (s : State) (e : CacheEntry), s.sound = true ∧ s.memGood = true ∧ s.reaches p 2 = true ∧ s.cached? p p.seq = some e ∧ e.result = .completion) ∧
     (∃ s : State, s.sound = true ∧ s.memGood = true ∧ s.powered = true ∧ s.ctxOfJob? p.job = some 2 ∧ s.regAt Reg.CTX_STATE 2 = 3 ∧ s.pkt.drain = none)) ∧
    (let p := reqPacket .loadReq (loadReqBody 64 5000)
     serving.reaches p 2 = true ∧ serving.maps (serving.partOfLink 1) 2 (le 0 6 p.payload) (le 6 3 p.payload + 1) .read true 0x30040 = true) ∧
    ([0, 1, 2, 3, 4, 5, 6, 7, 8, 9].all fun code => let p := reqPacket .atomicReq (atomicBody 64 code (code != 2) false (zeros 8))
      serving.reaches p 2 && (serving.cached? p p.seq).isNone && !p.isCasPart && serving.maps (serving.partOfLink 1) 2 64 (if code != 2 then 8 else 4) .atomic true 0x30040) = true ∧
    (let p := reqPacket .atomicReq (atomicBody 64 2 true false (zeros 8))
     serving.reaches p 2 = true ∧ p.isCasPart = true ∧ serving.cached? p 0 = none) ∧
    (let v := 64 + 99 * 2 ^ 48 + 15 * 2 ^ 60
     serving.reaches (reqPacket .gatherReq (leBytes 8 v)) 2 = true ∧ v < 2 ^ 64 ∧ serving.maps (serving.partOfLink 1) 2 (fld v 47 0) (fld v 59 48 + 1) .read true 0x30040 = true) := by
  refine ⟨by decide +kernel, by decide +kernel, ⟨⟨serving.setCache (reqPacket .store (zeros 100)) 0 .completion, _, by decide +kernel, by decide +kernel, by decide +kernel, rfl, rfl⟩,
    ⟨serving.setRegAt Reg.CTX_STATE 2 3, by decide +kernel⟩⟩, by decide +kernel, by decide +kernel, by decide +kernel, by decide +kernel⟩

/-! Witnesses for `RemoteAnswersTaken`. -/
def aSeq : SeqState := { SeqState.fresh (reqPacket .store (zeros 8)) with phase := .waiting, outstanding := 1, attempts := 1 }
def aTxn (kind : TxnKind) (owner : Owner) (pieces : List Piece) (complete : Bool) : Txn :=
  { tag := 7, ctx := 2, gen := 0, dest := 9, kind := kind, owner := owner, ord := 0, space := .spad, pieces := pieces, seqs := [(0, aSeq)], cas := none,
    poisoned := false, tainted := false, quarantined := false, complete := complete }
def tracking (t : Txn) : State := serving.onRmt fun r => { r with txns := [t] }
def answer (op : Opcode) (body : List Byte) : Packet := { reqPacket op body with data := op == .loadRsp, src := 9, opArg := 0, destOffset := 0 }
theorem witness_RemoteAnswersTaken :
    (serving.sound = true ∧ serving.powered = true ∧ serving.rmt.txns = [] ∧ serving.ctxOfJob? 4 = none) ∧
    (∀ t ∈ [aTxn .push (.farWb 0 1) [] false, aTxn .push (.farWb 0 1) [] true, aTxn .load (.dma 0 0) [{ seq := 0, addr := 64, len := 8, parts := [] }] false,
        aTxn .atomic (.dma 0 0) [{ seq := 0, addr := 64, len := 8, parts := [] }] false],
      (tracking t).sound = true ∧ (tracking t).powered = true ∧ t.tag = 7 ∧ t.quarantined = false ∧ t.cas = none ∧ t.kind ≠ .image ∧ 0 = (tracking t).genOf t.ctx ∧
      ((tracking t).window t.dest).queue = [] ∧ aSeq.attempts < 1 + (tracking t).reg Reg.RMT_RETRY_LIMIT ∧ aSeq.busies < (tracking t).reg Reg.RMT_BUSY_LIMIT) ∧
    aSeq.phase = .waiting ∧ aSeq.outstanding ≤ 1 ∧
    (∃ (s : State) (w : FarWb), s.sound = true ∧ s.rmt.txns = [aTxn .push (.farWb 0 1) [] true] ∧ s.far.wbs = [w] ∧ w.id = 1) := by
  refine ⟨by decide +kernel, by decide +kernel, by decide, by decide,
    ⟨(tracking (aTxn .push (.farWb 0 1) [] true)).onFar fun f => { f with wbs := [aWb none] }, _, by decide +kernel, rfl, rfl, rfl⟩⟩

/-! Witnesses for `WindowsAndRemoteTimers`. -/
theorem witness_WindowsAndRemoteTimers :
    (serving.sound = true ∧ serving.powered = true ∧ serving.pkt.drain = none ∧ serving.rmt.pendingReqs = [] ∧ (serving.window 9).queue = [] ∧ (serving.window 9).releases = [] ∧
      0 < serving.grantable 9 4 ∧ serving.rmt.masks = []) ∧
    (let r := reqPacket .windowReq (leBytes 2 4 ++ zeros 14)
     r.op = .windowReq ∧ le 2 1 r.payload = 0 ∧ 0 < le 0 2 r.payload) ∧
    (let r := reqPacket .windowReq (leBytes 2 0 ++ [1, 0] ++ fit 12 (leBytes 2 7))
     le 2 1 r.payload = 1 ∧ le 0 2 r.payload = 0) ∧
    (∃ s : State, s.sound = true ∧ s.rmt.pendingReqs = [(9, 5, 4)] ∧ 0 < s.grantable 9 4) ∧ (∃ s : State, s.sound = true ∧ s.grantable 9 4 = 0 ∧ s.rmt.pendingReqs = []) ∧
    (∃ s : State, s.sound = true ∧ s.powered = true ∧ (s.window 9).releases = [(7, 0, 5)] ∧ s.regAt Reg.CTX_JOB_ID 2 = 5 ∧ s.regAt Reg.CTX_ROUTE_STATE 2 = 1) ∧
    (∀ ph ∈ [SeqPhase.waiting, .backoff, .parked], ∀ n ∈ [1, 100], ∀ b, let t := { aTxn .push (.dma 0 0) [] false with seqs := [(0, { aSeq with phase := ph, attempts := n })], quarantined := b }
      (tracking t).sound = true ∧ (tracking t).powered = true ∧ (tracking t).pkt.drain = none ∧ ((tracking t).window t.dest).queue = [] ∧ ((tracking t).window t.dest).releases = [] ∧
      aSeq.needGrant = false ∧ aSeq.pkt.ordered = false ∧ 1 + (tracking t).reg Reg.RMT_RETRY_LIMIT ≤ 100 ∧ 1 < 1 + (tracking t).reg Reg.RMT_RETRY_LIMIT) ∧
    (∃ (s : State) (m : CmplMask), s.sound = true ∧ s.rmt.masks = [m] ∧ m.seqs = [3]) ∧ (∃ (s : State) (e : CacheEntry), s.sound = true ∧ s.rmt.cache = [e]) := by
  refine ⟨by decide +kernel, by decide +kernel, by decide +kernel, ⟨serving.onRmt fun r => { r with pendingReqs := [(9, 5, 4)] }, by decide +kernel⟩,
    ⟨serving.onRmt fun r => { r with granted := [(9, 1024)] }, by decide +kernel⟩, ⟨serving.onWindow 9 fun w => { w with releases := [(7, 0, 5)] }, by decide +kernel⟩,
    by decide +kernel, ⟨serving.onRmt fun r => { r with masks := [{ src := 9, tag := 7, gen := 0, job := 5, ctx := 2, seqs := [3] }] }, _, by decide +kernel, rfl, rfl⟩,
    ⟨serving.onRmt fun r => { r with cache := [{ src := 9, tag := 7, gen := 0, seq := 0, job := 5, result := .completion }] }, _, by decide +kernel, rfl⟩⟩

/-! Witnesses for `RemoteDescriptors`. -/
/-- The 64 bytes of a remote descriptor of an operation to rank 0: 100 bytes between remote offset 0x1000 and scratchpad address 128, elements at 64. -/
def aDesc (op : Nat) : List Byte := leBytes 64 (op + 0x1000 * 2 ^ 64 + 128 * 2 ^ 128 + 99 * 2 ^ 192 + 64 * 2 ^ 352)
/-- Core C0 in Run with a descriptor at the head of its DMA queue, and rank 0 being chip 9. -/
def issuing (op : Nat) : State :=
  { ((((coreAt 0).onCore 0 fun x => { x with dq := [aDesc op] }).setRegAt Reg.CTX_RANK_COUNT 2 1).setRegAt Reg.CTX_RANK_BASE 2 0x2000) with
    mem := storeBytes [] 0x2000 (leBytes 4 0x10009), spad := storeSpad [] 64 (leBytes 8 0x1000), spadWritten := [1] }
theorem witness_RemoteDescriptors :
    ([1, 2, 3, 4, 5].all fun op => let s := issuing op
      let d := RmtDesc.parse (aDesc op)
      s.sound && ((s.core 0).run.bind fun r => r.arg).isNone && s.dmaHead? 0 == some (aDesc op) && d.op == op && !d.statusEn && !d.localCountEn && (d.refusal []).isNone &&
      s.inFootprint 0 d.addr (d.localLen []) && (s.rankChip 2 d.rank).1 == some 9 && decide ((s.rankChip 2 d.rank).2 = s)) = true ∧
    ([6, 7].all fun op => let s := issuing op
      let d := RmtDesc.parse (aDesc op)
      let r := s.spadRead 0 d.table (8 * d.count)
      let elems := (words64 (plain r.1)).map parseElem
      s.sound && s.dmaHead? 0 == some (aDesc op) && d.op == op && s.inFootprint 0 d.table (8 * d.count) && (d.refusal elems).isNone &&
      s.inFootprint 0 d.addr (d.localLen elems) && decide (r.2 = s) && (s.rankChip 2 d.rank).1 == some 9) = true ∧
    (coreAt 0).dmaHead? 0 = none := by decide +kernel
def aPlan : TxnPlan :=
  { ctx := 2, part := 0, dest := 9, kind := .load, owner := .dma 0 0, ord := 0, space := .spad, tag := none,
    items := [{ seq := 0, addr := 128, len := 100, reads := false, pkt := reqPacket .loadReq (loadReqBody 0x1000 100) }], cas := none }
theorem witness_RemoteDescriptors_issue :
    let s := ((coreAt 0).setRegAt Reg.CTX_TRACKER_GRANT 2 16).onRmt fun r => { r with plans := [aPlan] }
    let t (x : Task) : Task := { x with trackerMax := 1 }
    let u := s.onCtx 2 fun x => { x with tasks := x.tasks.map t }
    u.sound = true ∧ u.rmt.plans = [aPlan] ∧ u.mayIssue aPlan = true ∧ u.engineStalled 0 .dma = false ∧ u.rmt.txns = [] ∧ u.rmt.windows = [] ∧ u.pkt.drain = none := by
  decide +kernel

/-! Witnesses for `MatrixAndVectorWork`. -/
/-- The 32 bytes of a MATMUL descriptor: INT8 operands at 0 and 8192, M = N = 1, one block, into bank 1. -/
def aMatmul (clear : Nat) : List Byte := leBytes 32 (0x77 + 256 * clear + 2 ^ 9 + 2 ^ 10 + 8192 * 2 ^ 96)
/-- The 64 bytes of a pass descriptor: a clause of one word at 0, one row, S0 at 1024, S1 at 2048, D at 4096, in 32-bit lanes. -/
def aPass : List Byte :=
  let stream (a : Nat) : Nat := a + 2 ^ 26 + 1024 * 2 ^ 32
  leBytes 64 (stream 1024 * 2 ^ 64 + stream 2048 * 2 ^ 128 + stream 4096 * 2 ^ 256)
/-- Core C0 in Run, its engines with a descriptor each, its scratchpad's first line holding a clause word. -/
def engaged (w : Nat) (m v : List Byte) : State :=
  { ((coreAt 0).onCore 0 fun x => { x with mq := [m], vq := [v], gated := false }) with spad := storeSpad [] 0 (leBytes 64 w), spadWritten := [0] }
theorem witness_MatrixAndVectorWork :
    (∀ c ∈ [0, 1], let s := engaged 0 (aMatmul c) aPass
      s.sound = true ∧ s.mmReady 0 (MmDesc.parse (aMatmul c)) = true ∧ s.mmRefusal 0 (MmDesc.parse (aMatmul c)) = none ∧ (MmDesc.parse (aMatmul c)).aFmt = 7) ∧
    (∃ (s : State) (bs : List Byte) (code : Nat), s.sound = true ∧ (s.core 0).mq = [bs] ∧ s.mmReady 0 (MmDesc.parse bs) = true ∧ s.mmRefusal 0 (MmDesc.parse bs) = some code) ∧
    (let w := ccWord 1 0 8 9 0 - 8 * 2 ^ 16 - 9 * 2 ^ 11 + 8 * 2 ^ 17 + 9 * 2 ^ 11
     let s := engaged w (aMatmul 0) aPass
     let d := VpDesc.parse aPass
     s.sound = true ∧ s.powered = true ∧ s.awake 0 = true ∧ (s.core 0).run.isSome = true ∧ s.vpRefusal 0 d = none ∧ unpack 32 (plain (s.spadRead 0 d.clause (4 * d.len)).1) = [w] ∧
      fld w 31 26 = 1 ∧ fld w 25 23 = 0 ∧ fld w 22 17 = 8 ∧ fld w 16 11 = 9 ∧ bit w 4 = false ∧ d.rows = 1 ∧ d.rowMask = 0 ∧ d.lastMask = 0 ∧ d.redOp = 0 ∧
      d.s0.en = true ∧ d.s0.queue = false ∧ d.s1.en = true ∧ d.s0.fmt = 0 ∧ d.s1.fmt = 0 ∧ d.s2.en = false ∧ d.d.en = true ∧ d.d.fmt = 0) ∧
    (∃ (s : State) (bs : List Byte) (code : Nat), s.sound = true ∧ (s.core 0).vq = [bs] ∧ s.powered = true ∧ s.awake 0 = true ∧ (s.core 0).run.isSome = true ∧
      s.vpRefusal 0 (VpDesc.parse bs) = some code) ∧
    (∀ d ∈ [none, some 70], let s := (coreAt 0).onCore 0 fun x => { x with mm := some { bank := 1, emit := true, doneSem := d }, vp := some { red := none, summary := some (64, zeros 32), bank := some 1, doneSem := d } }
      s.sound = true ∧ s.calm (Option.toList d) = true ∧ ∀ n ∈ d, (s.sem n).toNat < 0xFFFFFFFF) ∧
    ((coreAt 0).core 0).mm = none ∧ ((coreAt 0).core 0).vp = none ∧ ((coreAt 0).core 0).mq = [] ∧ ((coreAt 0).core 0).vq = [] := by
  refine ⟨by decide +kernel, ⟨engaged 0 (zeros 32 ++ []) aPass, zeros 32, 0x40, by decide +kernel⟩, by decide +kernel, ⟨engaged 0 [] (leBytes 64 (2 ^ 29)), _, 0x48, by decide +kernel, rfl, by decide +kernel⟩,
    by decide +kernel, by decide +kernel⟩

/-! Witnesses for `LocalCopiesAndZeroFill`. -/
/-- The 64 bytes of a local descriptor: a kind, its spaces, 128 bytes from 0x40 to 0x400. -/
def aLocal (kind src dst : Nat) : List Byte := leBytes 64 (kind + 256 * src + 1024 * dst + 0x40 * 2 ^ 32 + 0x400 * 2 ^ 96 + 127 * 2 ^ 160)
/-- Core C0 in Run with a local descriptor at the head of its DMA queue, the first page of its context's memory mapped to 0x30000. -/
def copying (bs : List Byte) : State :=
  ((coreAt 0).onCore 0 fun x => { x with dq := [bs] }).onXlt fun x => { x with leaves := [{ part := 0, ctx := 2, base := 0, size := 16, pte := 0x3000F, reads := 0, writes := 0 }] }
theorem witness_LocalCopiesAndZeroFill :
    (∀ q ∈ [(0x10, 0, 0), (0x10, 0, 1), (0x10, 1, 0), (0x11, 0, 0)], let bs := aLocal q.1 q.2.1 q.2.2
      let d := LocalDesc.parse bs
      let s := copying bs
      s.sound = true ∧ ((s.core 0).run.bind fun r => r.arg) = none ∧ s.dmaHead? 0 = some bs ∧ d.kind = q.1 ∧ d.src = q.2.1 ∧ d.dst = q.2.2 ∧ d.fence = false ∧ s.localRefusal 0 d = none ∧
      s.memGood = true ∧ s.maps (s.partOfCore 0) (s.ctxOfCore 0) d.dstAddr d.len .write false 0x30400 = true ∧
      s.maps (s.partOfCore 0) (s.ctxOfCore 0) d.srcAddr d.len .read false 0x30040 = true ∧ 0x30400 + d.len ≤ s.build.memBytes) ∧
    (∀ k ∈ [0x10, 0x11], let s := copying (aLocal k 0 3)
      s.sound = true ∧ s.dmaHead? 0 = some (aLocal k 0 3) ∧ s.localRefusal 0 (LocalDesc.parse (aLocal k 0 3)) = some 0x54) ∧
    (let s := (copying (leBytes 64 0x1010)).onCore 0 fun x => { x with copies := [{ doneSem := none, counter := none, error := none }] }
     s.dmaIdle 0 = false ∧ s.dmaHead? 0 = some (leBytes 64 0x1010) ∧ (LocalDesc.parse (leBytes 64 0x1010)).fence = true ∧ s.sound = true) ∧
    (coreAt 0).dmaHead? 0 = none ∧
    (∀ e ∈ [none, some 0x58], let s := (coreAt 0).onCore 0 fun x => { x with copies := [{ doneSem := some 70, counter := some (17, 128), error := e }] }
      s.sound = true ∧ s.calm [70] = true ∧ (s.sem 70).toNat < 0xFFFFFFFF) ∧
    ((inService running).admits svc Reg.MEM_ZERO_GO 2 0 = true ∧ (running.ctx 2).zero.isSome = false ∧ (running.ctx 2).tasks = []) ∧
    (∃ s : State, s.sound = true ∧ s.admits svc Reg.MEM_ZERO_GO 2 0 = true ∧ (s.ctx 2).zero.isSome = true) ∧
    (let s := (copying []).onCtx 2 fun x => { x with zero := some (0, 65536) }
     s.sound = true ∧ s.memGood = true ∧ 0x30000 + 65536 ≤ s.build.memBytes ∧ s.maps 0 2 0 65536 .write false 0x30000 = true) ∧
    (∃ s : State, s.sound = true ∧ (s.ctx 2).zero = some (2 ^ 48, 2 ^ 48 + 65536)) := by
  refine ⟨by decide +kernel, by decide +kernel, by decide +kernel, by decide +kernel, by decide +kernel, by decide +kernel,
    ⟨(inService running).onCtx 2 fun x => { x with zero := some (0, 65536) }, by decide +kernel⟩, by decide +kernel,
    ⟨running.onCtx 2 fun x => { x with zero := some (2 ^ 48, 2 ^ 48 + 65536) }, by decide +kernel⟩⟩

/-! Witnesses for `ContextLifecycle`. -/
/-- The block in Ready, its management session at Service, context 2 bound and its resources written. -/
def openable : State :=
  (((((inService ready).setRegAt Reg.CTX_ROUTE_STATE 2 1).setRegAt Reg.CTX_TASK_SLOTS 2 4).setRegAt Reg.CTX_SEM_COUNT 2 64).setRegAt Reg.CTX_CNT_COUNT 2 16).setRegAt Reg.CTX_CORES 2 3
def opened (st : Nat) : State := openable.setRegAt Reg.CTX_STATE 2 st
theorem witness_ContextLifecycle :
    (openable.sound = true ∧ openable.admits svc Reg.CTX_OPEN 2 0 = true ∧ openable.openRow 2 = 0 ∧ openable.blk ≠ .configure ∧ openable.regAt Reg.CTX_STATE 2 = 0) ∧
    ((opened 1).admits svc Reg.CTX_OPEN 2 0 = true ∧ (opened 1).regAt Reg.CTX_STATE 2 ≠ 0) ∧
    (let s := openable.setRegAt Reg.CTX_CORES 2 (2 ^ 16)
     s.sound = true ∧ s.admits svc Reg.CTX_OPEN 2 0 = true ∧ 2 ^ s.build.cores ≤ s.regAt Reg.CTX_CORES 2) ∧
    (let s := openable.setRegAt Reg.CTX_ROUTE_STATE 2 0
     s.sound = true ∧ s.admits svc Reg.CTX_OPEN 2 0 = true ∧ s.openRow 2 = 7) ∧
    ((opened 1).sound = true ∧ (opened 1).admits svc Reg.CTX_CLOSE 2 0 = true ∧ ((opened 1).ctx 2).tasks = [] ∧ (opened 3).admits svc Reg.CTX_CLOSE 2 0 = true) ∧
    ((opened 2).sound = true ∧ (opened 2).admits svc Reg.CTX_RESUME 2 0 = true ∧ (opened 1).admits svc Reg.CTX_RESUME 2 0 = true) ∧
    (∀ st ∈ [0, 1, 2, 3], ∀ m ∈ [7, 2 ^ 16], (opened st).sound = true ∧ (opened st).admits svc Reg.CTX_CORES 2 m = true) ∧
    (∃ s : State, s.sound = true ∧ s.admits svc Reg.CTX_CORES 2 7 = true ∧ s.regAt Reg.CTX_STATE 2 = 1 ∧ s.regAt Reg.CTX_STATE 5 = 1 ∧ 4 &&& s.ownedCores 5 ≠ 0 ∧
      rangesMeet (s.spadRange 2) (s.spadRange 5) = true) := by
  refine ⟨by decide +kernel, by decide +kernel, by decide +kernel, by decide +kernel, by decide +kernel, by decide +kernel, by decide +kernel,
    ⟨((((opened 1).setRegAt Reg.CTX_STATE 5 1).setRegAt Reg.CTX_CORES 5 4).setRegAt Reg.CTX_SPAD 5 64).setRegAt Reg.CTX_SPAD 2 64, by decide +kernel⟩⟩

/-! Witnesses for `SubmissionsAndTasks`. -/
/-- Context 2 Open in Run with one ring entry to read at 0x1000, whose graph lies on the page mapped to 0x30000. -/
def submitted (entry : List Byte) (route : Nat) : State :=
  let s := (((serving.setRegAt Reg.CTX_STATE 2 1).setRegAt Reg.CTX_RING_BASE 2 0x1000).setRegAt Reg.CTX_TASK_SLOTS 2 4).setRegAt Reg.CTX_ROUTE_STATE 2 route
  { (s.onHcp fun h => { h with tails := [(2, 1)] }) with mem := storeBytes [] 0x1000 entry }
def aSub (fail : Option SubEnd) : Submission :=
  { index := 0, descs := [zeros 64], count := 2, vector := false, result := 0, next := 0, ended := 0, fail := fail, done := false }
def aTask : Task :=
  { id := 0, sub := 0, index := 0, kind := 0, spadBase := 0, spadLen := 1, trackerMax := 0, entry := 0, cores := 1, arg := 9, ins := [], outs := [70], taskId := 0,
    running := false, error := none, passed := 0 }
/-- Context 2 Open in Run with an admitted task, not started. -/
def admitted (slots : Nat) (fail : Option SubEnd) : State :=
  ((openable.setRegAt Reg.CTX_TASK_SLOTS 2 slots).setRegAt Reg.CTX_STATE 2 1).onCtx 2 fun x => { x with tasks := [aTask], subs := [aSub fail] }
/-- Core C0 at the end of its program, with an END code. -/
def ending (code : Nat) : State :=
  let s := coreAt 0
  let r (x : Running) : Running := { x with ended := some code }
  (s.onCore 0 fun x => { x with run := x.run.map r }).onCtx 2 fun x => { x with tasks := [{ aTask with running := true }], subs := [aSub none] }
theorem witness_SubmissionsAndTasks :
    (∀ q ∈ [(zeros 64, 1), (leBytes 64 (2 ^ 65), 0), (leBytes 64 (2 ^ 65 + 4096), 1)], let s := submitted q.1 q.2
      s.sound = true ∧ s.regAt Reg.CTX_STATE 2 = 1 ∧ s.blk = .run ∧ s.ringTail 2 ≠ (s.ctx 2).read ∧ s.dispatcherStalled 2 false = false ∧ s.memGood = true ∧ s.memPoison = [] ∧
      s.regAt Reg.CTX_RING_BASE 2 = 0x1000 ∧ s.bytesAt 0x1000 64 = q.1 ∧ s.regAt Reg.CTX_ROUTE_STATE 2 = q.2 ∧ s.maps 0 2 4096 128 .read false 0x31000 = true) ∧
    (∃ s : State, s.sound = true ∧ s.memGood = true ∧ s.blk = .run ∧ s.memPoison.contains (0x1000 / 128) = true ∧ s.regAt Reg.CTX_STATE 2 = 1 ∧ s.ringTail 2 ≠ (s.ctx 2).read ∧
      s.regAt Reg.CTX_RING_BASE 2 = 0x1000) ∧
    (∀ q ∈ [(1, none), (4, none), (4, some (refusedEnd 5 0 0))], let s := { admitted q.1 q.2 with blk := .run }
      s.sound = true ∧ s.regAt Reg.CTX_STATE 2 = 1 ∧ (s.ctx 2).subs = [aSub q.2] ∧ (s.ctx 2).tasks.length = 1 ∧ s.regAt Reg.CTX_TASK_SLOTS 2 = q.1) ∧
    (running.regAt Reg.CTX_STATE 2 ≠ 1 ∧ running.decision = none ∧ running.taskOf? 0 = none) ∧
    (∃ (s : State) (t : Task), s.sound = true ∧ s.blk = .run ∧ s.decision = some (2, some t) ∧ t.runsOn = [0]) ∧
    (∀ code ∈ [0, 7], let s := ending code
      let t : Task := { aTask with running := true }
      s.sound = true ∧ s.taskOf? 0 = some t ∧ s.taskOver t = true ∧ s.regAt Reg.CTX_STATE 2 = 1 ∧ s.far.lines = [] ∧ s.taskQuiet t = true ∧ (s.ctx 2).tasks = [t] ∧
      (s.ctx 2).subs = [aSub none] ∧ t.runsOn.contains 0 = true ∧ s.calm t.outs = true ∧ (∀ n ∈ t.outs, (s.sem n).toNat < 0xFFFFFFFF) ∧ ((s.endOf t).1 = 0 ↔ code = 0)) ∧
    (∃ t, (coreAt 0).taskOf? 0 = some t ∧ (coreAt 0).taskOver t = false) := by
  refine ⟨by decide +kernel, ⟨{ submitted (zeros 64) 1 with memPoison := [32] }, by decide +kernel⟩, by decide +kernel, by decide +kernel,
    ⟨{ admitted 4 none with blk := .run }, aTask, by decide +kernel⟩, by decide +kernel, ⟨_, rfl, by decide +kernel⟩⟩

/-! Witnesses for `ImagesLoadedAndPushed`. -/
def staged (hdr : List Byte) (st : Nat) : State := { (openable.setRegAt Reg.CTX_IMAGE_STAGE 2 0x100000).setRegAt Reg.CTX_IMAGE_STATE 2 st with mem := storeBytes [] 0x100000 hdr }
/-- The first bytes of an image header: a code of one word, no data, slots 2 and 7 declared, serial 9. -/
def imageHead : List Byte := [0x49, 0x4D, 0x47, 0x35, 0, 2, 0, 0, 4, 0, 0, 0, 0, 0, 0, 0, 0x84, 0, 0, 0, 9]
def anImage (a : Bool) : Image := { homeA := a, codeLen := 4, decl := 0x84, serial := 9 }
def aSlot : Trig := { watched := 64, counter := false, sem := 65, thr := 5 }
def verifying (old : Option Image) (e : Nat) : State := running.onCtx 2 fun x => { x with loading := some (anImage false, e), image := old, trigs := [(2, aSlot), (5, aSlot)] }
theorem witness_ImagesLoadedAndPushed :
    (∀ q ∈ [(zeros 4, 0, 1), (imageHead, 2, 0), (imageHead, 1, 0)], let s := staged q.1 q.2.1
      s.sound = true ∧ s.admits svc Reg.CTX_IMAGE_LOAD 2 0 = true ∧ s.memGood = true ∧ s.memPoison = [] ∧ headerError (s.bytesAt 0x100000 256) = q.2.2 ∧
      0x100000 + maxImage ≤ s.build.memBytes ∧ s.regAt Reg.CTX_IMAGE_HOME_A 2 + maxImage ≤ s.build.memBytes ∧ s.imageKeyOk (s.bytesAt 0x100000 256) = false) ∧
    (∃ (s : State) (h : List Byte), s.imageKeyOk h = true ∧ slice 0 4 h = [0x49, 0x4D, 0x47, 0x35]) ∧
    ((verifying none 5).sound = true ∧ (verifying none 0).sound = true ∧ (running.ctx 2).loading = none) ∧
    (let s := (verifying (some (anImage true)) 0).onCore 0 fun x => { x with run := some { ctx := 2, task := 0, home := 0, codeLen := 4, decl := 0, step := 0, seed := 0, spadBase := 0, spadLen := 0, ended := none, arg := none, mmStart := 0 } }
     s.sound = true ∧ s.homeOf 2 (anImage true) = 0) ∧
    (let s := (verifying (some (anImage true)) 0)
     s.sound = true ∧ ∀ n r, (s.core n).run = some r → r.ctx ≠ 2) ∧
    ((inService running).sound = true ∧ (inService running).admits svc Reg.IMG_PUSH_GO 0 0 = true ∧ (inService running).disp.pushing = false ∧ (inService running).ownChip ≠ 0xFFFF ∧
      (inService small).admits svc Reg.IMG_PUSH_GO 0 0 = true ∧ (inService small).ownChip = 0xFFFF) ∧
    (let p : Packet := { reqPacket .store (zeros 100) with op := .imageLoad, opArg := 2, destOffset := 4096 }
     ∀ q ∈ [(0, 0), (1, 1), (1, 0)], let s := (running.setRegAt Reg.CTX_IMAGE_INBAND 2 q.1).setRegAt Reg.CTX_IMAGE_STATE 2 q.2
      s.sound = true ∧ s.powered = true ∧ s.pkt.drain = none ∧ s.memGood = true ∧ p.destOffset + p.payload.length ≤ maxImage ∧ s.regAt Reg.CTX_IMAGE_STAGE 2 + maxImage ≤ s.build.memBytes) := by
  refine ⟨by decide +kernel, ?_, by decide +kernel, by decide +kernel, ⟨by decide +kernel, ?_⟩, by decide +kernel, by decide +kernel⟩
  · exact ⟨{ small with build := { small.build with imageKeys := [beNat (Crypto.sha384 (zeros 96))] } }, imageHead ++ zeros 235, by decide +kernel, by decide +kernel⟩
  · intro n r h
    have e : (verifying (some (anImage true)) 0).core n = CoreState.reset := rfl
    rw [e] at h; cases h

/-! Witnesses for `CollectiveMember`. -/
/-- The 64 bytes of a collective descriptor on group 5: an operation, a kind and format, so many elements, input at 0x1000, output at 0x8000. -/
def aCollDesc (op kind fmt elems : Nat) : List Byte := leBytes 64 (op + 16 * kind + 256 * fmt + 4096 * fmt + 5 * 2 ^ 32 + 0x1000 * 2 ^ 64 + 0x8000 * 2 ^ 128 + elems * 2 ^ 256)
def collTask : Task := { aTask with kind := 2, arg := 0x40, running := true, outs := [] }
/-- Core C0 with a COLLECTIVE task of context 2, of two ranks with rank 0 its own, its descriptor at context offset 0x40 of the page mapped to 0x30000. -/
def collective (bs : List Byte) : State :=
  let r (x : Running) : Running := { x with arg := some 0x40 }
  let s := (((((coreAt 0).onCore 0 fun x => { x with run := x.run.map r }).onCtx 2 fun x => { x with tasks := [collTask] }).setRegAt Reg.CTX_RANK_COUNT 2 2).setRegAt
    Reg.CTX_RANK_BASE 2 0x2000).onXlt fun x => { x with leaves := [{ part := 0, ctx := 2, base := 0, size := 16, pte := 0x3000F, reads := 0, writes := 0 }] }
  { ((s.setRegAt Reg.CTX_JOB_ID 2 5).setRegAt Reg.CTX_ROUTE_STATE 2 1).setReg (0x4200 * 256 + 6) (5 + 2 ^ 12 + 2 ^ 13) with
    mem := storeBytes (storeBytes [] 0x2000 (leBytes 8 0x1000A_00010003)) 0x30040 bs }
/-- The collective of a descriptor as its member runs it. -/
def aColl (bs : List Byte) (owned : Nat) : Coll :=
  { ctx := 2, core := 0, task := 0, desc := bs, group := 5, alive := 3, hash := 7, n := 2, rank := owned, step := 0, seed := 0, inp := [(0x31000, 32768)], out := [(0x38000, 32768)],
    next := 0, closed := 0, open_ := [], waited := false, expSent := [], sliceSent := [], dones := [], doneSent := false, landed := [], ownSent := false, records := 0,
    window := none, mismatch := false }
def collecting (k : Coll) : State := (collective k.desc).onCtx 2 fun x => { x with colls := [k], alives := [(5, 3)] }
def collPkt (op : Opcode) (seq off : Nat) (body : List Byte) : Packet :=
  { data := op != .collAbort, mcast := op == .collAbort, ordered := false, ltag := false, op := op, job := 5, dest := 3, src := 9, tag := 5, gen := 3, seq := seq,
    destOffset := off, counter := 0, countEn := false, countUnit := false, opArg := 0, payload := body }
def expBody (phase rank count : Nat) (bytes : List Byte) : List Byte := leBytes 1 phase ++ [0] ++ leBytes 2 rank ++ leBytes 4 count ++ leBytes 4 7 ++ zeros 4 ++ bytes
theorem witness_CollectiveMember :
    (∀ q ∈ [(3, 1, 0, 4096, true), (1, 2, 10, 8192, false), (2, 0, 10, 8192, false)], let bs := aCollDesc q.1 q.2.1 q.2.2.1 q.2.2.2.1
      let s := collective bs
      let d := CollDesc.parse bs
      s.sound = true ∧ ((s.collTask? 2 0).map fun x => (x.1, x.2.2)) = some (0, 0x40) ∧ s.awake 0 = true ∧ s.engineStalled 0 .reduction = false ∧ s.memGood = true ∧
      s.maps (s.partOfCore 0) 2 0x40 64 .read false 0x30040 = true ∧ s.bytesAt 0x30040 64 = bs ∧ (s.ctx 2).colls = [] ∧ d.ledger = false ∧ d.refused 2 0 = q.2.2.2.2 ∧
      s.captureWindow 2 d.tensor 0 = none) ∧
    (∀ q ∈ [(1, 2, 10, 8192), (2, 0, 10, 8192)], let bs := aCollDesc q.1 q.2.1 q.2.2.1 q.2.2.2
      let s := collective bs
      let d := CollDesc.parse bs
      (s.ranksOk 2).1 = true ∧ s.groupOk 2 5 = true ∧ d.group = 5 ∧ s.disp.early = [] ∧ s.pkt.drain = none ∧ (d.owned 2 0).2 = (d.owned 2 0).1 + 1 ∧
      s.maps 0 2 d.inAddr (d.lengths 2 0).1 .read false 0x31000 = true ∧ s.maps 0 2 d.outAddr (d.lengths 2 0).2 .write false 0x38000 = true) ∧
    ((collecting (aColl (aCollDesc 1 2 10 8192) 0)).ctx 2).colls.any (fun y => y.group == 5) = true ∧ running.collTask? 2 0 = none ∧
    (let s := collecting (aColl (aCollDesc 1 1 0 4128) 0)
     let k := aColl (aCollDesc 1 1 0 4128) 0
     s.sound = true ∧ s.powered = true ∧ s.pkt.drain = none ∧ s.memGood = true ∧ (∀ e ∈ k.inp, e.1 + e.2 ≤ s.build.memBytes) ∧ s.ctxOfJob? 5 = some 2 ∧ (Table.get (s.ctx 2).alives 0 5 + 1) % 256 = 4 ∧ s.earlyUsed (s.earlyPart 2) < 1024 ∧
      k.d.ledger = false ∧ k.d.reduces = true ∧ k.d.kind = 1 ∧ 1 < k.d.chunks ∧ k.owns 1 = false ∧
      contribution 1 (fit 128 ((expBody 3 0 0 (zeros 128)).drop 16)) (chunkLanes k.d.inFmt (s.collInput k 1).1) ≠ none ∧
      le 8 4 (expBody 3 0 0 (zeros 128)) = k.hash ∧ le 0 1 (expBody 3 0 0 (zeros 128)) = 3 ∧ le 4 4 (expBody 1 0 1 []) = 1) ∧
    (let k := aColl (aCollDesc 2 0 10 8192) 0
     k.d.reduces = false ∧ k.owns 0 = true ∧ k.owns 1 = false ∧ 32768 = fmtBytes k.d.inFmt k.d.elems ∧ (collecting k).memGood = true ∧ 0x38000 + 32768 ≤ (collecting k).build.memBytes) ∧
    (∃ s : State, s.sound = true ∧ 1024 ≤ s.earlyUsed (s.earlyPart 2)) := by
  refine ⟨by decide +kernel, by decide +kernel, by decide +kernel, by decide +kernel, by decide +kernel, by decide +kernel,
    ⟨running.onDisp fun d => { d with early := List.replicate 1024 (0, collPkt .tallyExp 1 0 []) }, by decide +kernel⟩⟩

/-! Witnesses for `CollectiveOwner`. -/
def aChunk (agreed : Bool) (x : SliceSum) : Chunk :=
  { k := 0, expContrib := 1, expBytes := zeros 128, agreed := agreed, slices := if agreed then [(0, x)] else [], untagged := false, mismatch := false, poisonRank := 0xFFFF }
/-- An ISUM of 32 INT32 elements: one chunk of one slice, its own contribution of ones in. -/
def summing (n : Nat) (check : Nat) : Coll :=
  let x : SliceSum := { contrib := 1, check := check, blocks := [{ b := 255, poison := false, elems := List.replicate 32 (.fin 1) }] }
  { aColl (aCollDesc 1 2 10 32) 0 with n := n, next := 1, open_ := [aChunk true x] }
def aSlice : List Byte := sliceBytes 1 32 2 0 [{ b := 255, poison := false, elems := List.replicate 32 (.fin 0) }]
theorem witness_CollectiveOwner :
    (let k := aColl (aCollDesc 1 2 10 8192) 0
     (collecting k).sound = true ∧ (collecting k).pkt.drain = none ∧ k.d.reduces = true ∧ (k.d.owned 2 0).1 + k.next < (k.d.owned 2 0).2 ∧ 0 < k.d.depth ∧
      (collecting k).storeUsed ((collecting k).collPart k) + k.d.reserve ≤ 1048576 ∧ (collecting k).memGood = true ∧ (∀ e ∈ k.inp, e.1 + e.2 ≤ (collecting k).build.memBytes) ∧ k.open_ = []) ∧
    (∃ (s : State) (k : Coll), s.sound = true ∧ (s.ctx 2).colls = [k] ∧ k.waited = false ∧ k.d.reduces = true ∧ 1048576 < s.storeUsed (s.collPart k) + k.d.reserve ∧
      (k.d.owned k.n k.rank).1 + k.next < (k.d.owned k.n k.rank).2 ∧ k.open_.length < k.d.depth) ∧
    (let k := { aColl (aCollDesc 1 1 0 8192) 0 with n := 3, open_ := [aChunk false { contrib := 0, check := 0, blocks := [] }] }
     let s := collecting k
     s.sound = true ∧ s.powered = true ∧ s.ctxOfJob? 5 = some 2 ∧ k.d.kind = 1 ∧ k.d.ledger = false ∧ le 0 1 (expBody 2 1 1 (zeros 128)) = 2 ∧ le 4 4 (expBody 2 1 1 (zeros 128)) = 1) ∧
    (∀ n ∈ [2, 3], ∀ check ∈ [528, 5], let k := summing n check
      let h := k.open_.headD (aChunk false { contrib := 0, check := 0, blocks := [] })
      (collecting k).sound = true ∧ k.d.reduces = true ∧ k.d.ledger = false ∧ le 5 1 aSlice = k.d.kind ∧ le 0 4 aSlice = 1 ∧ le 4 1 aSlice + 1 = min 128 (k.d.chunkElems 0) ∧
      (k.chunkFull { h with slices := h.slices.map fun e => (e.1, { e.2 with contrib := 2 }) } = decide (n = 2)) ∧
      k.checksOk h = decide (check = 528) ∧ k.outOff 0 + (k.output h).1.length ≤ 32768 ∧
      (addBlocks 2 [{ b := 255, poison := false, elems := List.replicate 32 (.fin 1) }] (parseBlocks 2 32 aSlice)).isSome = true) ∧
    addBlocks 2 [{ b := 254, poison := false, elems := [] }] (parseBlocks 2 32 aSlice) = none ∧
    (∃ l : List Int, l.length ≤ 4194304 ∧ l = [5, -5] ∧ ∀ t ∈ l, t.natAbs < 2 ^ 104) := by
  refine ⟨by decide +kernel, ?_, by decide +kernel, by decide +kernel, by decide +kernel, ⟨_, by decide, rfl, by decide⟩⟩
  let y : Coll := { aColl (aCollDesc 1 2 10 8192) 0 with group := 6, open_ := List.replicate 16 (aChunk false { contrib := 0, check := 0, blocks := [] }) }
  exact ⟨(collecting (aColl (aCollDesc 1 2 10 8192) 0)).onCtx 5 fun x => { x with colls := [y] }, aColl (aCollDesc 1 2 10 8192) 0, by decide +kernel⟩

/-! Witnesses for `AttentionRequests`. -/
def attCtx (enable : Nat) : State :=
  ((((((((inService serving).setRegAt Reg.CTX_STATE 2 1).setRegAt Reg.CTX_CORES 2 1).setRegAt Reg.CTX_SPAD 2 (16 * 32)).setRegAt Reg.ATT_SPAD 2 (12 * 32)).setRegAt
    Reg.ATT_CORES 2 1).setRegAt Reg.ATT_SLOTS 2 2).setRegAt Reg.ATT_QUEUE_BASE 2 0x100000).setRegAt Reg.ATT_ENABLE 2 enable
/-- A header of one row of 32 FP8 elements over 256 tokens of FP8 pages; its one piece is 32 bytes. -/
def attHead (rows : Nat) : AttHeader :=
  { qFmt := 2, kvFmt := 2, rows := rows, limits := false, dim := 32, poison := false, scale := 0x3F800000, tokens := 256, firstPage := 0, kvTable := 0, vOff := 0, headOff := 0,
    imageLen := 32 * rows, pieces := ceilDiv (32 * rows) 4032, reserved := false }
def attReq (rows seq : Nat) : Packet := { reqPacket .store ((attHead rows).bytes ++ zeros ((attHead rows).pieceLen seq)) with op := .attendReq, seq := seq, destOffset := 0 }
def attSlot (phase : SlotPhase) (h : List Byte) : AttSlot :=
  { slot := 0, src := 9, tag := 7, gen := 0, job := 5, header := h, pieces := [0], phase := phase, order := 0, poison := false }
/-- The 64 bytes of an attend descriptor to a rank: one row at 0 of 32 FP8 elements, partial at 1024, 256 tokens. -/
def aAttend (rank stride : Nat) : List Byte := leBytes 64 (8 + 0x22 * 256 + rank * 2 ^ 32 + stride * 2 ^ 96 + 1024 * 2 ^ 128 + 256 * 2 ^ 224)
def attDesc (got : List Nat) : Desc :=
  { id := 4, core := 0, ctx := 2, op := 8, peer := 9, statusEn := false, statusAddr := 0, localCountEn := false, localCounter := 0, left := 1, donePkts := 0, fail := none,
    poisoned := false, att := some (got, 8192, 1024, .spad), attTimer := false, attTag := 0 }
def attTxn : Txn := { aTxn .attend (.attend 0 4) [] true with seqs := [(0, { aSeq with phase := .done })] }
def attending (got : List Nat) : State := serving.onRmt fun r => { r with txns := [attTxn], descs := [attDesc got] }
theorem witness_AttentionRequests :
    ((attCtx 0).sound = true ∧ (attCtx 0).admits svc Reg.ATT_ENABLE 2 1 = true ∧ (attCtx 1).admits svc Reg.ATT_ENABLE 2 0 = true ∧ (attCtx 0).regAt Reg.CTX_STATE 2 = 1 ∧
      (attCtx 0).regAt Reg.ATT_CORES 2 &&& (attCtx 0).regAt Reg.CTX_CORES 2 = 1 ∧ (attCtx 0).spadRange 2 = (0, 16) ∧ fld ((attCtx 0).regAt Reg.ATT_SPAD 2) 10 5 = 12 ∧
      ((attCtx 0).setRegAt Reg.ATT_CORES 2 0).admits svc Reg.ATT_ENABLE 2 1 = true) ∧
    (∀ q ∈ [(0, 32, true), (5, 32, true), (0, 16, false)], let bs := aAttend q.1 q.2.1
      let s := { issuing 1 with cores := ((issuing 1).onCore 0 fun x => { x with dq := [bs] }).cores, spad := [], spadWritten := (List.range 128) }
      let d := AttDesc.parse bs
      s.sound = true ∧ ((s.core 0).run.bind fun r => r.arg) = none ∧ s.dmaHead? 0 = some bs ∧ d.kind = 8 ∧ d.statusEn = false ∧ d.localCountEn = false ∧
      d.refusal.isSome = !q.2.2 ∧ s.attInside 0 d = true ∧ s.rankChip 2 d.rank = (if q.1 = 0 then some 9 else none, s)) ∧
    (∃ (s : State) (bs : List Byte), s.sound = true ∧ s.dmaHead? 0 = some bs ∧ (AttDesc.parse bs).kind = 8 ∧ (AttDesc.parse bs).refusal = none ∧ s.attInside 0 (AttDesc.parse bs) = false) ∧
    (∀ q ∈ [(1, 0), (127, 1)], let p := attReq q.1 q.2
      let s := attCtx 1
      s.sound = true ∧ s.powered = true ∧ s.pkt.drain = none ∧ p.mcast = false ∧ p.opArg = p.tag ∧ s.ctxOfJob? p.job = some 2 ∧ s.regAt Reg.CTX_STATE 2 ≠ 3 ∧
      Table.get s.rmt.granted 0 p.src = 0 ∧ 0 < s.slotsFree ∧ (s.ctx 2).slots = [] ∧ (AttHeader.parse (p.payload.take 64)).ok = true ∧
      p.seq < (AttHeader.parse (p.payload.take 64)).pieces ∧ p.payload.length = 64 + (AttHeader.parse (p.payload.take 64)).pieceLen p.seq ∧ s.memGood = true ∧
      s.regAt Reg.ATT_QUEUE_BASE 2 + 204800 ≤ s.build.memBytes) ∧
    (∀ ph ∈ [SlotPhase.assembling, .queued, .running, .done], ∀ h ∈ [(attHead 1).bytes, zeros 64], let a := attSlot ph h
      let s := (attCtx 1).onCtx 2 fun x => { x with slots := [a] }
      s.sound = true ∧ s.memGood = true ∧ s.regAt Reg.ATT_QUEUE_BASE 2 + 204800 * (a.slot + 1) ≤ s.build.memBytes ∧ (s.ctx 2).slots = [a] ∧ a.pieces.contains (attReq 1 0).seq = true ∧ a.job = (attReq 1 0).job) ∧
    (∀ got ∈ [[], [1]], let s := attending got
      s.sound = true ∧ s.powered = true ∧ 0 = s.genOf attTxn.ctx ∧ (s.window attTxn.dest).queue = [] ∧ got.contains 0 = false ∧ (zeros 4096).length = min 4096 (8192 - 4096 * 0) ∧
      attTxn.complete = true ∧ ∀ y ∈ attTxn.seqs, y.2.phase = .done) ∧
    (serving.rmt.txns = [] ∧ serving.rmt.descs = []) := by
  refine ⟨by decide +kernel, by decide +kernel, ⟨{ issuing 1 with cores := ((issuing 1).onCore 0 fun x => { x with dq := [aAttend 0 32 |>.set 8 0 |>.set 10 8] }).cores }, _,
    by decide +kernel, rfl, by decide +kernel⟩, by decide +kernel, by decide +kernel, by decide +kernel, by decide +kernel⟩

/-! Witnesses for `AttentionServices`. -/
def queuedSlots (l : List AttSlot) (pairing : Nat) : State := ((attCtx 1).setRegAt Reg.ATT_PAIRING 2 pairing).onCtx 2 fun x => { x with slots := l }
/-- One service of core C0 on one slot; the first entry of the page table, at context offset 0 of the mapped page, holds a value. -/
def served (entry : Nat) (leaves : Bool) : State :=
  let s := queuedSlots [attSlot .running (attHead 1).bytes] 0
  { ((if leaves then s else s.onXlt fun x => { x with leaves := [] }).onCtx 2 fun x => { x with services := [{ core := 0, slots := [0] }] }).setRegAt Reg.PWR_CORE_STATE 0 0 with mem := storeBytes [] 0x30000 (leBytes 8 entry) }
theorem witness_AttentionServices :
    (let s := queuedSlots [attSlot .queued (attHead 1).bytes] 0
     s.sound = true ∧ s.memGood = true ∧ s.blk = .run ∧ s.decision = some (2, none) ∧ s.mayServe 2 0 = true) ∧
    (let a := attSlot .queued (attHead 1).bytes
     let b := { a with slot := 1, order := 1 }
     let s := queuedSlots [a, b] 1
     s.sound = true ∧ s.decision = some (2, none) ∧ s.mayServe 2 0 = true ∧ s.regAt Reg.ATT_PAIRING 2 ≠ 0 ∧ a.pairs b = true) ∧
    ((attCtx 1).decision ≠ some (2, none) ∧ ((attCtx 1).ctx 2).services = []) ∧
    (∀ q ∈ [(1, true), (128, true), (0, false)], let s := served q.1 q.2
      let h := AttHeader.parse (attHead 1).bytes
      s.sound = true ∧ s.powered = true ∧ s.awake 0 = true ∧ s.engineStalled 0 .dma = false ∧ s.pkt.drain = none ∧ s.memPoison = [] ∧
      (match (s.readPages (s.partOfCore 0) 2 h 0 (attPages h.tokens)).1 with
       | .error (.neg _) => q.1 == 1 | .error (.fault _ _) => !q.2 | .error .ok => false | .ok _ => q.1 == 128) = true) ∧
    ((AttHeader.parse (attHead 1).bytes).imageLen ≤ 69632 ∧ (AttHeader.parse (attHead 1).bytes).partLen ≤ 135168) := by decide +kernel

/-! Witnesses for `LedgerAndCapture`. -/
/-- Context 2 Open, its ring of 4 KiB at a base, in a mode, with a state, a producer and a consumer. -/
def ringed (base mode st p q : Nat) : State :=
  ((((((((inService small).setRegAt Reg.CTX_STATE 2 1).setRegAt Reg.LDG_BASE 2 base).setRegAt Reg.LDG_SIZE_LOG2 2 12).setRegAt Reg.LDG_MODE 2 mode).setRegAt
    Reg.LDG_STATE 2 st).setRegAt Reg.LDG_PRODUCER 2 p).setRegAt Reg.LDG_CONSUMER 2 q)
/-- Window 1 of context 2 with a base and its size, so much of it used. -/
def armed (base used : Nat) : State :=
  (((((inService small).setRegAt Reg.CAP_BASE 9 base).setRegAt Reg.CAP_SIZE 9 65536).setRegAt Reg.CAP_STEP_LAST 9 10).setRegAt Reg.CAP_USED 9 used)
theorem witness_LedgerAndCapture :
    (∀ base ∈ [0x10000, 0x10001], let s := ringed base 1 0 0 0
      s.sound = true ∧ s.admits svc Reg.LDG_ENABLE 2 1 = true ∧ s.regAt Reg.LDG_BASE 2 % 4096 = base % 4096 ∧ s.regAt Reg.LDG_SIZE_LOG2 2 = 12 ∧
      (∀ y, y < 64 → y ≠ 2 → s.regAt Reg.LDG_STATE y = 0)) ∧
    (∀ st ∈ [1, 2], let s := ringed 0x10000 1 st 130 2
      s.sound = true ∧ s.admits svc Reg.LDG_ENABLE 2 0 = true ∧ s.regAt Reg.LDG_STATE 2 = st ∧ s.memGood = true ∧ 0x10000 + 32 * 128 ≤ s.build.memBytes) ∧
    (∀ mode ∈ [0, 1], ∀ v ∈ [1, 2, 130, 131], let s := ringed 0x10000 mode 1 130 2
      s.admits svc Reg.LDG_CONSUMER 2 v = true ∧ s.regAt Reg.LDG_MODE 2 = mode ∧ s.regAt Reg.LDG_PRODUCER 2 = 130) ∧
    (∀ base ∈ [0x100000, 0x100001], let s := armed base 0
      s.sound = true ∧ s.admits svc Reg.CAP_ARM 9 1 = true ∧ s.regAt Reg.CAP_BASE 9 % 4096 = base % 4096 ∧ s.regAt Reg.CAP_SIZE 9 = 65536 ∧
      s.regAt Reg.CAP_STEP_FIRST 9 ≤ s.regAt Reg.CAP_STEP_LAST 9) ∧
    (∀ used ∈ [0, 65536 - 128, 65536 - 64], let s := armed 0x100000 used
      let k : Coll := { aColl (aCollDesc 1 2 10 8192) 0 with window := some 1 }
      s.sound = true ∧ s.memGood = true ∧ s.captures k 1 0 = true ∧ s.regAt Reg.CAP_USED 9 = used ∧ 0x100000 + 65536 ≤ s.build.memBytes) := by decide +kernel

/-! Witnesses for `CadenceCounter`. -/
/-- A small state with a cadence role, a parent, an alternate parent and a counter. -/
def paced (role alt : Nat) (x : Cadence) : State :=
  { ((((inService small).setReg Reg.HIER_CADENCE_ROLE role).setReg Reg.HIER_CADENCE_PARENT 9).setReg Reg.HIER_CADENCE_ALT alt) with blk := .run, cad := x }
/-- A CADENCE packet of a phase and exchange 7. -/
def cadPkt (phase : Nat) (body : List Byte) : Packet := { collPkt .cadence (65536 * phase + 7) 0 body with data := false, ordered := true, job := 0 }
theorem witness_CadenceCounter :
    (let x : Cadence := { Cadence.reset with exchange := 7, t1 := some 0, missed := 7 }
     let s := paced 0 12 x
     s.sound = true ∧ s.blk = .run ∧ s.reg Reg.HIER_CADENCE_ROLE = 0 ∧ s.pkt.drain = none ∧ 8 ≤ x.missed + ofBool x.t1.isSome ∧ s.reg Reg.HIER_CADENCE_ALT = 12 ∧
      (paced 0 0xFFFF x).reg Reg.HIER_CADENCE_ALT = 0xFFFF ∧ s.cadenceParent = 9 ∧ (paced 0 12 { x with missed := 0 }).cadenceParent ≠ 0xFFFF ∧
      (s.setReg Reg.HIER_CADENCE_PARENT 0xFFFF).cadenceParent = 0xFFFF ∧ (s.setReg Reg.HIER_CADENCE_PARENT 0xFFFF).sound = true) ∧
    (∀ valid ∈ [true, false], ∀ t3 ∈ [5000900, 5003900, 2 ^ 64 - 1], let x : Cadence := { Cadence.reset with exchange := 7, t1 := some (5000000 * 256), ns := 5001480, valid := valid }
     let s := paced 0 12 x
     let p := cadPkt 2 (leBytes 8 t3 ++ leBytes 4 0x17C00 ++ leBytes 4 0x2B440)
     s.sound = true ∧ s.powered = true ∧ p.op = .cadence ∧ p.seq / 65536 = 2 ∧ p.seq % 65536 = x.exchange ∧ x.rate = 0 ∧
      (cadPkt 1 (zeros 16)).seq / 65536 = 1 ∧ le 0 8 p.payload = t3 ∧
      cadenceOffset (5000000 * 256) (5001480 * 256) (5000900 * 256) 97280 177216 = -992 ∧
      256000 ≤ (cadenceOffset (5000000 * 256) (5001480 * 256) (5003900 * 256) 97280 177216).natAbs ∧ le 8 4 p.payload = 97280 ∧ le 12 4 p.payload = 177216) ∧
    (∀ role ∈ [0, 1, 2], (paced role 12 Cadence.reset).sound = true ∧ (paced role 12 Cadence.reset).admits svc Reg.HIER_CADENCE_SET 0 100 = true ∧
      (paced role 12 Cadence.reset).reg Reg.HIER_CADENCE_ROLE = role) ∧
    (∀ e ∈ [((3 : Int), (1048579 : Nat)), (-3, 1048573), (2000, 1050576)], let x : Cadence := { Cadence.reset with set := true, ns := e.2 }
     (paced 2 12 x).sound = true ∧ ((x.ns * 256 + x.frac / 256 : Nat) : Int) = 1 * 2 ^ 28 + e.1 * 256) ∧
    ({ Cadence.reset with valid := true, ns := 1048579 } : Cadence).ns % 1048576 < 7 := by
  refine ⟨by decide +kernel, by decide +kernel, by decide +kernel, by decide +kernel, by decide +kernel⟩

/-! Witnesses for `Barriers`. -/
/-- Context 2 of job 5 with a tree (the alternate one is {parent 11, child 21}), its barrier state, and how far it has arrived. -/
def barred (parent bst role : Nat) (arrived : Option Bool) (arrivals : List (Nat × Bool)) (sentUp : Bool) : State :=
  (((((((inService serving).setRegAt Reg.CTX_STATE 2 1).setRegAt Reg.BAR_STATE 2 bst).setRegAt Reg.JOB_ROLE 2 role).setRegAt Reg.BAR_OUT_SEM 2 3).setRegAt Reg.BAR_STEP_SEM 2 4).setRegAt
    Reg.BAR_IN_THR 2 1).onCtx 2 fun x =>
    { x with trees := [{ parent := parent, children := [20, 21] }, { parent := 11, children := [21] }], arrived := arrived, arrivals := arrivals, sentUp := sentUp }
/-- A BARRIER packet from a chip: phase, kind, epoch, number, new step. -/
def barPacket (src phase kind epoch number newStep : Nat) : Packet :=
  { collPkt .barrier 0 0 (leBytes 1 phase ++ leBytes 1 kind ++ leBytes 1 epoch ++ [0] ++ leBytes 4 number ++ leBytes 4 newStep ++ zeros 4) with data := false, src := src, tag := 0, gen := 0 }
theorem witness_Barriers :
    (∀ q ∈ [(9, 0, none, []), (9, 1, some true, [(20, false)]), (9, 1, some true, []), (9, 1, some true, [(20, true)]), (0xFFFF, 1, some true, [(20, true)])],
      let s := barred q.1 q.2.1 0 q.2.2.1 q.2.2.2 false
      let p := barPacket 21 1 1 0 1 0
      s.sound = true ∧ s.pkt.drain = none ∧ s.powered = true ∧ s.ctxOfJob? p.job = some 2 ∧ s.regAt Reg.JOB_MGR_EPOCH 2 = 0 ∧ le 2 1 p.payload = 0 ∧
      (s.tree 2).children.contains 21 = true ∧ (s.tree 2).children.contains 22 = false ∧ (s.tree 2).parent = q.1 ∧ le 4 4 p.payload = (s.regAt Reg.BAR_COUNT 2 + 1) % 2 ^ 32 ∧
      State.calm (s.setRegAt Reg.BAR_STATE 2 0) [s.regAt Reg.BAR_OUT_SEM 2] = true) ∧
    (let s := barred 9 1 0 (some false) [] true
     (s.ctx 2).sentUp = true ∧ s.regAt Reg.BAR_STATE 2 = 1 ∧ (0 + 2 ^ 32 - le 4 4 (barPacket 21 1 1 0 0 0).payload) % 2 ^ 32 < 2 ^ 31 ∧
      2 ^ 31 ≤ (0 + 2 ^ 32 - le 4 4 (barPacket 21 1 1 0 2 0).payload) % 2 ^ 32 ∧ le 0 1 (barPacket 9 2 1 0 1 5).payload = 2 ∧ le 0 1 (barPacket 9 3 1 0 1 5).payload = 3) ∧
    (let s := barred 9 1 1 none [] false
     s.regAt Reg.JOB_ROLE 2 = 1 ∧ (le 2 1 (barPacket 9 2 1 127 1 5).payload + 256 - s.regAt Reg.JOB_MGR_EPOCH 2) % 256 = 127 ∧
      127 < (le 2 1 (barPacket 9 2 1 128 1 5).payload + 256 - s.regAt Reg.JOB_MGR_EPOCH 2) % 256 ∧ s.ctxOfJob? 6 = none) := by
  refine ⟨by decide +kernel, by decide +kernel, by decide +kernel⟩

/-! Witnesses for `StandbyManager`. -/
theorem witness_StandbyManager :
    (∀ role ∈ [0, 1, 2], let s := barred 9 0 role none [] false
     s.sound = true ∧ s.pkt.drain = none ∧ s.powered = true ∧ s.regAt Reg.JOB_ROLE 2 = role ∧ s.regAt Reg.CTX_ROUTE_STATE 2 = 1 ∧ (s.altTree 2).parent = 11 ∧
      s.ctxOfJob? (barPacket 9 5 0 127 1 0).job = some 2 ∧ s.regAt Reg.JOB_MGR_EPOCH 2 = 0 ∧ (s.ctx 2).arrived = none) ∧
    (le 0 1 (barPacket 9 4 0 0 1 0).payload = 4 ∧ le 0 1 (barPacket 9 5 0 127 1 0).payload = 5 ∧ (le 2 1 (barPacket 9 5 0 127 1 0).payload + 256 - 0) % 256 = 127 ∧
      127 < (le 2 1 (barPacket 9 5 0 128 1 0).payload + 256 - 0) % 256) ∧
    (let s := (barred 9 1 0 (some true) [] true).onCtx 2 fun x => { x with trees := [{ parent := 9, children := [21] }, { parent := 11, children := [] }] }
     s.sound = true ∧ (s.ctx 2).arrived = some true ∧ s.regAt Reg.BAR_STATE 2 = 1 ∧ (s.altTree 2).children = [] ∧ (s.altTree 2).parent = 11 ∧
      (({ s with blk := .run } : State).onCtx 2 fun x => { x with trees := [] }).altTree 2 = { parent := 0xFFFF, children := [] }) := by
  refine ⟨by decide +kernel, by decide +kernel, by decide +kernel⟩

/-! Witnesses for `Broadcasts`. -/
/-- The manager of context 2 with a valid counter at 1000 ns, so many snapshot slots at 0x40000, and broadcasts. -/
def casting (role slots : Nat) (l : List Bcast) : State :=
  let s := ((((barred 9 0 role none [] false).setRegAt Reg.JOB_SNAP_SLOTS 2 slots).setRegAt Reg.JOB_SNAP_BASE 2 0x40000).onCtx 2 fun x => { x with bcasts := l })
  { s with cad := { s.cad with valid := true, ns := 1000 } }
/-- A SNAPSHOT or RESET_BCAST packet: kind, time, sequence number. -/
def castPacket (r : Bool) (kind time seq : Nat) : Packet :=
  { barPacket 9 0 0 0 0 0 with op := if r then .resetBcast else .snapshot, ordered := true, payload := leBytes 8 time ++ leBytes 2 5 ++ leBytes 1 kind ++ [0] ++ leBytes 4 seq }
def aCast (reset : Bool) (time : Nat) (acted : Bool) : Bcast :=
  { reset := reset, time := time, seq := 3, late := false, again := true, acted := acted, pkt := castPacket reset (ofBool reset) time 3 }
theorem witness_Broadcasts :
    (∀ role ∈ [0, 1], ∀ time ∈ [0, 2999, 3000], let s := casting role 4 []
     s.sound = true ∧ s.pkt.drain = none ∧ s.admits svc Reg.JOB_SNAPSHOT 2 time = true ∧ s.admits svc Reg.JOB_RESET 2 time = true ∧ s.regAt Reg.JOB_ROLE 2 = role ∧
      s.cad.valid = true ∧ s.regAt Reg.CTX_ROUTE_STATE 2 = 1 ∧ s.cad.ns < s.cad.ns + s.reg Reg.HIER_BCAST_LEAD) ∧
    (∀ slots ∈ [0, 4], ∀ q ∈ [(0, 1000), (1, 1000), (0, 5000), (2, 5000)], let s := casting 0 slots []
     let p := castPacket (q.1 != 0) q.1 q.2 3
     s.powered = true ∧ s.ctxOfJob? p.job = some 2 ∧ s.regAt Reg.CTX_STATE 2 = 1 ∧ le 11 1 p.payload = s.regAt Reg.JOB_MGR_EPOCH 2 ∧ le 12 4 p.payload = 3 ∧ le 0 8 p.payload = q.2 ∧
      le 10 1 p.payload = q.1 ∧ s.memGood = true ∧ s.regAt Reg.JOB_SNAP_BASE 2 + 8192 * s.regAt Reg.JOB_SNAP_SLOTS 2 ≤ s.build.memBytes) ∧
    (∀ b ∈ [aCast false 1000 false, aCast true 1000 false, aCast false 1001 false, aCast false 1000 true], let s := casting 0 4 [b]
     s.sound = true ∧ (s.ctx 2).bcasts = [b] ∧ b.again = true ∧ le 11 1 b.pkt.payload = 0) := by
  refine ⟨by decide +kernel, by decide +kernel, by decide +kernel⟩

/-! Witnesses for `StickyRecord`. -/
/-- A record of a Severe event. -/
def aRecord : EventRec := { code := 0x48, cls := .severe, unit := 0xF602, window := 1, ctx := 2, promoted := false, lost := false, detail := 7, cadence := 2 ^ 64 - 1, seq := 0 }
/-- A small Service state with both sticky slots full. -/
def stuck : State := (inService small).onFlt fun f => { f with stickyFirst := some aRecord, stickyGrave := some { aRecord with cls := .grave }, queue := [aRecord] }
theorem witness_StickyRecord :
    (small.sound = true ∧ small.flt.stickyFirst = none ∧ small.flt.stickyGrave = none ∧ stuck.sound = true ∧ stuck.flt.stickyFirst.isSome = true ∧
      stuck.flt.stickyGrave.isSome = true ∧ stuck.admits svc Reg.FLT_STICKY_CLEAR 0 0 = true) ∧
    (small.srcClass .captureFull = .notice ∧ small.srcClass .collCheck = .correctable ∧ small.srcClass .hangContext = .severe ∧ small.srcClass .tableUncorrectable = .grave ∧
      small.srcClass .pcycRequested = .grave ∧ small.regAt Reg.SRC_PROMOTE_N Source.collCheck.code = 64 ∧ small.regAt Reg.SRC_PROMOTE_N Source.hangContext.code = 0) := by
  refine ⟨by decide +kernel, by decide +kernel⟩

/-! Witnesses for `FaultEvents`. -/
/-- One escalation timer of a source on a unit, its action, the rung limit and what rungs were completed. -/
def timed (x : Source) (un : UnitName) (ctx act max : Nat) (rungs : List RungDone) : State :=
  ((((inService running).setRegAt Reg.CTX_STATE 2 1).setRegAt Reg.SRC_ACTION x.code act).setReg Reg.FLT_LADDER_MAX max).onFlt fun f =>
    { f with timers := [{ src := x, unit := un, ctx := ctx, time := 100, seq := 0 }], rungs := rungs }
theorem witness_FaultEvents :
    (∀ q ∈ [(Source.hangContext, UnitName.context 2, 0, 4), (.hangContext, .context 2, 1, 4), (.hangContext, .context 2, 6, 4), (.linkFlush, .link 1, 4, 4), (.linkFlush, .link 1, 4, 3),
      (.linkFlush, .link 1, 5, 4), (.linkFlush, .link 1, 3, 3)], let s := timed q.1 q.2.1 2 q.2.2.1 q.2.2.2 []
      s.sound = true ∧ s.blk = .run ∧ s.regAt Reg.SRC_ACTION q.1.code = q.2.2.1 ∧ s.reg Reg.FLT_LADDER_MAX = q.2.2.2 ∧ s.regAt Reg.CTX_STATE 2 = 1 ∧ s.flt.probation = none ∧
      s.unitCovered (.partition 0) = false) ∧
    (∀ act ∈ [2, 6], let s := timed .hangEngine (.engine 0 .dma) 2 act 4 (if act = 6 then [{ unit := .engine 0 .dma, rung := .engine, time := 50 }] else [])
      s.sound = true ∧ s.unitCovered (.engine 0 .dma) = false ∧ s.unitCovered (.partition (s.partOfCore 0)) = false ∧ (100 - 50) * 32 / 5 ≤ s.reg Reg.HANG_RECUR ∧
      s.regAt Reg.SRC_ACTION Source.hangEngine.code = act) ∧
    ((timed .linkFlush (.link 1) 2 3 3 []).partOfUnit (.link 1) = some 0 ∧ 1 < 64) ∧
    (stuck.admits svc Reg.SRC_CLEAR Source.hangContext.code 0 = true ∧ stuck.admits svc Reg.SRC_CLEAR Source.pcycRequested.code 0 = true ∧
      stuck.srcClass .pcycRequested = .grave ∧ stuck.srcClass .hangContext ≠ .grave ∧ stuck.admits svc Reg.FLT_CLEAR_ALL 0 0 = true ∧ stuck.admits svc Reg.FLT_EVT_POP 0 0 = true) ∧
    (let s := { coreAt 0 with tclk := 10 ^ 9 }
     s.sound = true ∧ s.powered = true ∧ 0 < s.reg Reg.HANG_WINDOW ∧ s.allEngines.any s.hung = true ∧ (s.setReg Reg.HANG_WINDOW 0).reg Reg.HANG_WINDOW = 0) ∧
    (∃ s : State, s.sound = true ∧ s.flt.timers.length = 128 ∧ s.srcClass .hangContext = .severe ∧ s.regAt Reg.SRC_ACTION Source.hangContext.code ≠ 0 ∧
      ∀ y ∈ s.flt.timers, y.unit ≠ .context 3) := by
  refine ⟨by decide +kernel, by decide +kernel, by decide +kernel, by decide +kernel, by decide +kernel,
    small.onFlt fun f => { f with timers := List.replicate 128 { src := .hangContext, unit := .context 2, ctx := 2, time := 0, seq := 0 } }, by decide +kernel⟩

/-! Witnesses for `ResetsAndProbation`. -/
/-- Context 2 in a state, with a context reset of a cause in progress; the rung limit. -/
def reset2 (st cause max : Nat) : State :=
  (((inService running).setRegAt Reg.CTX_STATE 2 st).setReg Reg.FLT_LADDER_MAX max).onFlt fun f =>
    { f with ctxResets := if cause = 0 then [] else [{ ctx := 2, cause := cause, core := 0 }] }
/-- One unit's reset in progress, with its suspects, and no sample slots in the debug region. -/
def unitReset (un : UnitName) (suspects : List Nat) (max : Nat) : State :=
  (((inService small).setReg Reg.FLT_LADDER_MAX max).onFlt fun f => { f with unitResets := [{ unit := un, suspects := suspects, samples := [(0, zeros 16)] }] })
/-- A probation of core C0's DMA engine, the turn with context 2, what the turn has seen, and who waits. -/
def onTurn (success hung : Bool) (waiting : List Nat) : State :=
  ((inService small).setRegAt Reg.CTX_STATE 2 1).onFlt fun f => { f with probation := some { unit := .engine 0 .dma, waiting := waiting, turn := some 2, success := success, hung := hung } }
theorem witness_ResetsAndProbation :
    (∀ st ∈ [0, 1, 2, 3], (reset2 st 0 4).sound = true ∧ (reset2 st 0 4).admits svc Reg.RST_CTX 2 0 = true ∧ (reset2 st 0 4).regAt Reg.CTX_STATE 2 = st ∧
      (reset2 st 0 4).flt.ctxResets = []) ∧
    (∀ cause ∈ [1, 7], let s := reset2 3 cause 4
      s.sound = true ∧ s.flt.ctxResets = [{ ctx := 2, cause := cause, core := 0 }] ∧ (reset2 3 cause 4).regAt Reg.CTX_STATE 2 = 3) ∧
    (∀ max ∈ [1, 2], let s := { coreAt 0 with flt := (reset2 3 1 max).flt }.setReg Reg.FLT_LADDER_MAX max
      s.sound = true ∧ s.blk ≠ .kickstand ∧ (s.enginesOf 2).length = 1 ∧ s.reg Reg.FLT_LADDER_MAX = max) ∧
    (∀ un ∈ [UnitName.engine 0 .dma, .reduction 0, .partition 0], ∀ l ∈ [[], [2, 3]], ∀ max ∈ [2, 4], let s := unitReset un l max
      s.sound = true ∧ s.blk ≠ .kickstand ∧ s.reg Reg.FLT_LADDER_MAX = max ∧ s.flt.probation = none ∧ s.build.cores ≤ 64) ∧
    (∀ b ∈ [BlkState.run, .kickstand], let s := { stuck with blk := b }
      s.sound = true ∧ s.admits svc Reg.FLT_BLOCK_RESET 0 0 = true ∧ s.admits svc Reg.FLT_PCYC_REQUEST 0 0 = true ∧ s.admits svc Reg.FLT_KICKSTAND 0 0 = true ∧
      s.admits svc Reg.FLT_KICK_EXIT 0 0 = true ∧ s.srcClass .pcycRequested = .grave ∧ s.flt.grave = false ∧ s.flt.kickClock = false ∧ s.flt.pcycTimer = false) ∧
    (∀ max ∈ [4, 5], let s := (((small.inReset .stretching false false).onRst fun r => { r with rung4 := true }).setReg Reg.FLT_LADDER_MAX max)
      s.sound = true ∧ s.blk = .reset ∧ s.rst.rung4 = true ∧ s.reg Reg.FLT_LADDER_MAX = max ∧ s.srcClass .pcycRequested = .grave) ∧
    (let s := small.onFlt fun f => { f with pcycTimer := true, unsynced := [(0, 3)] }
     s.sound = true ∧ s.flt.pcycTimer = true ∧ s.blk ≠ .off ∧ s.blk ≠ .reset ∧ Table.get s.flt.unsynced 256 0 = 3 ∧ Table.get s.flt.unsynced 256 1 = 256) ∧
    (∀ a ∈ [true, false], ∀ b ∈ [true, false], ∀ l ∈ [[], [3]], let s := onTurn a b l
      s.sound = true ∧ 2 ∉ l ∧ (∀ d ∈ l, d < 64) ∧ (∀ n ∈ s.unitCores (.engine 0 .dma), n < 64) ∧ s.hasWorkOn 2 (.engine 0 .dma) = false ∧ s.regAt Reg.CTX_STATE 2 = 1) ∧
    (∃ s : State, s.sound = true ∧ s.hasWorkOn 2 (.engine 0 .dma) = true) := by
  refine ⟨by decide +kernel, by decide +kernel, by decide +kernel, by decide +kernel, by decide +kernel, by decide +kernel, by decide +kernel, by decide +kernel,
    running.onCtx 2 fun x => { x with tasks := [{ aTask with cores := 1 }] }, by decide +kernel⟩

/-! ### The spec's worked examples -/

def check9 : List Byte := [0x31, 0x32, 0x33, 0x34, 0x35, 0x36, 0x37, 0x38, 0x39]

/-- R386, column "Check": CRC-32C, CRC-64 and CRC-16 of "123456789". -/
theorem test_check_values : Crc.crc32c 0 check9 = 0xE3069283 ∧ Crc.feedPlain 64 0x42F0E1EBA9EA3693 0 check9 = 0x6C40DF5F0B497347 ∧
    Crc.crc16 check9 = 0x29B1 := by decide +kernel

/-- The example after R392: the unit's register after "12345678" and 0x39, and its final value. -/
theorem test_check_value_unit : let u := ((CvUnit.reset.restart.feed (leBytes 8 0x3837363534333231)).feed [0x39])
    u.reg = 0x1CF96D7C ∧ u.final = 0xE3069283 := by decide +kernel

/-- The example of R23, in a build with 12 memory ports. -/
theorem test_local_offset : let s : State := { small with build := { small.build with ports := 12 } }
    s.portOf 0x1234567890 = 7 ∧ s.portAddr 0x1234567890 = 0x1845C8890 ∧ s.localOf 7 0x1845C8890 = 0x1234567890 := by decide +kernel

/-- The example after R8, in the build GX5-32/40/8. -/
theorem test_partitions : let s : State := { small with build := { small.build with cores := 32, links := 40, ports := 8 } }
    s.partOfCore 13 = 3 ∧ s.partOfLink 13 = 2 ∧ partOfPort 5 = 5 := by decide +kernel

/-- The example of R101: position 1 failed and replaced by the spare. -/
theorem test_lane_map : ({ LinkState.reset with failed := 2, chosen := [0, 2, 3, 4] } : LinkState).laneMap = 0x10D0 := by decide +kernel

/-- The block of the example of R212: 5.0, -1.3, 0.2, 12.5 and zeros. -/
def mxLanes : List Nat := [0x40A00000, 0xBFA66666, 0x3E4CCCCD, 0x41480000] ++ List.replicate 28 0

/-- The example of R212: the scale and the elements in MXFP4. -/
theorem test_mx_block : let r := mxBlock 6 (mxLanes.map fun _ => .rne) mxLanes
    r.1 = 0x80 ∧ r.2.1 = [4, 9, 0, 7] ++ List.replicate 28 0 := by decide +kernel

/-- The same example's block multiplied with a second one and added to an accumulator with one rounding (R217). -/
theorem test_mx_product : floatCell (Float.e2m1.emin + Float.e2m1.emin) 0x3DCCCCCD (floatBlocks 6 ([4, 9, 0, 7] ++ List.replicate 28 0) [0x80])
    (floatBlocks 6 ([3, 4, 6, 1] ++ List.replicate 28 0) [0x7E]) = 0x40A33333 := by decide +kernel

/-- The example of R236: stochastic rounding of 0x3F80C000 to BF16 with two draws, and to nearest even. -/
theorem test_stochastic_rounding : Float.bf16.encode false (.sr 0x9E2A0F31) (Float.dec 0x3F80C000) = 0x3F81 ∧
    Float.bf16.encode false (.sr 0xD10477A2) (Float.dec 0x3F80C000) = 0x3F80 ∧ Float.bf16.encode false .rne (Float.dec 0x3F80C000) = 0x3F81 := by decide +kernel

/-- The example after R266: the directory bank of line 0x40_0002_0080 of chip 0x0A41. -/
theorem test_directory_bank : ({ job := 0, chip := 0x0A41, line := 0x4000020080 / 64 } : LineName).bank = 3 := by decide +kernel

/-- The example of R407: theta is -3.875 ns, and the follower keeps a valid counter. -/
theorem test_cadence_offset : cadenceOffset (5000000 * 256) (5001480 * 256) (5000900 * 256) 0x17C00 0x2B440 = -992 := by decide +kernel

/-- The example after R125: the pair from 0x0A07 to 0x0A41 takes place 10 of the candidate ports 0 to 2 and 4 to 15. -/
theorem test_pinned_port : ([0, 1, 2, 4, 5, 6, 7, 8, 9, 10, 11, 12, 13, 14, 15] : List Nat)[(0x0A07 ^^^ 0x0A41) % 15]? = some 11 := by decide +kernel

/-- The example of R491: the header of a READ of the block version and of its answer. -/
theorem test_ontan_header : (ontanMessage 0x21 1 1 0 7 0xFFFF 0x1000 1 0 []).take 14 = [0x21, 1, 1, 0, 7, 0, 0xFF, 0xFF, 0, 0x10, 1, 0, 0, 0] ∧
    (ontanMessage 0x21 3 1 0 7 0xFFFF 0x1000 1 3 (leBytes 4 0x05020000)).take 14 = [0x21, 3, 1, 0, 7, 0, 0xFF, 0xFF, 0, 0x10, 1, 3, 4, 0] := by decide +kernel

/-! ### Words -/

/-- No row of the command table has bits: no word spells a command, and a word puts none in the queue. -/
theorem test_no_word : decodeTableWord 32 0xFFFFFFFF = none ∧ (small.withFetchWord 32 0xFFFFFFFF).pending = [] := by decide +kernel

/-- A well-formed command is taken as such. -/
theorem test_well_formed : (Instr.ccAdd 63 0 0 0).wellFormed = true ∧ (Instr.loadRspReceive (collPkt .loadRsp 0 0 [])).wellFormed = true := by decide +kernel

/-! ### Ill-formed commands -/

def okPacket : Packet := { collPkt .store 0 0 [] with data := true }
def badPacket : Packet := { okPacket with seq := 2 ^ 20 }
def badVia : Via := { svc with level := 4 }

/-- Each field of a packet beyond its bits, a payload beyond its class, and a control packet with a data field. -/
theorem test_ill_formed_packets : ([{ okPacket with job := 65536 }, { okPacket with dest := 65536 }, { okPacket with src := 65536 }, { okPacket with tag := 65536 },
    { okPacket with gen := 256 }, badPacket, { okPacket with destOffset := 2 ^ 48 }, { okPacket with counter := 65536 }, { okPacket with opArg := 65536 },
    { okPacket with payload := List.replicate 4097 0 }, { okPacket with data := false, payload := List.replicate 17 0 }, { okPacket with data := false, destOffset := 1 },
    { okPacket with data := false, counter := 1 }, { okPacket with data := false, opArg := 1 }, { okPacket with data := false, countEn := true },
    { okPacket with data := false, countUnit := true }] : List Packet).all (fun p => !p.inRange) = true ∧ okPacket.inRange = true := by decide +kernel

/-- A level above 3 and a context field above a byte. -/
theorem test_ill_formed_via : badVia.inRange = false ∧ ({ svc with ctx := 256 } : Via).inRange = false ∧ svc.inRange = true := by decide +kernel

theorem test_ill_formed_1 : ([
    .gmpRequestIssue 16 0 .read 0 0 false [] false, .gmpRequestIssue 0 4096 .read 0 0 false [] false, .gmpRequestIssue 0 0 .read 281474976710656 0 false [] false, .gmpRequestIssue 0 0 .read 0 33 false [] false,
    .gmpWriteDataBeat 16, .gmpResponseBeat 16 0 0 0 [], .gmpResponseBeat 0 4096 0 0 [], .gmpResponseBeat 0 0 32 0 [],
    .gmpResponseBeat 0 0 0 4 [], .gmpStallTimeout 16 0, .gmpStallTimeout 0 4096, .gmpPortDisable 16,
    .gmpPortEnable 16, .doorbellWrite 64 0, .ivAck 2048 false, .ivUnmask 2048,
    .fqResolveRetry 4096, .fqResolveRefuse 4096, .invGo 64 false 0, .transmitUnitBoundary 64,
    .dataUnitReceive 64 [] [], .replayedUnitReceive 64 [] [], .controlUnitReceive 64 [] [], .idleUnitReceive 64 [] [],
    .ackTimerExpire 64, .replayTimeout 64 0, .replayTimeout 0 4096, .silenceTimeout 64,
    .pauseTimeout 64, .laneFail 64 0] : List Instr).all (fun i => !i.wellFormed) = true := by decide +kernel

theorem test_ill_formed_2 : ([
    .laneFail 0 5, .linkRetrain badVia 0, .linkRetrain svc 64, .linkEnableTrue badVia 0,
    .linkEnableTrue svc 64, .linkEnableFalse badVia 0, .linkEnableFalse svc 64, .trainingStart 64,
    .detectSuccess 64 0, .detectTimeout 64, .trainingWordReceive 64 0 0, .trainingWordReceive 0 5 0,
    .lockDeadline 64, .trainingAttemptTimeout 64, .trainingRecordRepeat 64, .trainingRetryWait 64,
    .freewheelExpire 64, .packetHeaderArrive 64, .packetComplete 64, .pktStallTimeout 64,
    .loadReqReceive 64 okPacket, .loadReqReceive 0 badPacket, .loadRspReceive badPacket, .storeReceive 64 okPacket,
    .storeReceive 0 badPacket, .copyReceive 64 okPacket, .copyReceive 0 badPacket, .atomicReqReceive 64 okPacket,
    .atomicReqReceive 0 badPacket, .atomicRspReceive badPacket] : List Instr).all (fun i => !i.wellFormed) = true := by decide +kernel

theorem test_ill_formed_3 : ([
    .gatherReqReceive 64 okPacket, .gatherReqReceive 0 badPacket, .scatterReceive 64 okPacket, .scatterReceive 0 badPacket,
    .completionReceive badPacket, .negCompletionReceive badPacket, .windowReqReceive badPacket, .windowGrantReceive badPacket,
    .windowGrantDeferred 65536, .rmtLoad 64, .rmtStore 64, .rmtCopyPush 64,
    .rmtCopyPull 64, .rmtAtomic 64, .rmtGather 64, .rmtScatter 64,
    .rmtReqTimeout 65536 0, .rmtReqTimeout 0 1048576, .rmtBackoffExpire 65536 0, .rmtBackoffExpire 0 1048576,
    .rmtParkLimit 65536 0, .rmtParkLimit 0 1048576, .completionCoalesce 65536 0 0, .completionCoalesce 0 65536 0,
    .completionCoalesce 0 0 256, .releaseDelay 65536, .windowLeaseExpire 65536, .cacheHoldExpire 65536 0 0,
    .cacheHoldExpire 0 65536 0, .cacheHoldExpire 0 0 256] : List Instr).all (fun i => !i.wellFormed) = true := by decide +kernel

theorem test_ill_formed_4 : ([
    .casPartExpire 65536 0 0, .casPartExpire 0 65536 0, .casPartExpire 0 0 256, .tagQuarantineExpire 65536,
    .pageWalk 8 0 0 .read (.engine 0 .dma), .pageWalk 0 64 0 .read (.engine 0 .dma), .xltServiceTimeout 64 0 .malformed, .faultIdHoldExpire 4096,
    .xltPtRootWrite badVia 0 0, .xltPtRootWrite svc 64 0, .matmul 64, .matmulEnd 64,
    .vectorPass 64, .vectorPassEnd 64, .copyLocal 64, .unwrite 64,
    .localCopyEnd 64 0, .ccAdd 64 0 0 0, .ccSub 64 0 0 0, .ccAnd 64 0 0 0,
    .ccOr 64 0 0 0, .ccXor 64 0 0 0, .ccShl 64 0 0 0, .ccShr 64 0 0 0,
    .ccSar 64 0 0 0, .ccMul 64 0 0 0, .ccMulhu 64 0 0 0, .ccSlt 64 0 0 0,
    .ccSltu 64 0 0 0, .ccAddi 64 0 0 0] : List Instr).all (fun i => !i.wellFormed) = true := by decide +kernel

theorem test_ill_formed_5 : ([
    .ccAndi 64 0 0 0, .ccOri 64 0 0 0, .ccHins 64 0 0 0, .ccHnew 64 0 0 0,
    .ccLd 64 0 0 0 0, .ccSt 64 0 0 0 0, .ccAmo 64 0 false 0 0 0, .ccSignal 64 0 0,
    .ccSet 64 0 0, .ccWait 64 0 0, .waitSatisfied 64, .ccRead 64 0 0,
    .ccCset 64 0 0, .ccCread 64 0 0, .ccWaitc 64 0 0, .ccFarFlush 64 0 0,
    .ccFarDrop 64 0 0, .ccFence 64, .farMaintenanceComplete 64, .ccEnqMatrix 64 0,
    .ccEnqVector 64 0, .ccEnqDma 64 0, .ccFarWindowSet 64 0 0, .ccMaskSetCount 64 0 0,
    .ccMaskSetSpad 64 0 0, .ccTrigArm 64 0 0, .ccTrigDisarm 64 0, .ccCvInit 64 0 0,
    .ccCvFeed1 64 0 0, .ccCvFeed2 64 0 0] : List Instr).all (fun i => !i.wellFormed) = true := by decide +kernel

theorem test_ill_formed_6 : ([
    .ccCvFeed4 64 0 0, .ccCvFeed8 64 0 0, .ccCvFinal 64 0 0, .ccCvGet 64 0 0,
    .ccCvPut 64 0 0, .ccCvGeta 64 0 0, .ccCvPuta 64 0 0, .ccCvAppend 64 0 0,
    .ccCvCheck 64 0 0 0, .ccCvLedger 64 0 0 0, .ccMarkBegin 64 0, .ccMarkEnd 64 0,
    .ccMarkPoint 64 0, .ccBeq 64 0 0 0, .ccBne 64 0 0 0, .ccBlt 64 0 0 0,
    .ccBge 64 0 0 0, .ccBltu 64 0 0 0, .ccBgeu 64 0 0 0, .ccJal 64 0 0,
    .ccJr 64 0 0, .ccEnd 64 0, .farFillComplete 64, .directoryGrant 8,
    .memZeroGo badVia 0, .memZeroGo svc 64, .memZeroComplete 64, .ctxOpen badVia 0,
    .ctxOpen svc 64, .ctxClose badVia 0] : List Instr).all (fun i => !i.wellFormed) = true := by decide +kernel

theorem test_ill_formed_7 : ([
    .ctxClose svc 64, .ctxResume badVia 0, .ctxResume svc 64, .ctxCoresWrite badVia 0 0,
    .ctxCoresWrite svc 64 0, .ctxRouteBind badVia 0, .ctxRouteBind svc 64, .routeBindComplete 64,
    .submissionRead 64, .taskAdmit 64, .taskEnd 64, .ctxImageLoad badVia 0,
    .ctxImageLoad svc 64, .imageVerifyComplete 64, .imgPushGo badVia, .imageLoadReceive badPacket,
    .collectiveStart 64 0, .chunkOpen 64 0 0, .chunkOpen 0 4096 0, .chunkOpen 0 0 4294967296,
    .grantReceive badPacket, .expUpReceive badPacket, .expDownReceive badPacket, .doneReceive badPacket,
    .tallyChunkReceive badPacket, .gatherChunkReceive badPacket, .collAbortReceive badPacket, .collNoticeRepeat 64 0,
    .collNoticeRepeat 0 4096, .collTimeout 64 0] : List Instr).all (fun i => !i.wellFormed) = true := by decide +kernel

theorem test_ill_formed_8 : ([
    .collTimeout 0 4096, .attEnableTrue badVia 0, .attEnableTrue svc 64, .attEnableFalse badVia 0,
    .attEnableFalse svc 64, .attend 64, .attendReqReceive 64 okPacket, .attendReqReceive 0 badPacket,
    .attAssemblyTimeout 64 0, .attAssemblyTimeout 0 256, .attendServiceStart 64 0, .attendServiceStart 0 64,
    .attendServiceEnd 64 0, .attendServiceEnd 0 64, .attHoldExpire 64 0, .attHoldExpire 0 256,
    .attendPartReceive badPacket, .attResultTimeout 64 0, .ldgEnableTrue badVia 0, .ldgEnableTrue svc 64,
    .ldgEnableFalse badVia 0, .ldgEnableFalse svc 64, .ldgDrainComplete 64, .ldgConsumerWrite badVia 0 0,
    .ldgConsumerWrite svc 64 0, .capArmTrue badVia 0 0, .capArmTrue svc 64 0, .capArmTrue svc 0 4,
    .cadenceReqReceive badPacket, .cadenceRspReceive badPacket] : List Instr).all (fun i => !i.wellFormed) = true := by decide +kernel

theorem test_ill_formed_9 : ([
    .hierCadenceSet badVia 0, .arriveReceive badPacket, .releaseReceive badPacket, .barrierAbortReceive badPacket,
    .keepaliveReceive badPacket, .takeoverReceive badPacket, .arriveRepeat 64, .barTimeout 64,
    .keepalivePeriod 64, .takeoverTimeout 64, .jobSnapshot badVia 0 0, .jobSnapshot svc 64 0,
    .jobReset badVia 0 0, .jobReset svc 64 0, .snapshotReceive badPacket, .resetBcastReceive badPacket,
    .bcastSecondCopy 64, .bcastActivate 64 0, .bcastActivate 0 4294967296, .srcClear badVia 0,
    .fltClearAll badVia, .fltStickyClear badVia, .fltEvtPop badVia, .rstCtx badVia 0,
    .rstCtx svc 64, .contextResetComplete 64, .partitionResetIdle 8, .fltBlockReset badVia,
    .rstCtxLimit 64, .rstPartitionLimit 8] : List Instr).all (fun i => !i.wellFormed) = true := by decide +kernel

theorem test_ill_formed_10 : ([
    .fltPcycRequest badVia, .epochResyncComplete 64, .fltKickstand badVia, .fltKickExit badVia,
    .sleepDelayExpire 64, .wakeRelease 64, .wakeComplete 64, .wakeDelayed 64 0,
    .mmGateDelay 64, .rampStart 64, .rampComplete 64, .pwrVid badVia 0,
    .ontanRead .mii 4 0 0 0, .ontanRead .mii 0 256 0 0, .ontanRead .mii 0 0 65536 0, .ontanRead .mii 0 0 0 256,
    .ontanWrite .mii 4 0 0 0 0 [], .ontanWrite .mii 0 256 0 0 0 [], .ontanWrite .mii 0 0 65536 0 0 [], .ontanWrite .mii 0 0 0 256 0 [],
    .ontanWrite .mii 0 0 0 0 256 [], .ontanPacketReceive badPacket, .secRevoke badVia 0, .secRevoke svc 4,
    .blkReady badVia, .blkRun badVia, .blkDrain badVia, .blkConfigure badVia,
    .blkQuarantineExit badVia, .routeLoad badVia] : List Instr).all (fun i => !i.wellFormed) = true := by decide +kernel

theorem test_ill_formed_11 : ([
    .routeDrainUpdate badVia 0 0, .routeDrainUpdate svc 65536 0, .lportLinksWrite badVia 0 0, .lportLinksWrite svc 64 0,
    .obsClear badVia, .trcEnableTrue badVia, .trcEnableFalse badVia, .pcSample 64,
    .breakpointHit 64, .dbgHalt badVia 0, .dbgHalt svc 64, .dbgDrainComplete 64,
    .dbgStep badVia 0, .dbgStep svc 64, .dbgResume badVia 0, .dbgResume svc 64] : List Instr).all (fun i => !i.wellFormed) = true := by decide +kernel

end Sys2Proof.Machine
end

/-! ### Requests to the dictionary, and what a write of a stored number leaves for the next read -/
namespace Sys2Proof.Machine
open Sys2Proof Sys2Proof.Bits

section Requests

variable {s t : State} {c : Carrier} {level ctx key n v : Nat} {e : Entry} {x : Status} {bs : List Byte}

/-- The entry that a key names depends on the build alone. -/
theorem State.entryAt_congr (hb : t.build = s.build) (key : Nat) : t.entryAt key = s.entryAt key := by
  have hspan : t.spanCount = s.spanCount := by
    funext sp
    unfold State.spanCount
    rw [hb]
  unfold State.entryAt State.countEntry State.indexEntries State.entry?
  rw [hspan]

/-- Checks 2 to 6 of R492 look at the build, the block state, the kept link and the carrier's session. -/
theorem State.admitReq_congr (hb : t.build = s.build) (hk : t.blk = s.blk) (hl : t.flt.kept = s.flt.kept)
    (hs : t.ont.session c = s.ont.session c) (level ctx key : Nat) (write : Bool) :
    t.admitReq c level ctx key write = s.admitReq c level ctx key write := by
  unfold State.admitReq State.kickServes
  rw [hs, State.entryAt_congr hb, hk, hl]

/-- The note of a status is no part of any session. -/
theorem State.answered_session (s : State) (x : Status) (c : Carrier) :
    (s.answered x).ont.session c = s.ont.session c := by cases c <;> rfl

/-- A carrier is served after a write of an entry where it was before. -/
theorem State.serves_setRegAt_answered (s : State) (k n v : Nat) (x : Status) (c : Carrier) :
    ((s.setRegAt k n v).answered x).serves c = s.serves c := rfl

/-- A write of an entry leaves nothing for the end of the command that was not there before. -/
theorem State.quiet_setRegAt_answered (s : State) (k n v : Nat) (x : Status) :
    ((s.setRegAt k n v).answered x).quiet = s.quiet := rfl

/-- A write of an entry, with its status noted, leaves every later request to the same checks. -/
theorem State.admitReq_setRegAt_answered (s : State) (k n v : Nat) (x : Status) (c : Carrier)
    (level ctx key : Nat) (write : Bool) :
    ((s.setRegAt k n v).answered x).admitReq c level ctx key write = s.admitReq c level ctx key write :=
  State.admitReq_congr rfl rfl rfl (State.answered_session ..) ..

/-- An entry written by unit, with the status noted, reads back; every other entry reads as before. -/
theorem State.reg_setRegAt_answered (h : s.sound = true) (k n v y : Nat) (x : Status) :
    ((s.setRegAt k n v).answered x).reg y = if y = unitKey k n then v else s.reg y :=
  calc ((s.setRegAt k n v).answered x).reg y
      = (s.setReg (unitKey k n) v).reg y := State.reg_congr rfl rfl rfl y
    _ = if y = unitKey k n then v else s.reg y := State.reg_setReg (State.sound_iff.1 h).dict ..

/-! #### Writes -/

/-- Where checks 8 to 10 of R492 pass, a write has its effect. -/
theorem State.performWrite_of_checks (hblk : e.access = .rwc → s.blk = .configure) (hrange : s.rangeOk e n v = true)
    (hbusy : s.entryBusy e n v = false) (act : State → Status × State) : s.performWrite e n v act = act s := by
  unfold State.performWrite
  rw [if_neg fun h => h.2 (hblk h.1), hrange, hbusy]
  rfl

/-- A write of an entry with no behaviour of its own stores the value, without its reserved bits (R18). -/
theorem State.writeAct_of_plain (hfault : s.faultWrite key n = none) (hctx : s.ctxWrite key n v bs = none)
    (hblock : s.blockWrite c key n v bs = none) : s.writeAct c key n v bs = (.ok, s.setRegAt key n (stored key v)) := by
  unfold State.writeAct
  rw [hfault, hctx, hblock]
  rfl

/-- A WRITE that checks 2 to 6 turn away answers their status and has no effect. -/
theorem State.serveWrite_of_error (h : s.admitReq c level ctx key true = .error x) (vtype : Nat) (bs : List Byte) :
    s.serveWrite c level ctx key vtype bs = (x, s) := by
  unfold State.serveWrite
  rw [h]

/-- An admitted WRITE of a number in the entry's type and length goes on to checks 8 to 10 and its effect. -/
theorem State.serveWrite_of_number (h : s.admitReq c level ctx key true = .ok (e, n)) (hcmd : e.ty ≠ .cmd)
    (hany : e.ty ≠ .anyBytes) (hlen : e.ty.lenOk bs.length = true) :
    s.serveWrite c level ctx key e.ty.code bs =
      s.performWrite e n (leNat bs) fun t => t.writeAct c e.key n (leNat bs) bs := by
  unfold State.serveWrite
  rw [h]
  simp only [hlen, hcmd, hany, ne_eq, not_true_eq_false, Bool.not_true, Bool.false_eq_true, or_self, if_false]

/-- What ONTAN_WRITE answers on a carrier that is served. -/
theorem exec_ontanWrite_of_serves (h : s.serves c = true) (level ctx index sub vtype : Nat) (bs : List Byte) :
    exec (.ontanWrite c level ctx index sub vtype bs) s = .next (State.settle
      ((s.serveWrite c level ctx (256 * index + sub) vtype bs).2.answered
        (s.serveWrite c level ctx (256 * index + sub) vtype bs).1)) := by
  change State.done (s.ontanWrite c level ctx index sub vtype bs) = _
  unfold State.ontanWrite State.done
  simp only [h, Bool.not_true, Bool.false_eq_true, if_false]

/-! #### Reads -/

/-- A READ that checks 2 to 6 turn away answers their status and no value, and has no effect. -/
theorem State.serveRead_of_error (h : s.admitReq c level ctx key false = .error x) (vtype len : Nat) :
    s.serveRead c level ctx key vtype len = ((x, (s.entryAt key).map (·.1.ty.code), []), s) := by
  unfold State.serveRead
  rw [h]

/-- An admitted READ with no type and no length answers what its entry reads as. -/
theorem State.serveRead_of_admitted (h : s.admitReq c level ctx key false = .ok (e, n)) :
    s.serveRead c level ctx key 0 0 =
      (((s.readEntry c e n).1.1, some e.ty.code, (s.readEntry c e n).1.2), (s.readEntry c e n).2) := by
  unfold State.serveRead
  simp only [h, ne_eq, not_true_eq_false, or_self, if_false]

/-- An entry of a stored number that nothing computes reads as its stored value, in the size of its type. -/
theorem State.readEntry_of_stored (hty : ∀ k, e.ty ≠ .bytes k) (hsub : e.key % 256 ≠ 0) (hpc : e.key ≠ Reg.DBG_PC)
    (hregs : e.key ≠ Reg.DBG_REGS) (hchallenge : e.key ≠ Reg.SEC_CHALLENGE) (hderived : s.derived c e.key n = none) :
    s.readEntry c e n = ((.ok, leBytes e.ty.size (s.regAt e.key n)), s) := by
  have hhalt : ¬ ((e.key = Reg.DBG_PC ∨ e.key = Reg.DBG_REGS) ∧ (s.core n).halt ≠ .halted) :=
    fun h => h.1.elim hpc hregs
  unfold State.readEntry
  simp only [if_neg hhalt, if_neg hchallenge, if_neg hsub, hderived, Option.getD_none]

/-- What ONTAN_READ answers on a carrier that is served. -/
theorem exec_ontanRead_of_serves (h : s.serves c = true) (level ctx index sub : Nat) :
    exec (.ontanRead c level ctx index sub) s = .next (State.settle
      (((s.serveRead c level ctx (256 * index + sub) 0 0).2.answered
          (s.serveRead c level ctx (256 * index + sub) 0 0).1.1).onOnt
        fun o => { o with value := (s.serveRead c level ctx (256 * index + sub) 0 0).1.2.2 })) := by
  change State.done (s.ontanRead c level ctx index sub) = _
  unfold State.ontanRead State.done
  simp only [h, Bool.not_true, Bool.false_eq_true, if_false]

/-- An admitted ONTAN_READ of a stored number, with nothing left to settle, changes only the answer it leaves. -/
theorem exec_ontanRead_of_stored {index sub : Nat} (hserves : s.serves c = true) (hquiet : s.quiet = true)
    (hadmit : s.admitReq c level ctx (256 * index + sub) false = .ok (e, n))
    (hread : s.readEntry c e n = ((.ok, bs), s)) :
    exec (.ontanRead c level ctx index sub) s = .next ((s.answered .ok).onOnt fun o => { o with value := bs }) := by
  rw [exec_ontanRead_of_serves hserves, State.serveRead_of_admitted hadmit, hread]
  exact congrArg Host.Outcome.next (State.settle_of_quiet hquiet)

end Requests

/-- Settles O16: the write goes through the checks one by one to the plain store, which leaves the checks of the read as
they were and reads back in a sound dictionary. -/
theorem ontanWriteReadsBack : Obligations.OntanWriteReadsBack := by
  intro s c level ctx index sub n value e
  refine ⟨?_, ?_, ?_⟩
  · intro hserves hwrite hread hty hcmd hany hlen hblk hrange hbusy hfault hctx hblock
    have hexec : exec (.ontanWrite c level ctx index sub e.ty.code value) s = .next (State.settle
        ((s.setRegAt e.key n (stored e.key (leNat value))).answered .ok)) := by
      rw [exec_ontanWrite_of_serves hserves, State.serveWrite_of_number hwrite hcmd hany hlen,
        State.performWrite_of_checks hblk hrange hbusy, State.writeAct_of_plain hfault hctx hblock]
    refine ⟨hexec, ?_⟩
    intro hsound hquiet hsub hpc hregs hchallenge hderived
    rw [State.settle_of_quiet ((State.quiet_setRegAt_answered ..).trans hquiet)] at hexec
    have hreg := State.reg_setRegAt_answered hsound e.key n (stored e.key (leNat value)) (x := .ok)
    have hvalue := (hreg (unitKey e.key n)).trans (if_pos rfl)
    refine ⟨_, _, hexec, exec_ontanRead_of_stored ((State.serves_setRegAt_answered ..).trans hserves)
      ((State.quiet_setRegAt_answered ..).trans hquiet) ((State.admitReq_setRegAt_answered ..).trans hread)
      (State.readEntry_of_stored hty hsub hpc hregs hchallenge (hderived _)), ?_⟩
    exact ⟨rfl, congrArg (leBytes e.ty.size) hvalue, rfl, fun k hk => (hreg k).trans (if_neg hk)⟩
  · intro x hserves herror vtype
    rw [exec_ontanWrite_of_serves hserves, State.serveWrite_of_error herror]
  · intro x hserves herror
    rw [exec_ontanRead_of_serves hserves, State.serveRead_of_error herror]
    rfl

end Sys2Proof.Machine

/-! ### The state after reset -/
namespace Sys2Proof.Bits

section Units

variable {α : Type} {d v : α}

/-- A table that lists a run of keys, each at the same value, is canonical where that value is not the default. -/
theorem Table.wfFrom_run [DecidableEq α] (hv : v ≠ d) {a : Nat} {lo : Option Nat} (hlo : ∀ l, lo = some l → l < a)
    (n : Nat) :
    Table.wfFrom d lo ((List.range' a n).map fun k => (k, v)) = true := by
  induction n generalizing a lo with
  | zero => rfl
  | succ n ih =>
    have htail := ih (a := a + 1) (lo := some a) (by rintro l ⟨⟩; omega)
    cases lo with
    | none => simpa [List.range'_succ, Table.wfFrom, hv] using htail
    | some l => simpa [List.range'_succ, Table.wfFrom, hv, hlo l rfl] using htail

/-- In a table that lists a run of keys, each at the same value, a key of the run has that value. -/
theorem Table.find?_run {a n k : Nat} (hlo : a ≤ k) (hhi : k < a + n) :
    Table.find? ((List.range' a n).map fun i => (i, v)) k = some v := by
  induction n generalizing a with
  | zero => omega
  | succ n ih =>
    rw [List.range'_succ, List.map_cons, Table.find?]
    by_cases hk : k = a
    · rw [if_pos hk]
    · rw [if_neg hk, if_neg (by omega)]
      exact ih (by omega) (by omega)

end Units

end Sys2Proof.Bits

namespace Sys2Proof.Machine
open Sys2Proof Sys2Proof.Bits

/-- Right after Reset every link of the build is Down and due to train (R85). -/
theorem State.cleared_link (b : Build) {n : Nat} (h : n < b.links) :
    (State.cleared b).link n = { LinkState.reset with trainDue := true } := by
  have hfind : Table.find? (State.cleared b).links n = some { LinkState.reset with trainDue := true } := by
    change Table.find? ((List.range b.links).map _) n = _
    rw [List.range_eq_range']
    exact Table.find?_run (Nat.zero_le n) (by omega)
  unfold State.link Table.get
  rw [hfind]
  rfl

/-- The state right after Reset is sound for every build: its tables are empty but for the links, which rise. -/
theorem State.cleared_sound (b : Build) : (State.cleared b).sound = true := by
  have hdue : { LinkState.reset with trainDue := true } ≠ LinkState.reset :=
    fun h => Bool.noConfusion (congrArg LinkState.trainDue h)
  have hlinks : Table.wf LinkState.reset (State.cleared b).links = true := by
    change Table.wf _ ((List.range b.links).map _) = true
    rw [List.range_eq_range']
    exact Table.wfFrom_run hdue (fun _ h => absurd h (Option.some_ne_none _).symm) _
  exact State.sound_iff.2
    { mem := rfl, spad := rfl, memPoison := rfl, spadWritten := rfl, spadPoison := rfl, sems := rfl, counters := rfl,
      dict := rfl, links := hlinks, cores := rfl, coreParts := rfl, ctxs := rfl, ports := rfl, vectors := rfl,
      queue := Nat.zero_le _, timers := Nat.zero_le _, invs := Nat.zero_le _, buffer := Nat.zero_le _ }

/-- Settles O4: soundness and the links hold of the cleared state of every build; the rest is what the nominal one lists. -/
theorem resetState : Obligations.ResetState := by
  have hlink : ∀ n, n < 64 → State.reset.link n = { LinkState.reset with trainDue := true } :=
    fun n h => State.cleared_link .nominal h
  exact ⟨State.cleared_sound .nominal, rfl, rfl, rfl, rfl, rfl, rfl, rfl, rfl, rfl, rfl, rfl, rfl, rfl, rfl, rfl, rfl, rfl,
    hlink, rfl, rfl, rfl⟩

end Sys2Proof.Machine

/-! ### Branches, jumps, markers and END of the control core -/
namespace Sys2Proof.Machine
open Sys2Proof Sys2Proof.Bits

section ControlFlow

variable {s u : State} {core : Nat}

/-! #### Words that are matched and legal -/

/-- A word with an immediate matches a form that gives no function code where the given fields agree. -/
theorem CcForm.matches_ccWordImm {f : CcForm} {op : Nat} (hop : op < 64) (rd ra : Fin 32) (imm : Fin 65536)
    (hfn : f.fn = none) (hrb : f.rb = none) :
    f.matches (ccWordImm op rd ra imm) = (op == f.op && fieldIs f.rd rd && fieldIs f.ra ra && fieldIs f.imm imm) := by
  obtain ⟨eop, erd, era, eimm⟩ := ccWordImm_fields hop rd.isLt ra.isLt imm.isLt
  simp [CcForm.matches, eop, erd, era, eimm, hfn, hrb, fieldIs]

/-- A word with a function code matches a form that gives no immediate where the given fields agree. -/
theorem CcForm.matches_ccWord {f : CcForm} {op fn : Nat} (hop : op < 64) (rd ra rb : Fin 32) (hfn : fn < 2048)
    (himm : f.imm = none) :
    f.matches (ccWord op rd ra rb fn) =
      (op == f.op && fieldIs f.fn fn && fieldIs f.rd rd && fieldIs f.ra ra && fieldIs f.rb rb) := by
  obtain ⟨eop, erd, era, erb, efn⟩ := ccWord_fields hop rd.isLt ra.isLt rb.isLt hfn
  simp [CcForm.matches, eop, erd, era, erb, efn, himm, fieldIs]

@[simp] theorem fieldIs_none (v : Nat) : fieldIs none v = true := rfl
@[simp] theorem fieldIs_some_self (v : Nat) : fieldIs (some v) v = true := beq_self_eq_true v

/-- The opcodes of the branches, the jumps and END (R290). -/
def controlFlowOps : List Nat := [0x20, 0x21, 0x22, 0x23, 0x24, 0x25, 0x26, 0x27, 0x3F]

theorem lt_of_mem_controlFlowOps : ∀ op ∈ controlFlowOps, op < 64 := by decide

theorem ccLegal_ccWordImm {op : Nat} (hop : op ∈ controlFlowOps) (rd ra : Fin 32) (imm : Fin 65536) :
    ccLegal (ccWordImm op rd ra imm) = true := by
  have eop := (ccWordImm_fields (lt_of_mem_controlFlowOps op hop) rd.isLt ra.isLt imm.isLt).1
  simp only [controlFlowOps, List.mem_cons, List.not_mem_nil, or_false] at hop
  unfold ccLegal
  rw [eop]
  rcases hop with rfl | rfl | rfl | rfl | rfl | rfl | rfl | rfl | rfl <;> rfl

/-- FAR_WINDOW_SET and MASK_SET_COUNT: function codes 0 to 15 and 17 to 23 (R290). -/
theorem ccLegal_windowWord (rd ra rb : Fin 32) {fn : Nat} (hfn : fn < 24) (h16 : fn ≠ 16) :
    ccLegal (ccWord 0x15 rd ra rb fn) = true := by
  obtain ⟨eop, -, -, -, efn⟩ := ccWord_fields (by decide : 0x15 < 64) rd.isLt ra.isLt rb.isLt (by omega : fn < 2048)
  unfold ccLegal
  rw [eop, efn]
  simp only [Bool.and_eq_true, decide_eq_true_eq, bne_iff_ne]
  omega

theorem ccLegal_markWord (rd ra rb : Fin 32) {fn : Nat} (hfn : fn < 3) : ccLegal (ccWord 0x18 rd ra rb fn) = true := by
  obtain ⟨eop, -, -, -, efn⟩ := ccWord_fields (by decide : 0x18 < 64) rd.isLt ra.isLt rb.isLt (by omega : fn < 2048)
  unfold ccLegal
  rw [eop, efn]
  exact decide_eq_true hfn

/-- A core about to execute a branch, a jump or END has its effect. -/
theorem State.ccRun_controlFlow {op : Nat} {rd ra : Fin 32} {imm : Fin 65536} {form : CcForm} {effect : State → State}
    (habout : s.about core (ccWordImm op rd ra imm) = true) (hop : op ∈ controlFlowOps)
    (hfn : form.fn = none) (hrb : form.rb = none)
    (hfields : (op == form.op && fieldIs form.rd rd && fieldIs form.ra ra && fieldIs form.imm imm) = true) :
    s.ccRun core form effect = effect s :=
  State.ccRun_about habout (ccLegal_ccWordImm hop rd ra imm)
    ((CcForm.matches_ccWordImm (lt_of_mem_controlFlowOps op hop) rd ra imm hfn hrb).trans hfields)

/-- A core about to execute a legal word of a function code and one source register has its effect. -/
theorem State.ccRun_oneSource {op fn : Nat} {rd ra rb : Fin 32} {effect : State → State}
    (habout : s.about core (ccWord op rd ra rb fn) = true) (hop : op < 64) (hfn : fn < 2048)
    (hlegal : ccLegal (ccWord op rd ra rb fn) = true) :
    s.ccRun core { op := op, fn := some fn, ra := some ra.val } effect = effect s :=
  State.ccRun_about habout hlegal ((CcForm.matches_ccWord hop rd ra rb hfn rfl).trans (by simp))

theorem State.ccRun_windowWord {fn : Nat} {rd ra rb : Fin 32} {effect : State → State}
    (habout : s.about core (ccWord 0x15 rd ra rb fn) = true) (hfn : fn < 24) (h16 : fn ≠ 16) :
    s.ccRun core { op := 0x15, fn := some fn, ra := some ra.val } effect = effect s :=
  State.ccRun_oneSource habout (by decide) (by omega) (ccLegal_windowWord rd ra rb hfn h16)

theorem State.ccRun_markWord {fn : Nat} {rd ra rb : Fin 32} {effect : State → State}
    (habout : s.about core (ccWord 0x18 rd ra rb fn) = true) (hfn : fn < 3) :
    s.ccRun core { op := 0x18, fn := some fn, ra := some ra.val } effect = effect s :=
  State.ccRun_oneSource habout (by decide) (by omega) (ccLegal_markWord rd ra rb hfn)

/-! #### Branch targets -/

/-- A sign-extended immediate as a number. -/
theorem immSigned_toNat {imm : Nat} (h : imm < 2 ^ 16) :
    (immSigned imm).toNat = imm + if imm < 2 ^ 15 then 0 else 2 ^ 64 - 2 ^ 16 := by
  unfold immSigned signed
  rw [Nat.mod_eq_of_lt h, BitVec.toNat_ofInt]
  split <;> (simp only [Int.ofNat_eq_natCast]; omega)

/-- PC + 4 × IMM before it wraps at 64 bits: a negative immediate falls short by 4 × 2^16 (R290). -/
def branchTarget (pc imm : Nat) : Nat := pc + 4 * imm + if imm < 2 ^ 15 then 0 else 2 ^ 64 - 2 ^ 18

theorem State.branchTo_eq (s : State) (core : Nat) (imm : Fin 65536) :
    s.branchTo core imm = branchTarget (s.core core).pc imm % 2 ^ 64 := by
  have himm := immSigned_toNat imm.isLt
  unfold State.branchTo branchTarget
  rw [BitVec.toNat_add, BitVec.toNat_mul, himm, BitVec.toNat_ofNat, show (4 : Word64).toNat = 4 from rfl]
  split <;> omega

/-! #### What retiring leaves of a core -/

/-- A core after it retires: its program counter, that it stalls no more, and where it stepped that it halts. -/
theorem State.ccRetire_core (h : s.sound = true) (core pc : Nat) : ∃ (halt : Halt) (step : Bool),
    (s.ccRetire core pc).core core =
      { s.core core with pc := pc % 2 ^ 64, stall := .none, pass := false, halt := halt, step := step } := by
  unfold State.ccRetire
  extract_lets c s1 s2
  have hcores : s2.cores = s1.cores := (congrArg State.cores (State.busy_dict s1 Reg.OBS_CC_RETIRED Reg.CTX_CC_RETIRED c 1) :)
  have hwf : Table.wf CoreState.reset s2.cores = true := by
    rw [hcores]
    exact Table.wf_put (State.sound_iff.1 h).cores
  have hs2 : s2.core core = { s.core core with pc := pc % 2 ^ 64, stall := .none, pass := false } := by
    rw [State.core_congr hcores]
    exact (State.core_onCore (State.sound_iff.1 h).cores ..).trans (if_pos rfl)
  split
  · unfold State.haltCore
    rw [State.core_onCore hwf, if_pos rfl, hs2]
    exact ⟨_, _, rfl⟩
  · exact ⟨_, _, hs2⟩

/-- An instruction that writes a register and retires, wherever it goes on, changes nothing else of its core. -/
theorem State.Retired.of_setX {rd pc : Nat} {v : Word64} (h : s.sound = true)
    (R : (s.onCore core fun x => x.setX rd v).Retired u core pc) : s.Retired u core pc := by
  have hcore (n : Nat) := State.core_onCore (State.sound_iff.1 h).cores core n fun x => x.setX rd v
  have hregs (x : CoreState) : x.setX rd v = { x with regs := (x.setX rd v).regs } := by
    unfold CoreState.setX
    split <;> rfl
  have hown := (hcore core).trans ((if_pos rfl).trans (hregs _))
  have hstep := congrArg CoreState.step hown
  have hctx : (s.onCore core fun x => x.setX rd v).ctxOfCore core = s.ctxOfCore core := by
    unfold State.ctxOfCore
    rw [hown]
  refine ⟨R.next, R.idle, fun hs => ?_, fun hs => R.steps (hstep.trans hs), fun n hn => ?_, fun k hblock hunit => ?_, R.rest⟩
  · have := R.own (hstep.trans hs)
    rwa [hown] at this
  · rw [R.cores n hn, hcore, if_neg hn]
  · rw [R.entries k hblock (hctx.symm ▸ hunit)]
    exact State.reg_congr rfl rfl rfl k

/-! #### Branches and jumps -/

/-- A branch retires to its target or to the next instruction, and writes no register. -/
theorem State.ccBranch_spec (h : s.sound = true) (core : Nat) (imm : Fin 65536) (taken : Bool) :
    s.Retired (s.ccBranch core imm taken) core
      ((if taken = true then branchTarget (s.core core).pc imm else (s.core core).pc + 4) % 2 ^ 64) ∧
    ∀ r, (s.ccBranch core imm taken).x core r = s.x core r := by
  unfold State.ccBranch State.ccNext
  split
  · have R := State.ccRetire_retired h core (s.branchTo core imm)
    rw [State.branchTo_eq, Nat.mod_mod] at R
    rw [State.branchTo_eq]
    exact ⟨R, State.ccRetire_x h core _ core⟩
  · exact ⟨State.ccRetire_retired h core _, State.ccRetire_x h core _ core⟩

theorem not_slt_iff {a b : Word64} : (!a.slt b) = true ↔ b.toInt ≤ a.toInt := by
  rw [← BitVec.sle_eq_not_slt, BitVec.sle_iff_toInt_le]

theorem not_ult_iff {a b : Word64} : (!a.ult b) = true ↔ b.toNat ≤ a.toNat := by
  rw [← BitVec.ule_eq_not_ult, BitVec.ule_iff_toNat_le]

/-- What a conditional branch answers, by its opcode and the condition that decides it. -/
theorem exec_branch {c : Instr} {op : Nat} {rd ra : Fin 32} {imm : Fin 65536} {taken : State → Bool} {p : Prop}
    [Decidable p] (h : s.sound = true) (hop : op ∈ controlFlowOps)
    (hexec : exec c s = State.done (s.ccRun core { op := op, rd := some rd.val, ra := some ra.val, imm := some imm.val }
      fun t => t.ccBranch core imm (taken t)))
    (hp : taken s = true ↔ p) (habout : s.about core (ccWordImm op rd ra imm) = true) :
    ∃ u : State, exec c s = .next u.settle ∧
      s.Retired u core ((if p then branchTarget (s.core core).pc imm else (s.core core).pc + 4) % 2 ^ 64) ∧
      ∀ r, u.x core r = s.x core r := by
  rw [State.ccRun_controlFlow habout hop rfl rfl (by simp)] at hexec
  have hspec := State.ccBranch_spec h core imm (taken s)
  simp only [hp] at hspec
  exact ⟨_, hexec, hspec⟩

/-- A jump writes the link to its register and retires to its target. -/
theorem State.ccJump_spec (h : s.sound = true) (core rd target : Nat) :
    s.Retired (s.ccJump core rd target) core (target % 2 ^ 64) ∧
    ∀ r, (s.ccJump core rd target).x core r =
      if r = rd ∧ r ≠ 0 then BitVec.ofNat 64 ((s.core core).pc + 4) else s.x core r := by
  unfold State.ccJump
  extract_lets link
  have hwritten : (s.onCore core fun x => x.setX rd link).sound = true :=
    (State.onCore_keep (Keep.refl s) _ _ fun _ hx => CoreState.setX_canonical hx _ _).kept.sound h
  refine ⟨(State.ccRetire_retired hwritten core target).of_setX h, fun r => ?_⟩
  rw [State.ccRetire_x hwritten]
  unfold State.x
  rw [State.core_onCore (State.sound_iff.1 h).cores, if_pos rfl,
    CoreState.x_setX (State.core_canonical (State.sound_iff.1 h).coreParts core)]

/-! #### Windows, masks and END -/

/-- What an instruction leaves that changes its core alone and retires: the core is as changed but for what retiring sets,
and the other cores, the contexts and the memories are as before. -/
structure State.RetiredAs (s u : State) (core pc : Nat) (x : CoreState) : Prop where
  own : ∃ (halt : Halt) (step : Bool),
    u.core core = { x with pc := pc % 2 ^ 64, stall := .none, pass := false, halt := halt, step := step }
  others : ∀ n, n ≠ core → u.core n = s.core n
  ctxs : u.ctxs = s.ctxs
  mem : u.mem = s.mem
  spad : u.spad = s.spad

namespace State.RetiredAs

variable {pc : Nat} {x : CoreState} (R : s.RetiredAs u core pc x)
include R

theorem pc_eq : (u.core core).pc = pc % 2 ^ 64 := by
  obtain ⟨_, _, hown⟩ := R.own
  rw [hown]

theorem regs_eq : (u.core core).regs = x.regs := by
  obtain ⟨_, _, hown⟩ := R.own
  rw [hown]

theorem windows_eq : (u.core core).windows = x.windows := by
  obtain ⟨_, _, hown⟩ := R.own
  rw [hown]

theorem masks_eq : (u.core core).masks = x.masks := by
  obtain ⟨_, _, hown⟩ := R.own
  rw [hown]

theorem run_eq : (u.core core).run = x.run := by
  obtain ⟨_, _, hown⟩ := R.own
  rw [hown]

end State.RetiredAs

theorem State.ccRetire_onCore {f : CoreState → CoreState} (h : s.sound = true)
    (hf : ∀ x : CoreState, x.canonical = true → (f x).canonical = true) (core pc : Nat) :
    s.RetiredAs ((s.onCore core f).ccRetire core pc) core pc (f (s.core core)) := by
  have hchanged : (s.onCore core f).sound = true := (State.onCore_keep (Keep.refl s) core f hf).kept.sound h
  have hcore (n : Nat) := State.core_onCore (State.sound_iff.1 h).cores core n f
  have hretired := State.ccRetire_retired hchanged core pc
  refine ⟨?_, fun n hn => ?_, (congrArg State.ctxs hretired.rest :), (congrArg State.mem hretired.rest :),
    (congrArg State.spad hretired.rest :)⟩
  · have hown := State.ccRetire_core hchanged core pc
    rwa [hcore core, if_pos rfl] at hown
  · exact (hretired.cores n hn).trans ((hcore n).trans (if_neg hn))

theorem State.ccWindow_retiredAs (h : s.sound = true) (core window ra : Nat) :
    s.RetiredAs (s.ccWindow core window ra) core ((s.core core).pc + 4)
      { s.core core with windows := Table.put (s.core core).windows 0 window (s.x core ra).toNat } := by
  unfold State.ccWindow State.ccNext
  extract_lets v
  rw [State.core_onCore (State.sound_iff.1 h).cores, if_pos rfl]
  refine State.ccRetire_onCore h (fun x hx => ?_) core _
  obtain ⟨hregs, hwindows, hmasks, hbanks⟩ := CoreState.canonical_parts hx
  exact CoreState.canonical_of hregs (Table.wf_put hwindows) hmasks hbanks

theorem State.ccMaskCount_retiredAs (h : s.sound = true) (core mask ra : Nat) :
    s.RetiredAs (s.ccMaskCount core mask ra) core ((s.core core).pc + 4)
      { s.core core with masks := Table.put (s.core core).masks 0 mask (2 ^ min 256 (s.x core ra).toNat - 1) } := by
  unfold State.ccMaskCount State.ccNext
  extract_lets v
  rw [State.core_onCore (State.sound_iff.1 h).cores, if_pos rfl]
  refine State.ccRetire_onCore h (fun x hx => ?_) core _
  obtain ⟨hregs, hwindows, hmasks, hbanks⟩ := CoreState.canonical_parts hx
  exact CoreState.canonical_of hregs hwindows (Table.wf_put hmasks) hbanks

/-- A release by a core with no far line and no write-back outstanding goes on at once (R247). -/
theorem State.ccRelease_of_quiet (hlines : ∀ l ∈ s.far.lines, l.core ≠ core) (hquiet : s.farQuiet core = true) (k : Stall)
    (next : State → State) : s.ccRelease core k next = next s := by
  have hflush : s.flushFar core = s := by
    unfold State.flushFar
    rw [List.filter_eq_nil_iff.2 fun l hl => by simpa using hlines l hl]
    rfl
  unfold State.ccRelease
  rw [hflush]
  exact if_pos hquiet

theorem State.ccEndInstance_retiredAs (h : s.sound = true) (hlines : ∀ l ∈ s.far.lines, l.core ≠ core)
    (hquiet : s.farQuiet core = true) (code : Nat) :
    s.RetiredAs (s.ccEndInstance core code) core (s.core core).pc
      { s.core core with run := (s.core core).run.map fun r => { r with ended := some code }, step := false } := by
  unfold State.ccEndInstance
  rw [State.ccRelease_of_quiet hlines hquiet]
  extract_lets mark
  exact State.ccRetire_onCore (f := fun x => { x with run := x.run.map mark, step := false }) h (fun _ hx => hx) core _

end ControlFlow

/-- Settles O21: each word runs the effect of its instruction, which is a change of the core that retires; for the branches
the comparison of the model is the condition of the statement. -/
theorem branchesAndMarkers : Obligations.BranchesAndMarkers := by
  intro s core h goes here
  obtain ⟨-, hwindows, hmasks, -⟩ :=
    CoreState.canonical_parts (State.core_canonical (State.sound_iff.1 h).coreParts core)
  refine ⟨fun rd ra imm => ?_, fun window rd ra rb habout => ?_, fun mask rd ra rb habout => ?_, fun rd ra rb => ?_,
    fun rd ra imm r habout hrun hlines hquiet => ?_⟩
  · intro target a b
    refine ⟨exec_branch h (by decide) rfl beq_iff_eq, exec_branch h (by decide) rfl bne_iff_ne,
      exec_branch h (by decide) rfl BitVec.slt_iff_toInt_lt, exec_branch h (by decide) rfl not_slt_iff,
      exec_branch h (by decide) rfl BitVec.ult_iff_lt, exec_branch h (by decide) rfl not_ult_iff,
      fun habout => ?_, fun habout => ?_⟩
    · have hspec := State.ccJump_spec h core rd (s.branchTo core imm)
      rw [State.branchTo_eq, Nat.mod_mod] at hspec
      refine ⟨_, congrArg State.done (State.ccRun_controlFlow habout (by decide) rfl rfl (by simp)), ?_⟩
      rw [State.branchTo_eq]
      exact hspec
    · have hspec := State.ccJump_spec h core rd b.toNat
      rw [Nat.mod_eq_of_lt b.isLt] at hspec
      exact ⟨_, congrArg State.done (State.ccRun_controlFlow habout (by decide) rfl rfl (by simp)), hspec⟩
  · have R := State.ccWindow_retiredAs h core window ra
    refine ⟨_, congrArg State.done (State.ccRun_windowWord habout (by omega) (by omega)),
      R.pc_eq, fun w => ?_, R.regs_eq, R.others, R.mem, R.spad⟩
    rw [R.windows_eq, Table.get_put hwindows]
  · have R := State.ccMaskCount_retiredAs h core (mask.val + 1) ra
    refine ⟨_, congrArg State.done (State.ccRun_windowWord habout (by omega) (by omega)),
      R.pc_eq, fun m => ?_, R.regs_eq, R.others, R.mem, R.spad⟩
    rw [R.masks_eq, Table.get_put hmasks]
  · exact ⟨fun habout => congrArg State.done (State.ccRun_markWord habout (by decide)),
      fun habout => congrArg State.done (State.ccRun_markWord habout (by decide)),
      fun habout => congrArg State.done (State.ccRun_markWord habout (by decide))⟩
  · have R := State.ccEndInstance_retiredAs h hlines hquiet (imm.val % 256)
    refine ⟨_, congrArg State.done (State.ccRun_controlFlow habout (by decide) rfl rfl (by simp)),
      ?_, R.pc_eq, R.regs_eq, R.ctxs, R.mem, R.spad⟩
    rw [R.run_eq, hrun]
    rfl

end Sys2Proof.Machine

/-! ### Semaphores, completion counters and triggers of the control core -/
namespace Sys2Proof.Machine
open Sys2Proof Sys2Proof.Bits

/-! #### What a raised source leaves of the dictionary -/

section LowEntries

variable {s0 s t : State}

/-- The first key of index 0x6000. Raising a source writes entries of faults and of observation alone, which lie from here
on (R428); contexts and barriers lie below. -/
def firstFaultKey : Nat := 0x600000

/-- The stored entries below those of faults are as before, and the dictionary stays in order. -/
structure LowEntriesKept (s t : State) : Prop where
  order : rising (t.dict.map Prod.fst) = true
  find : ∀ k < firstFaultKey, Table.find? t.dict k = Table.find? s.dict k

theorem LowEntriesKept.refl (h : s.sound = true) : LowEntriesKept s s := ⟨(State.sound_iff.1 h).dict, fun _ _ => rfl⟩

theorem LowEntriesKept.of_dict (h : LowEntriesKept s0 s) (hdict : t.dict = s.dict) : LowEntriesKept s0 t :=
  ⟨hdict ▸ h.order, hdict ▸ h.find⟩

theorem LowEntriesKept.setReg (h : LowEntriesKept s0 s) {key : Nat} (hkey : firstFaultKey ≤ key) (v : Nat) :
    LowEntriesKept s0 (s.setReg key v) := by
  refine ⟨State.setReg_rising h.order key v, fun k hk => ?_⟩
  have hne : k ≠ key := by omega
  rw [State.setReg_dict, ← h.find k hk]
  split
  · rw [find?_erase_rising h.order, if_neg hne]
  · rw [Table.find?_insert, if_neg hne]

theorem firstFaultKey_le_unitKey {key : Nat} (h : firstFaultKey ≤ key) (n : Nat) : firstFaultKey ≤ unitKey key n :=
  Nat.le_add_right_of_le h

theorem LowEntriesKept.reg (h : LowEntriesKept s t) (hbuild : t.build = s.build) (hrst : t.rst = s.rst) {k : Nat}
    (hk : k < firstFaultKey) : t.reg k = s.reg k := by
  unfold State.reg
  rw [h.find k hk, State.regDefault_congr hbuild (congrArg ResetState.saddr hrst)]

theorem State.sendPkt_dict (s : State) (c : Option Nat) (p : Packet) : (s.sendPkt c p).dict = s.dict := by
  unfold State.sendPkt State.sendAvoiding
  dsimp only
  split <;> rfl

theorem State.sendEvent_dict (s : State) : s.sendEvent.dict = s.dict := by
  unfold State.sendEvent
  split
  · rfl
  · extract_lets count carrier dest
    clear_value carrier
    split
    · rfl
    · extract_lets x msg o s1
      split
      · rfl
      · rfl
      · exact State.sendPkt_dict ..

theorem State.pushEvent_dict (s : State) (q : List EventRec) (r : EventRec) : (s.pushEvent q r).dict = s.dict := by
  unfold State.pushEvent
  extract_lets was s1 s2
  have h2 : s2.dict = s.dict := by
    unfold s2
    split <;> rfl
  split
  · exact (State.sendEvent_dict s2).trans h2
  · exact h2

theorem State.queueEvent_lowEntries (h : LowEntriesKept s0 s) (r : EventRec) : LowEntriesKept s0 (s.queueEvent r) := by
  have hlost : LowEntriesKept s0 (s.bump Reg.FLT_EVT_LOST) := h.setReg (by decide) _
  unfold State.queueEvent
  split
  · exact h.of_dict (State.pushEvent_dict ..)
  · split
    · exact hlost.of_dict rfl
    · extract_lets rest
      split
      · exact hlost.of_dict (State.pushEvent_dict ..)
      · exact hlost.of_dict rfl

theorem State.countEvent_lowEntries (h : LowEntriesKept s0 s) (x : Source) (p : FaultClass × Bool × Nat) :
    LowEntriesKept s0 (s.countEvent x p) := by
  have hevents : LowEntriesKept s0 (s.bumpAt Reg.SRC_EVENTS x.code) :=
    h.setReg (firstFaultKey_le_unitKey (by decide) _) _
  have hcount : LowEntriesKept s0 ((s.bumpAt Reg.SRC_EVENTS x.code).bumpBy Reg.OBS_FAULT_EVENTS 64 1) :=
    hevents.setReg (by decide) _
  exact (hcount.setReg (firstFaultKey_le_unitKey (by decide : firstFaultKey ≤ Reg.SRC_CLASS) x.code) p.1.code).of_dict rfl

theorem State.startTimer_dict (s : State) (e : EscTimer) : (s.startTimer e).dict = s.dict := by
  unfold State.startTimer
  repeat' split
  all_goals rfl

theorem State.raiseOne_lowEntries (h : LowEntriesKept s0 s) (x : Source) (u : UnitName) (c d : Nat) :
    LowEntriesKept s0 (s.raiseOne x u c d).2 := by
  unfold State.raiseOne
  extract_lets p r s1
  have hcounted : LowEntriesKept s0 (s.countEvent x p) := State.countEvent_lowEntries h x p
  have h1 : LowEntriesKept s0 s1 := by
    unfold s1 State.queueByClass
    split
    · exact State.queueEvent_lowEntries hcounted r
    · exact hcounted
  split
  · exact h1
  · have hnoted : LowEntriesKept s0 (s1.noteSevere x r) :=
      (h1.setReg (firstFaultKey_le_unitKey (by decide : firstFaultKey ≤ Reg.SRC_UNCLEARED) x.code) 1).of_dict rfl
    exact hnoted.of_dict (State.startTimer_dict ..)

/-- Raising a source writes no entry below those of faults. -/
theorem State.raise_lowEntries (h : LowEntriesKept s0 s) (x : Source) (u : UnitName) (c d : Nat) :
    LowEntriesKept s0 (s.raise x u c d) := by
  unfold State.raise
  extract_lets r
  have h1 : LowEntriesKept s0 r.2 := State.raiseOne_lowEntries h x u c d
  split
  · split
    · exact h1.of_dict rfl
    · exact (State.raiseOne_lowEntries (h1.of_dict rfl : LowEntriesKept s0 r.2.startPcyc) _ _ _ _).of_dict rfl
  · exact h1

end LowEntries

/-! #### A change of a semaphore or counter that sets nothing off -/

section Calm

variable {s t : State} {c n : Nat} {l : List Nat}

/-- What a calm state says of one context: no trigger is armed, and a barrier that could open has both of its semaphores,
unlisted, below the threshold. -/
theorem State.calm_at (h : s.calm l = true) (hc : c < 64) :
    (s.ctx c).trigs = [] ∧ (s.isOpen c = true → s.regAt Reg.BAR_STATE c = 0 →
      ∀ key ∈ [Reg.BAR_STEP_SEM, Reg.BAR_IN_SEM], s.regAt key c ∉ l ∧ (s.sem (s.regAt key c)).toNat < s.barThr c) := by
  have hall := List.all_eq_true.1 h c (List.mem_range.2 hc)
  simp only [Bool.and_eq_true, Bool.or_eq_true, Bool.not_eq_true', List.isEmpty_iff, bne_iff_ne, decide_eq_true_eq,
    List.contains_eq_mem, decide_eq_false_iff_not] at hall
  obtain ⟨htrigs, hbarrier⟩ := hall
  refine ⟨htrigs, fun hopen hstate => ?_⟩
  rcases hbarrier with (hclosed | hbusy) | ⟨⟨⟨hstep, hin⟩, hstepLow⟩, hinLow⟩
  · exact Bool.noConfusion (hopen.symm.trans hclosed)
  · exact absurd hstate hbusy
  · simp [hstep, hin, hstepLow, hinLow]

theorem State.fireTriggers_of_unarmed (h : (s.ctx c).trigs = []) (fuel : Nat) : s.fireTriggers c fuel = s := by
  cases fuel with
  | zero => rfl
  | succ fuel =>
    unfold State.fireTriggers
    rw [h]
    rfl

theorem State.checkArrival_of_below (h : s.isOpen c = true → s.regAt Reg.BAR_STATE c = 0 →
    ∀ key ∈ [Reg.BAR_STEP_SEM, Reg.BAR_IN_SEM], (s.sem (s.regAt key c)).toNat < s.barThr c) : s.checkArrival c = s := by
  unfold State.checkArrival
  split
  · rfl
  · next hwaits =>
    simp only [Bool.or_eq_true, Bool.not_eq_true', bne_iff_ne, not_or, Bool.not_eq_false] at hwaits
    have hlow := h hwaits.1 (Decidable.not_not.1 hwaits.2)
    dsimp only
    rw [if_neg (Nat.not_le.2 (hlow _ (by simp))), if_neg (Nat.not_le.2 (hlow _ (by simp)))]

/-- The contexts, the entries below those of faults, and the semaphores outside a list are as before. -/
structure SyncKept (s t : State) (l : List Nat) : Prop where
  ctxs : t.ctxs = s.ctxs
  entries : ∀ k < firstFaultKey, t.reg k = s.reg k
  sems : ∀ m, m ∉ l → t.sem m = s.sem m

/-- A change of the listed semaphores of a calm state, or of a counter, sets nothing off (R294, R409). -/
theorem State.syncChanged_of_calm (h : s.calm l = true) (hkept : SyncKept s t l) {owner : Option Nat}
    (howner : ∀ c, owner = some c → c < 64) : t.syncChanged owner = t := by
  cases owner with
  | none => rfl
  | some c =>
    have hc := howner c rfl
    have hentry (key : Nat) (hkey : key < 0x520000) : t.regAt key c = s.regAt key c :=
      hkept.entries _ (by unfold unitKey firstFaultKey; omega)
    obtain ⟨htrigs, hbarrier⟩ := State.calm_at h hc
    have hunarmed : (t.ctx c).trigs = [] := by
      unfold State.ctx at htrigs ⊢
      rwa [hkept.ctxs]
    change (t.fireTriggers c 17).checkArrival c = t
    rw [State.fireTriggers_of_unarmed hunarmed]
    refine State.checkArrival_of_below fun hopen hstate key hmem => ?_
    have hkey : key < 0x520000 := by
      revert key
      decide
    unfold State.isOpen at hopen
    rw [hentry _ (by decide)] at hopen hstate
    obtain ⟨hunlisted, hlow⟩ := hbarrier hopen hstate key hmem
    unfold State.barThr at hlow ⊢
    rwa [hentry key hkey, hkept.sems _ hunlisted, hentry _ (by decide)]

theorem State.ownerOfSem_lt (h : s.ownerOfSem n = some c) : c < 64 := List.mem_range.1 (List.mem_of_find?_eq_some h)

theorem State.ownerOfCounter_lt (h : s.ownerOfCounter n = some c) : c < 64 :=
  List.mem_range.1 (List.mem_of_find?_eq_some h)

end Calm

/-! #### Semaphores written, and an instruction that writes one -/

section SemWritten

variable {s t : State} {core n : Nat} {v : Word32}

/-- The value that a semaphore of value `v` holds after a signal of `k` (R246). -/
def signalled (v : Word32) (k : Nat) : Word32 := BitVec.ofNat 32 (min (v.toNat + k) 0xFFFFFFFF)

theorem signalled_toNat (v : Word32) (k : Nat) : (signalled v k).toNat = min (v.toNat + k) 0xFFFFFFFF := by
  unfold signalled
  rw [BitVec.toNat_ofNat]
  omega

/-- SIGNAL's addition is a write of the saturated sum, with the fault raised where it saturates. -/
theorem State.addSem_cases (s : State) (n k : Nat) :
    s.addSem n k = s.putSem n (signalled (s.sem n) k) ∨
    ∃ c, s.addSem n k = (s.putSem n (signalled (s.sem n) k)).raiseCtx .semSaturated c n := by
  unfold State.addSem signalled
  extract_lets sum
  split
  · next hfits => exact .inl (by rw [Nat.min_eq_left hfits])
  · next hover => exact .inr ⟨_, by rw [Nat.min_eq_right (Nat.le_of_not_le hover)]; rfl⟩

theorem State.addSem_same (s : State) (n k : Nat) :
    SameButFaults (s.putSem n (signalled (s.sem n) k)) (s.addSem n k) := by
  rcases s.addSem_cases n k with hfits | ⟨c, hover⟩
  · exact hfits ▸ SameButFaults.refl _
  · exact hover ▸ State.raise_same (.refl _) ..

theorem State.addSem_lowEntries (h : s.sound = true) (n k : Nat) : LowEntriesKept s (s.addSem n k) := by
  have hput : LowEntriesKept s (s.putSem n (signalled (s.sem n) k)) := (LowEntriesKept.refl h).of_dict rfl
  rcases s.addSem_cases n k with hfits | ⟨c, hover⟩
  · exact hfits ▸ hput
  · exact hover ▸ State.raise_lowEntries hput ..

/-- The semaphores of a state where one was written, and a fault perhaps raised. -/
theorem SameButFaults.sem_of_putSem (hsame : SameButFaults (s.putSem n v) t) (h : s.sound = true) (m : Nat) :
    t.sem m = if m = n then v else s.sem m := by
  have hsem : t.sem m = (s.putSem n v).sem m := by
    unfold State.sem
    rw [hsame.sems]
  rw [hsem, State.sem_putSem (State.sound_iff.1 h).sems]

theorem SameButFaults.syncKept_of_putSem (hsame : SameButFaults (s.putSem n v) t) (h : s.sound = true)
    (hlow : LowEntriesKept s t) : SyncKept s t [n] where
  ctxs := hsame.ctxs
  entries _ hk := hlow.reg hsame.build hsame.rst hk
  sems m hm := (hsame.sem_of_putSem h m).trans (if_neg fun e => hm (List.mem_singleton.2 e))

/-- A calm state's SIGNAL is the addition alone. -/
theorem State.signal_of_calm (h : s.sound = true) (hcalm : s.calm [n] = true) (k : Nat) : s.signal n k = s.addSem n k :=
  State.syncChanged_of_calm hcalm ((s.addSem_same n k).syncKept_of_putSem h (State.addSem_lowEntries h n k))
    fun _ => State.ownerOfSem_lt

/-- A calm state's SET is the write alone. -/
theorem State.setSem_of_calm (h : s.sound = true) (hcalm : s.calm [n] = true) (v : Word32) :
    s.setSem n v = s.putSem n v :=
  State.syncChanged_of_calm hcalm ((SameButFaults.refl _).syncKept_of_putSem h ((LowEntriesKept.refl h).of_dict rfl))
    fun _ => State.ownerOfSem_lt

/-- A calm state's CSET is the write alone. -/
theorem State.setCounter_of_calm (hcalm : s.calm [] = true) (v : Word64) : s.setCounter n v = s.putCounter n v :=
  State.syncChanged_of_calm (t := s.putCounter n v) hcalm ⟨rfl, fun k _ => State.reg_congr rfl rfl rfl k, fun _ _ => rfl⟩
    fun _ => State.ownerOfCounter_lt

/-- The core goes on to its next instruction; the other cores, the memories, the far lines and the transactions are as
before. -/
def State.GoesOn (s u : State) (core : Nat) : Prop :=
  (u.core core).pc = ((s.core core).pc + 4) % 2 ^ 64 ∧ (u.core core).stall = .none ∧
    (∀ m, m ≠ core → u.core m = s.core m) ∧ u.mem = s.mem ∧ u.spad = s.spad ∧ u.far = s.far ∧ u.rmt = s.rmt

/-- What retiring after a write of a semaphore leaves. -/
theorem SameButFaults.ccNext_of_putSem (hsame : SameButFaults (s.putSem n v) t) (h : s.sound = true)
    (ht : t.sound = true) (core : Nat) :
    s.GoesOn (t.ccNext core) core ∧ (∀ m, (t.ccNext core).sem m = if m = n then v else s.sem m) ∧
      (t.ccNext core).counters = s.counters ∧ ∀ r, (t.ccNext core).x core r = s.x core r := by
  have hcore (m : Nat) : t.core m = s.core m := State.core_congr hsame.cores m
  have R := State.ccRetire_retired ht core ((t.core core).pc + 4)
  have hrest := R.rest
  refine ⟨⟨hcore core ▸ R.next, R.idle, fun m hm => (R.cores m hm).trans (hcore m), ?_, ?_, ?_, ?_⟩, fun m => ?_, ?_,
    fun r => ?_⟩
  · exact (congrArg State.mem hrest :).trans hsame.mem
  · exact (congrArg State.spad hrest :).trans hsame.spad
  · exact (congrArg State.far hrest :).trans hsame.far
  · exact (congrArg State.rmt hrest :).trans hsame.rmt
  · exact (congrArg (fun u : State => u.sem m) hrest :).trans (hsame.sem_of_putSem h m)
  · exact (congrArg State.counters hrest :).trans hsame.counters
  · refine (State.ccRetire_x ht core _ core r).trans ?_
    unfold State.x
    rw [hcore]

end SemWritten

/-! #### The instructions -/

section SyncInstructions

variable {s : State} {core : Nat}

/-- The words of opcodes 0x11, 0x12 and 0x16 (R290). -/
theorem ccLegal_syncWord (rd ra rb : Fin 32) {op fn : Nat}
    (h : op = 0x11 ∧ fn < 4 ∨ op = 0x12 ∧ fn < 3 ∨ op = 0x16 ∧ fn < 32) : ccLegal (ccWord op rd ra rb fn) = true := by
  obtain ⟨eop, -, -, -, efn⟩ := ccWord_fields (by omega : op < 64) rd.isLt ra.isLt rb.isLt (by omega : fn < 2048)
  unfold ccLegal
  rw [eop, efn]
  rcases h with ⟨rfl, hfn⟩ | ⟨rfl, hfn⟩ | ⟨rfl, hfn⟩ <;> exact decide_eq_true hfn

/-- A core about to execute a word of a semaphore, counter or trigger instruction has its effect. -/
theorem State.ccRun_syncWord {op fn : Nat} {rd ra rb : Fin 32} {form : CcForm} {effect : State → State}
    (habout : s.about core (ccWord op rd ra rb fn) = true)
    (hword : op = 0x11 ∧ fn < 4 ∨ op = 0x12 ∧ fn < 3 ∨ op = 0x16 ∧ fn < 32 := by omega)
    (himm : form.imm = none := by rfl)
    (hfields : (op == form.op && fieldIs form.fn fn && fieldIs form.rd rd && fieldIs form.ra ra && fieldIs form.rb rb) = true
      := by simp) :
    s.ccRun core form effect = effect s :=
  State.ccRun_about habout (ccLegal_syncWord rd ra rb hword)
    ((CcForm.matches_ccWord (by omega) rd ra rb (by omega) himm).trans hfields)

variable {ra : Nat}

theorem State.ccSem_of_owns (h : s.ownsSem (s.ctxOfCore core) (s.x core ra).toNat = true) (next : Nat → State → State) :
    s.ccSem core ra next = next (s.x core ra).toNat s := if_pos h

/-- A semaphore outside the context's window ends the task (R278). -/
theorem State.ccSem_of_foreign (h : s.ownsSem (s.ctxOfCore core) (s.x core ra).toNat = false)
    (next : Nat → State → State) : s.ccSem core ra next = s.taskError core 0x57 := if_neg (by simp [h])

theorem State.ccCnt_of_owns (h : s.ownsCounter (s.ctxOfCore core) (s.x core ra).toNat = true)
    (next : Nat → State → State) : s.ccCnt core ra next = next (s.x core ra).toNat s := if_pos h

/-- An instruction that only retires leaves every register as it was. -/
theorem State.ccNext_spec (h : s.sound = true) (core : Nat) :
    s.Retired (s.ccNext core) core (((s.core core).pc + 4) % 2 ^ 64) ∧ ∀ r, (s.ccNext core).x core r = s.x core r :=
  ⟨State.ccRetire_retired h core _, State.ccRetire_x h core _ core⟩

/-- The release of SIGNAL and SET with no far write-back to wait for is what they do to the semaphore. -/
theorem State.ccSem_ccRelease (howns : s.ownsSem (s.ctxOfCore core) (s.x core ra).toNat = true)
    (hlines : ∀ l ∈ s.far.lines, l.core ≠ core) (hquiet : s.farQuiet core = true) (k : Stall)
    (next : Nat → State → State) :
    (s.ccSem core ra fun n s => s.ccRelease core k (next n)) = next (s.x core ra).toNat s :=
  (State.ccSem_of_owns howns _).trans (State.ccRelease_of_quiet hlines hquiet k _)

theorem State.ccSignal_of_calm (h : s.sound = true) (howns : s.ownsSem (s.ctxOfCore core) (s.x core ra).toNat = true)
    (hcalm : s.calm [(s.x core ra).toNat] = true) (hlines : ∀ l ∈ s.far.lines, l.core ≠ core)
    (hquiet : s.farQuiet core = true) (rb : Nat) :
    s.ccSignal core ra rb = (s.addSem (s.x core ra).toNat (s.x core rb).toNat).ccNext core := by
  rw [← State.signal_of_calm h hcalm]
  exact State.ccSem_ccRelease howns hlines hquiet _ fun n s => (s.signal n (s.x core rb).toNat).ccNext core

theorem State.ccSet_of_calm (h : s.sound = true) (howns : s.ownsSem (s.ctxOfCore core) (s.x core ra).toNat = true)
    (hcalm : s.calm [(s.x core ra).toNat] = true) (hlines : ∀ l ∈ s.far.lines, l.core ≠ core)
    (hquiet : s.farQuiet core = true) (rb : Nat) :
    s.ccSet core ra rb = (s.putSem (s.x core ra).toNat ((s.x core rb).setWidth 32)).ccNext core := by
  rw [← State.setSem_of_calm h hcalm, ← BitVec.ofNat_toNat]
  exact State.ccSem_ccRelease howns hlines hquiet _ fun n s => (s.setSem n (BitVec.ofNat 32 (s.x core rb).toNat)).ccNext core

theorem State.ccWait_of_owns (howns : s.ownsSem (s.ctxOfCore core) (s.x core ra).toNat = true) (rb : Nat) :
    s.ccWait core ra rb = if (s.x core rb).toNat ≤ (s.sem (s.x core ra).toNat).toNat then s.ccNext core
      else s.ccStall core (.waitSem (s.x core ra).toNat (s.x core rb).toNat) := State.ccSem_of_owns howns _

theorem State.ccReadSem_of_owns (howns : s.ownsSem (s.ctxOfCore core) (s.x core ra).toNat = true) (rd : Nat) :
    s.ccReadSem core rd ra = s.ccWrite core rd ((s.sem (s.x core ra).toNat).setWidth 64) :=
  (State.ccSem_of_owns howns _).trans (by rw [BitVec.ofNat_toNat])

theorem State.ccCset_of_calm (howns : s.ownsCounter (s.ctxOfCore core) (s.x core ra).toNat = true)
    (hcalm : s.calm [] = true) (rb : Nat) :
    s.ccCset core ra rb = (s.putCounter (s.x core ra).toNat (s.x core rb)).ccNext core :=
  (State.ccCnt_of_owns howns _).trans (by rw [State.setCounter_of_calm hcalm])

/-- What retiring after a write of a counter leaves. -/
theorem State.putCounter_ccNext (h : s.sound = true) (core n : Nat) (v : Word64) :
    (((s.putCounter n v).ccNext core).core core).pc = ((s.core core).pc + 4) % 2 ^ 64 ∧
      (∀ m, ((s.putCounter n v).ccNext core).counter m = if m = n then v else s.counter m) ∧
      ∀ r, ((s.putCounter n v).ccNext core).x core r = s.x core r := by
  have hput : (s.putCounter n v).sound = true := (State.putCounter_keep (Keep.refl s) n v).kept.sound h
  obtain ⟨R, hregs⟩ := State.ccNext_spec hput core
  refine ⟨R.next, fun m => ?_, hregs⟩
  exact (congrArg (fun u : State => u.counter m) R.rest :).trans
    (State.counter_putCounter (State.sound_iff.1 h).counters n m v)

theorem State.ccCread_of_owns (howns : s.ownsCounter (s.ctxOfCore core) (s.x core ra).toNat = true) (rd : Nat) :
    s.ccCread core rd ra = s.ccWrite core rd (s.counter (s.x core ra).toNat) := State.ccCnt_of_owns howns _

theorem State.ccWaitc_of_owns (howns : s.ownsCounter (s.ctxOfCore core) (s.x core ra).toNat = true) (rb : Nat) :
    s.ccWaitc core ra rb = if counterReached (s.counter (s.x core ra).toNat) (s.x core rb) then s.ccNext core
      else s.ccStall core (.waitCnt (s.x core ra).toNat (s.x core rb).toNat) := State.ccCnt_of_owns howns _

/-- WAITC's test is the sign of the difference (R251). -/
theorem counterReached_iff {v k : Word64} : counterReached v k = true ↔ 0 ≤ (v - k).toInt := by
  unfold counterReached
  rw [BitVec.msb_eq_toInt]
  simp

/-- A stalled WAIT retires once its threshold is reached, and waits on below it (R246). -/
theorem State.waitSatisfied_of_waitSem {m k : Nat} (hready : s.ccReady core = true)
    (hstall : (s.core core).stall = .waitSem m k) :
    s.waitSatisfied core = if k ≤ (s.sem m).toNat then s.ccNext core else s := by
  unfold State.waitSatisfied State.waitOver
  simp [hready, hstall]

theorem State.ccTrigDisarm_of_declared {slot : Nat} (hdeclared : s.declared core slot = true) :
    s.ccTrigDisarm core slot =
      (s.onCtx (s.ctxOfCore core) fun x => { x with trigs := Table.erase x.trigs slot }).ccNext core :=
  if_neg (by simp [hdeclared])

/-- A declared slot is armed with the record that the scratchpad holds, where the context owns both of its units (R294). -/
theorem State.ccTrigArm_of_owns {slot : Nat} {t : State} {bs : List Byte} (hdeclared : s.declared core slot = true)
    (hload : s.ccLoadSpad core (s.x core ra).toNat 16 = (.ok bs, t))
    (hsem : t.ownsSem (t.ctxOfCore core) (Trig.parse bs).sem = true)
    (hwatched : (if (Trig.parse bs).counter then t.ownsCounter (t.ctxOfCore core) (Trig.parse bs).watched
      else t.ownsSem (t.ctxOfCore core) (Trig.parse bs).watched) = true) :
    s.ccTrigArm core slot ra = ((t.onCtx (t.ctxOfCore core) fun x =>
      { x with trigs := Table.insert x.trigs slot (Trig.parse bs) }).syncChanged (some (t.ctxOfCore core))).ccNext core := by
  unfold State.ccTrigArm
  rw [hload, if_neg (by simp [hdeclared])]
  exact if_neg (by simp [hsem, hwatched])

end SyncInstructions

/-- Settles O23: each word runs its instruction; in a calm state a write of a semaphore or counter sets nothing off, even
where the write saturates and raises a fault, so that what is left is the write and the retiring. -/
theorem semaphoreInstructions : Obligations.SemaphoreInstructions := by
  intro s core rd ra rb h c n k goesOn
  refine ⟨fun howns hcalm hlines hquiet => ⟨fun habout => ?signal, fun habout => ?set⟩,
    fun howns => ⟨fun habout => ⟨fun hreached => ?wait, fun hbelow => ?waitStalls⟩, fun habout => ?read⟩,
    fun howns => ⟨fun habout hcalm => ?cset, fun habout => ?cread,
      fun habout => ⟨fun hreached => ?waitc, fun hbelow => ?waitcStalls⟩⟩,
    fun m t hready hstall => ⟨fun hreached => ?waitOver, fun hbelow => ?waitsOn⟩,
    fun slot hdeclared => ⟨fun habout => ?disarm, fun habout bs t hload hsem hwatched => ?arm⟩,
    fun hforeign i w hword habout => ?foreign⟩
  case signal =>
    have hsound := (State.addSem_keep (Keep.refl s) n k.toNat).kept.sound h
    obtain ⟨hnext, hsems, hcounters, hregs⟩ := (s.addSem_same n k.toNat).ccNext_of_putSem h hsound core
    refine ⟨_, congrArg State.done ((State.ccRun_syncWord habout).trans
      (State.ccSignal_of_calm h howns hcalm hlines hquiet rb)), hnext, fun m => ?_, hcounters, hregs⟩
    rw [hsems, apply_ite BitVec.toNat, signalled_toNat]
  case set =>
    have hsound := (State.putSem_keep (Keep.refl s) n (k.setWidth 32)).kept.sound h
    exact ⟨_, congrArg State.done ((State.ccRun_syncWord habout).trans
      (State.ccSet_of_calm h howns hcalm hlines hquiet rb)), (SameButFaults.refl _).ccNext_of_putSem h hsound core⟩
  case wait =>
    exact ⟨_, congrArg State.done ((State.ccRun_syncWord habout).trans
      ((State.ccWait_of_owns howns rb).trans (if_pos hreached))), State.ccNext_spec h core⟩
  case waitStalls =>
    exact congrArg State.done ((State.ccRun_syncWord habout).trans
      ((State.ccWait_of_owns howns rb).trans (if_neg (Nat.not_le.2 hbelow))))
  case read =>
    exact ⟨_, congrArg State.done ((State.ccRun_syncWord habout).trans (State.ccReadSem_of_owns howns rd)),
      State.ccWrite_spec h core rd _⟩
  case cset =>
    exact ⟨_, congrArg State.done ((State.ccRun_syncWord habout).trans (State.ccCset_of_calm howns hcalm rb)),
      State.putCounter_ccNext h core n k⟩
  case cread =>
    exact ⟨_, congrArg State.done ((State.ccRun_syncWord habout).trans (State.ccCread_of_owns howns rd)),
      State.ccWrite_spec h core rd _⟩
  case waitc =>
    exact ⟨_, congrArg State.done ((State.ccRun_syncWord habout).trans
      ((State.ccWaitc_of_owns howns rb).trans (if_pos (counterReached_iff.2 hreached)))), State.ccNext_spec h core⟩
  case waitcStalls =>
    exact congrArg State.done ((State.ccRun_syncWord habout).trans
      ((State.ccWaitc_of_owns howns rb).trans (if_neg (mt counterReached_iff.1 (Int.not_le.2 hbelow)))))
  case waitOver =>
    exact ⟨_, congrArg State.done ((State.waitSatisfied_of_waitSem hready hstall).trans (if_pos hreached)),
      (State.ccNext_spec h core).1⟩
  case waitsOn =>
    exact congrArg State.done ((State.waitSatisfied_of_waitSem hready hstall).trans (if_neg (Nat.not_le.2 hbelow)))
  case disarm =>
    exact congrArg State.done ((State.ccRun_syncWord habout).trans (State.ccTrigDisarm_of_declared hdeclared))
  case arm =>
    exact congrArg State.done ((State.ccRun_syncWord habout).trans
      (State.ccTrigArm_of_owns hdeclared hload hsem hwatched))
  case foreign =>
    rcases hword with ⟨rfl, rfl⟩ | ⟨rfl, rfl⟩ | ⟨rfl, rfl⟩ | ⟨rfl, rfl⟩ <;>
      exact congrArg State.done ((State.ccRun_syncWord habout).trans (State.ccSem_of_foreign hforeign _))

end Sys2Proof.Machine
